-- ==== Sys2Proof/Word.lean ====
section
/-! DEFINITION. The words of the machine and their plainest arithmetic: the names of the widths that 00_scope.md R6 and
01_strand_machine.md R13 use. -/
namespace Sys2Proof

/-- A byte of memory. -/
abbrev Byte := BitVec 8
/-- A scalar register or control register (R13). -/
abbrev Word := BitVec 64
/-- A vector register or a 64-byte line (R13, R17). -/
abbrev Line := BitVec 512
/-- A descriptor register (R13). -/
abbrev Desc := BitVec 256

end Sys2Proof
end

