-- ==== Sys2Proof/Config.lean ====
section
/-! DEFINITION. What an implementation fixes and the values the spec leaves open. Every constant here is opaque and has
no body: a statement proved with it holds whatever it is (log entries 4, 5). -/
namespace Sys2Proof.Config

/-- A byte whose value the architecture does not fix (R275, R276, R383, R384), by a running number (log entry 4). -/
opaque freeByte : Nat → BitVec 8
/-- A 64-bit value whose contents the spec does not state, by a running number (log entry 4). -/
opaque freeWord : Nat → BitVec 64
/-- A key that the supervisor makes, by a running number (R337, log entry 4). -/
opaque freeKey : Nat → BitVec 512
/-- The TVAL of a trap for which the spec states none, by the cycle in which it is taken (log entry 4). -/
opaque freeTval : Nat → BitVec 64
/-- SHA-512 of a list of bytes (20_module_host.md R493 to R495 name it and do not define it, log entry 5). -/
opaque sha512 : List (BitVec 8) → BitVec 512
/-- Whether an Ed25519 signature over a digest verifies under a public key (R493, R494, log entry 5). -/
opaque ed25519Verify : BitVec 256 → BitVec 512 → BitVec 512 → Bool
/-- The signature of the device identity key over a digest (R495, log entry 5). -/
opaque identitySign : BitVec 512 → BitVec 512
/-- The device identity public key, by module (R494, R495, log entry 5). -/
opaque identityKey : Nat → BitVec 256
/-- The accepted Jalatrix key, whose digest is fused (R493, log entry 5). -/
opaque jalatrixKey : BitVec 256
/-- Where in a module's memory the firmware places its dump region (R522 states no address, log entry 13). -/
opaque dumpOffset : Nat → Nat
/-- The bytes of the boot ROM (R495, log entry 5). -/
opaque bootRom : List (BitVec 8)

end Sys2Proof.Config
end

