-- ==== Sys2Proof/Syntax.lean ====
section
/-! DEFINITION. The ONE inductive of the instructions and steps: one constructor per row of spec/opcode_table.json,
in the table's order. Rows with an encoding carry the fields of the encoding (the T bit is no operand: R50); the rows of
the 64-bit space carry the fields of both words. A chunk instruction names its operation; its fields A, B, C, DL, FN and
IMM are read from the thread's instruction register (Thread.ir). A step of another agent names what happens; which agent
it happens to and what the outside chose stand in State.ev. -/
namespace Sys2Proof

/-- An instruction or a step of the machine. -/
inductive Instr where
  /-- ILL (R62): Raises ILLEGAL_OPCODE with SUB 1, whatever the T bit and body hold. -/
  | ill (x : BitVec 22)
  /-- ADD (R118): Writes the wrapped sum of two scalar registers. -/
  | add (d : BitVec 6) (a : BitVec 6) (b : BitVec 6)
  /-- SUB (R118): Writes the wrapped difference of two scalar registers. -/
  | sub (d : BitVec 6) (a : BitVec 6) (b : BitVec 6)
  /-- AND (R118): Writes the bitwise AND of two scalar registers. -/
  | and (d : BitVec 6) (a : BitVec 6) (b : BitVec 6)
  /-- OR (R118): Writes the bitwise OR of two scalar registers. -/
  | or (d : BitVec 6) (a : BitVec 6) (b : BitVec 6)
  /-- XOR (R118): Writes the bitwise XOR of two scalar registers. -/
  | xor (d : BitVec 6) (a : BitVec 6) (b : BitVec 6)
  /-- ANDN (R118): Writes a AND NOT b. -/
  | andn (d : BitVec 6) (a : BitVec 6) (b : BitVec 6)
  /-- SHL (R118): Shifts a left by b[5:0] and wraps the result. -/
  | shl (d : BitVec 6) (a : BitVec 6) (b : BitVec 6)
  /-- SHR (R118): Shifts a right logically by b[5:0]. -/
  | shr (d : BitVec 6) (a : BitVec 6) (b : BitVec 6)
  /-- SRA (R118): Shifts a right arithmetically by b[5:0]. -/
  | sra (d : BitVec 6) (a : BitVec 6) (b : BitVec 6)
  /-- ROL (R118): Rotates a left by b[5:0]. -/
  | rol (d : BitVec 6) (a : BitVec 6) (b : BitVec 6)
  /-- MIN (R118): Writes the signed minimum of a and b. -/
  | min (d : BitVec 6) (a : BitVec 6) (b : BitVec 6)
  /-- MAX (R118): Writes the signed maximum of a and b. -/
  | max (d : BitVec 6) (a : BitVec 6) (b : BitVec 6)
  /-- MINN (R118): Writes the unsigned minimum of a and b. -/
  | minn (d : BitVec 6) (a : BitVec 6) (b : BitVec 6)
  /-- MAXN (R118): Writes the unsigned maximum of a and b. -/
  | maxn (d : BitVec 6) (a : BitVec 6) (b : BitVec 6)
  /-- ADDS (R118): Writes the saturated signed sum of a and b. -/
  | adds (d : BitVec 6) (a : BitVec 6) (b : BitVec 6)
  /-- SUBS (R118): Writes the saturated signed difference of a and b. -/
  | subs (d : BitVec 6) (a : BitVec 6) (b : BitVec 6)
  /-- MUL (R119): Writes the low 64 bits of the product of a and b. -/
  | mul (d : BitVec 6) (a : BitVec 6) (b : BitVec 6)
  /-- MULH (R119): Writes the high 64 bits of the signed product of a and b. -/
  | mulh (d : BitVec 6) (a : BitVec 6) (b : BitVec 6)
  /-- MULHN (R119): Writes the high 64 bits of the unsigned product of a and b. -/
  | mulhn (d : BitVec 6) (a : BitVec 6) (b : BitVec 6)
  /-- DIV (R119): Writes the signed quotient rounded toward zero, and raises INT_DIVIDE_ZERO when b is 0. -/
  | div (d : BitVec 6) (a : BitVec 6) (b : BitVec 6)
  /-- DIVN (R119): Writes the unsigned quotient, and raises INT_DIVIDE_ZERO when b is 0. -/
  | divn (d : BitVec 6) (a : BitVec 6) (b : BitVec 6)
  /-- REM (R119): Writes the signed remainder, and raises INT_DIVIDE_ZERO when b is 0. -/
  | rem (d : BitVec 6) (a : BitVec 6) (b : BitVec 6)
  /-- REMN (R119): Writes the unsigned remainder, and raises INT_DIVIDE_ZERO when b is 0. -/
  | remn (d : BitVec 6) (a : BitVec 6) (b : BitVec 6)
  /-- CLZ (R119): Counts the leading zero bits of a. -/
  | clz (d : BitVec 6) (a : BitVec 6)
  /-- CTZ (R119): Counts the trailing zero bits of a. -/
  | ctz (d : BitVec 6) (a : BitVec 6)
  /-- POPC (R119): Counts the one bits of a. -/
  | popc (d : BitVec 6) (a : BitVec 6)
  /-- BREV (R119): Reverses the bit order of a. -/
  | brev (d : BitVec 6) (a : BitVec 6)
  /-- SEQ (R121): Writes 1 when a equals b, else 0. -/
  | seq (d : BitVec 6) (a : BitVec 6) (b : BitVec 6)
  /-- SNE (R121): Writes 1 when a differs from b, else 0. -/
  | sne (d : BitVec 6) (a : BitVec 6) (b : BitVec 6)
  /-- SLT (R121): Writes 1 when a is signed-less than b, else 0. -/
  | slt (d : BitVec 6) (a : BitVec 6) (b : BitVec 6)
  /-- SGE (R121): Writes 1 when a is signed-greater than or equal to b, else 0. -/
  | sge (d : BitVec 6) (a : BitVec 6) (b : BitVec 6)
  /-- SLTN (R121): Writes 1 when a is unsigned-less than b, else 0. -/
  | sltn (d : BitVec 6) (a : BitVec 6) (b : BitVec 6)
  /-- SGEN (R121): Writes 1 when a is unsigned-greater than or equal to b, else 0. -/
  | sgen (d : BitVec 6) (a : BitVec 6) (b : BitVec 6)
  /-- CMOV (R121): Copies s[sa] to s[sd] when s[sb] is nonzero. -/
  | cmov (d : BitVec 6) (a : BitVec 6) (b : BitVec 6)
  /-- ADDI (R122): Adds a signed immediate to a register. -/
  | addi (d : BitVec 6) (a : BitVec 6) (i : BitVec 10)
  /-- ANDI (R122): ANDs a register with a sign-extended immediate. -/
  | andi (d : BitVec 6) (a : BitVec 6) (i : BitVec 10)
  /-- ORI (R122): ORs a register with a sign-extended immediate. -/
  | ori (d : BitVec 6) (a : BitVec 6) (i : BitVec 10)
  /-- XORI (R122): XORs a register with a sign-extended immediate. -/
  | xori (d : BitVec 6) (a : BitVec 6) (i : BitVec 10)
  /-- SHLI (R122): Shifts a register left by an immediate amount. -/
  | shli (d : BitVec 6) (a : BitVec 6) (h : BitVec 6)
  /-- SHRI (R122): Shifts a register right logically by an immediate amount. -/
  | shri (d : BitVec 6) (a : BitVec 6) (h : BitVec 6)
  /-- SRAI (R122): Shifts a register right arithmetically by an immediate amount. -/
  | srai (d : BitVec 6) (a : BitVec 6) (h : BitVec 6)
  /-- MULI (R122): Multiplies a register by a signed immediate. -/
  | muli (d : BitVec 6) (a : BitVec 6) (i : BitVec 10)
  /-- SLTI (R122): Writes 1 when a register is signed-less than the immediate. -/
  | slti (d : BitVec 6) (a : BitVec 6) (i : BitVec 10)
  /-- SLTNI (R122): Writes 1 when a register is unsigned-less than the immediate. -/
  | sltni (d : BitVec 6) (a : BitVec 6) (i : BitVec 10)
  /-- LEA (R123): Writes s[sa] + s[sb] × 2^sh. -/
  | lea (d : BitVec 6) (a : BitVec 6) (b : BitVec 6) (h : BitVec 3)
  /-- LDK (R124): Loads a signed immediate into a scalar register. -/
  | ldk (d : BitVec 6) (i : BitVec 16)
  /-- LDI (R125): Loads a sign-extended 32-bit payload into a scalar register. -/
  | ldi (x : BitVec 6) (imm : BitVec 32)
  /-- LDIH (R125): Writes a 32-bit payload into bits 63:32 of a scalar register. -/
  | ldih (x : BitVec 6) (imm : BitVec 32)
  /-- BEXT (R126): Extracts a zero-extended bit field from a register. -/
  | bext (d : BitVec 6) (a : BitVec 6) (lo : BitVec 6) (w : BitVec 6)
  /-- BINS (R126): Inserts a bit field into a register. -/
  | bins (d : BitVec 6) (a : BitVec 6) (lo : BitVec 6) (w : BitVec 6)
  /-- ADDPC (R127): Writes the own address plus a signed 32-bit byte offset. -/
  | addpc (x : BitVec 6) (off : BitVec 32)
  /-- LD_I8 (R128): Loads a sign-extended byte from local memory after the checks of R129. -/
  | ldI8 (d : BitVec 6) (a : BitVec 6) (i : BitVec 10)
  /-- LD_I16 (R128): Loads a sign-extended half-word from local memory. -/
  | ldI16 (d : BitVec 6) (a : BitVec 6) (i : BitVec 10)
  /-- LD_I32 (R128): Loads a sign-extended word from local memory. -/
  | ldI32 (d : BitVec 6) (a : BitVec 6) (i : BitVec 10)
  /-- LD_I64 (R128): Loads a double word from local memory. -/
  | ldI64 (d : BitVec 6) (a : BitVec 6) (i : BitVec 10)
  /-- LD_N8 (R128): Loads a zero-extended byte from local memory. -/
  | ldN8 (d : BitVec 6) (a : BitVec 6) (i : BitVec 10)
  /-- LD_N16 (R128): Loads a zero-extended half-word from local memory. -/
  | ldN16 (d : BitVec 6) (a : BitVec 6) (i : BitVec 10)
  /-- LD_N32 (R128): Loads a zero-extended word from local memory. -/
  | ldN32 (d : BitVec 6) (a : BitVec 6) (i : BitVec 10)
  /-- ST_8 (R128): Stores a byte to local memory, taking a pre-image where needed. -/
  | st8 (d : BitVec 6) (a : BitVec 6) (i : BitVec 10)
  /-- ST_16 (R128): Stores a half-word to local memory. -/
  | st16 (d : BitVec 6) (a : BitVec 6) (i : BitVec 10)
  /-- ST_32 (R128): Stores a word to local memory. -/
  | st32 (d : BitVec 6) (a : BitVec 6) (i : BitVec 10)
  /-- ST_64 (R128): Stores a double word to local memory. -/
  | st64 (d : BitVec 6) (a : BitVec 6) (i : BitVec 10)
  /-- LDBITS (R130): Reads a bit field of 1 to 64 bits at a bit address of local memory. -/
  | ldbits (d : BitVec 6) (a : BitVec 6) (w : BitVec 6)
  /-- STBITS (R130): Writes a bit field of 1 to 64 bits at a bit address of local memory. -/
  | stbits (d : BitVec 6) (a : BitVec 6) (w : BitVec 6)
  /-- AMOADD_32 (R132): Atomically adds to a 32-bit local word and returns the old value. -/
  | amoadd32 (d : BitVec 6) (a : BitVec 6) (b : BitVec 6)
  /-- AMOAND_32 (R132): Atomically ANDs a 32-bit local word and returns the old value. -/
  | amoand32 (d : BitVec 6) (a : BitVec 6) (b : BitVec 6)
  /-- AMOOR_32 (R132): Atomically ORs a 32-bit local word and returns the old value. -/
  | amoor32 (d : BitVec 6) (a : BitVec 6) (b : BitVec 6)
  /-- AMOXOR_32 (R132): Atomically XORs a 32-bit local word and returns the old value. -/
  | amoxor32 (d : BitVec 6) (a : BitVec 6) (b : BitVec 6)
  /-- AMOMIN_32 (R132): Atomically takes the signed minimum of a 32-bit local word. -/
  | amomin32 (d : BitVec 6) (a : BitVec 6) (b : BitVec 6)
  /-- AMOMAX_32 (R132): Atomically takes the signed maximum of a 32-bit local word. -/
  | amomax32 (d : BitVec 6) (a : BitVec 6) (b : BitVec 6)
  /-- AMOSWP_32 (R132): Atomically swaps a 32-bit local word. -/
  | amoswp32 (d : BitVec 6) (a : BitVec 6) (b : BitVec 6)
  /-- AMOADD_64 (R132): Atomically adds to a 64-bit local word and returns the old value. -/
  | amoadd64 (d : BitVec 6) (a : BitVec 6) (b : BitVec 6)
  /-- AMOAND_64 (R132): Atomically ANDs a 64-bit local word. -/
  | amoand64 (d : BitVec 6) (a : BitVec 6) (b : BitVec 6)
  /-- AMOOR_64 (R132): Atomically ORs a 64-bit local word. -/
  | amoor64 (d : BitVec 6) (a : BitVec 6) (b : BitVec 6)
  /-- AMOXOR_64 (R132): Atomically XORs a 64-bit local word. -/
  | amoxor64 (d : BitVec 6) (a : BitVec 6) (b : BitVec 6)
  /-- AMOMIN_64 (R132): Atomically takes the signed minimum of a 64-bit local word. -/
  | amomin64 (d : BitVec 6) (a : BitVec 6) (b : BitVec 6)
  /-- AMOMAX_64 (R132): Atomically takes the signed maximum of a 64-bit local word. -/
  | amomax64 (d : BitVec 6) (a : BitVec 6) (b : BitVec 6)
  /-- AMOSWP_64 (R132): Atomically swaps a 64-bit local word. -/
  | amoswp64 (d : BitVec 6) (a : BitVec 6) (b : BitVec 6)
  /-- AMOCAS (R133): Atomically compares a local word and swaps in a new value on equality. -/
  | amocas (d : BitVec 6) (a : BitVec 6) (b : BitVec 6) (wide : BitVec 1) (n : BitVec 6)
  /-- LDFE (R246): Waits for a full word, reads it and empties its tag. -/
  | ldfe (d : BitVec 6) (a : BitVec 6) (l : BitVec 3)
  /-- LDFE_KEEP (R246): Waits for a full word and reads it, leaving the tag full. -/
  | ldfeKeep (d : BitVec 6) (a : BitVec 6) (l : BitVec 3)
  /-- STFE (R247): Waits for an empty word, writes it and fills its tag. -/
  | stfe (d : BitVec 6) (a : BitVec 6) (l : BitVec 3)
  /-- FETAG_SETF (R136): Sets full tags of a line, optionally writes its descriptor, and returns the old side band. -/
  | fetagSetf (d : BitVec 6) (a : BitVec 6) (b : BitVec 6)
  /-- FETAG_SETE (R136): Clears tags of a line, optionally writes its descriptor, and returns the old side band. -/
  | fetagSete (d : BitVec 6) (a : BitVec 6) (b : BitVec 6)
  /-- FETAG_PEEK (R136): Returns the side band of a line without change. -/
  | fetagPeek (d : BitVec 6) (a : BitVec 6)
  /-- BZ (R137): Branches when a register is zero. -/
  | bz (x : BitVec 6) (i : BitVec 16)
  /-- BNZ (R137): Branches when a register is nonzero. -/
  | bnz (x : BitVec 6) (i : BitVec 16)
  /-- BLTZ (R137): Branches when a register is negative. -/
  | bltz (x : BitVec 6) (i : BitVec 16)
  /-- BGEZ (R137): Branches when a register is not negative. -/
  | bgez (x : BitVec 6) (i : BitVec 16)
  /-- BGTZ (R137): Branches when a register is positive. -/
  | bgtz (x : BitVec 6) (i : BitVec 16)
  /-- BLEZ (R137): Branches when a register is not positive. -/
  | blez (x : BitVec 6) (i : BitVec 16)
  /-- BCMP (R138): Compares two registers and branches by a 32-bit word offset. -/
  | bcmp (a : BitVec 6) (b : BitVec 6) (c : BitVec 4) (off : BitVec 32)
  /-- J (R139): Jumps by a signed word offset. -/
  | j (i : BitVec 22)
  /-- JAL (R139): Jumps by a signed word offset and writes the link to s63. -/
  | jal (i : BitVec 22)
  /-- JR (R140): Jumps to the address in a register. -/
  | jr (a : BitVec 6)
  /-- JALR (R140): Jumps to the address in a register and writes the link. -/
  | jalr (d : BitVec 6) (a : BitVec 6)
  /-- BWS (R141): Branches when WST equals a given status code. -/
  | bws (c : BitVec 6) (i : BitVec 16)
  /-- BP (R142): Branches on a predicate condition. -/
  | bp (p : BitVec 3) (n : BitVec 3) (i : BitVec 16)
  /-- LOOP (R146): Pushes a counted hardware loop with the count from a register, or skips the body for count 0. -/
  | loop (x : BitVec 6) (e : BitVec 16)
  /-- LOOPI (R147): Pushes a counted hardware loop with an immediate count. -/
  | loopi (e : BitVec 16) (count : BitVec 16)
  /-- LOOPS (R148): Pushes a stream loop on a receive queue and performs its first stream examination. -/
  | loops (q : BitVec 2) (l : BitVec 3) (e : BitVec 16)
  /-- LBRK (R150): Pops the innermost loop and continues after its END. -/
  | lbrk
  /-- MFS (R151): Reads a control register into a scalar register under the access rules of R22. -/
  | mfs (d : BitVec 6) (r : BitVec 10)
  /-- MTS (R151): Writes a scalar register to a control register under the access rules of R22. -/
  | mts (a : BitVec 6) (r : BitVec 10)
  /-- TRAP (R152): Raises a user trap cause 0x40 to 0x7F. -/
  | trap (c : BitVec 7)
  /-- SVC (R153): Raises a service cause, which parks the strand for the supervisor. -/
  | svc (c : BitVec 8)
  /-- RTT (R41): Returns from a trap handler to TPC. -/
  | rtt
  /-- NOP (R154): Has no effect. -/
  | nop
  /-- BRK (R154): Raises BREAKPOINT with SUB 1. -/
  | brk
  /-- TMARK (R155): Places a marker value in the enabled traces. -/
  | tmark (v : BitVec 22)
  /-- RETIRE (R156): Waits for pending tokens, cancels current next fetches and retires the strand. -/
  | retire
  /-- PRND (R56): Prefix that sets the rounding mode and saturation of its instruction. -/
  | prnd (s : BitVec 1) (r : BitVec 3)
  /-- PEXT (R57): Prefix that extends the immediate of its instruction. -/
  | pext (x : BitVec 22)
  /-- PONE (R58): Prefix that makes its load execute once in the elected tile and post the result to the cluster. -/
  | pone
  /-- PONE_RECORD_ARRIVAL (R263): A posted record reaches a tile's post queue, and a waiting PONE unit takes it or faults on a wrong address. -/
  | poneRecordArrival
  /-- VADD (R162): Adds vector elements. -/
  | vadd (d : BitVec 5) (a : BitVec 5) (b : BitVec 5) (p : BitVec 3) (y : BitVec 4)
  /-- VSUB (R162): Subtracts vector elements. -/
  | vsub (d : BitVec 5) (a : BitVec 5) (b : BitVec 5) (p : BitVec 3) (y : BitVec 4)
  /-- VMUL (R162): Multiplies vector elements. -/
  | vmul (d : BitVec 5) (a : BitVec 5) (b : BitVec 5) (p : BitVec 3) (y : BitVec 4)
  /-- VFMA (R162): Computes x × y + z with one rounding. -/
  | vfma (d : BitVec 5) (a : BitVec 5) (b : BitVec 5) (p : BitVec 3) (y : BitVec 4)
  /-- VFMS (R162): Computes x × y − z with one rounding. -/
  | vfms (d : BitVec 5) (a : BitVec 5) (b : BitVec 5) (p : BitVec 3) (y : BitVec 4)
  /-- VFNMA (R162): Computes −(x × y) + z with one rounding. -/
  | vfnma (d : BitVec 5) (a : BitVec 5) (b : BitVec 5) (p : BitVec 3) (y : BitVec 4)
  /-- VMIN (R163): Writes the element-wise minimum. -/
  | vmin (d : BitVec 5) (a : BitVec 5) (b : BitVec 5) (p : BitVec 3) (y : BitVec 4)
  /-- VMAX (R163): Writes the element-wise maximum. -/
  | vmax (d : BitVec 5) (a : BitVec 5) (b : BitVec 5) (p : BitVec 3) (y : BitVec 4)
  /-- VABS (R164): Writes the element-wise absolute value. -/
  | vabs (d : BitVec 5) (a : BitVec 5) (p : BitVec 3) (y : BitVec 4)
  /-- VNEG (R164): Writes the element-wise negation. -/
  | vneg (d : BitVec 5) (a : BitVec 5) (p : BitVec 3) (y : BitVec 4)
  /-- VDIV (R165): Divides floating vector elements. -/
  | vdiv (d : BitVec 5) (a : BitVec 5) (b : BitVec 5) (p : BitVec 3) (y : BitVec 4)
  /-- VSQRT (R164): Writes the element-wise square root. -/
  | vsqrt (d : BitVec 5) (a : BitVec 5) (p : BitVec 3) (y : BitVec 4)
  /-- VAND (R166): Bytewise AND of two vectors. -/
  | vand (d : BitVec 5) (a : BitVec 5) (b : BitVec 5) (p : BitVec 3)
  /-- VOR (R166): Bytewise OR of two vectors. -/
  | vor (d : BitVec 5) (a : BitVec 5) (b : BitVec 5) (p : BitVec 3)
  /-- VXOR (R166): Bytewise XOR of two vectors. -/
  | vxor (d : BitVec 5) (a : BitVec 5) (b : BitVec 5) (p : BitVec 3)
  /-- VANDN (R166): Bytewise AND NOT of two vectors. -/
  | vandn (d : BitVec 5) (a : BitVec 5) (b : BitVec 5) (p : BitVec 3)
  /-- VSHL (R167): Shifts elements left by per-element amounts. -/
  | vshl (d : BitVec 5) (a : BitVec 5) (b : BitVec 5) (p : BitVec 3) (y : BitVec 4)
  /-- VSHR (R167): Shifts elements right logically by per-element amounts. -/
  | vshr (d : BitVec 5) (a : BitVec 5) (b : BitVec 5) (p : BitVec 3) (y : BitVec 4)
  /-- VSRA (R167): Shifts elements right arithmetically by per-element amounts. -/
  | vsra (d : BitVec 5) (a : BitVec 5) (b : BitVec 5) (p : BitVec 3) (y : BitVec 4)
  /-- VOPS (R168): Applies a space-B vector operation with a broadcast scalar second operand. -/
  | vops (d : BitVec 5) (a : BitVec 5) (p : BitVec 3) (y : BitVec 4) (op : BitVec 7) (n : BitVec 6)
  /-- VCMP (R169): Compares elements and writes a predicate. -/
  | vcmp (q : BitVec 3) (a : BitVec 5) (b : BitVec 5) (c : BitVec 3) (y : BitVec 4)
  /-- VSEL (R170): Selects bytes from two vectors under a predicate. -/
  | vsel (d : BitVec 5) (a : BitVec 5) (b : BitVec 5) (p : BitVec 3)
  /-- VCVT (R171): Converts elements between types. -/
  | vcvt (d : BitVec 5) (a : BitVec 5) (s : BitVec 4) (p : BitVec 3) (y : BitVec 4)
  /-- VBCAST (R172): Broadcasts a scalar into every active element. -/
  | vbcast (x : BitVec 5) (b : BitVec 6) (p : BitVec 3) (z : BitVec 2)
  /-- VEXT (R173): Extracts one vector element into a scalar register. -/
  | vext (x : BitVec 5) (b : BitVec 6) (z : BitVec 2) (i : BitVec 6)
  /-- VINS (R173): Inserts a scalar into one vector element. -/
  | vins (x : BitVec 5) (b : BitVec 6) (z : BitVec 2) (i : BitVec 6)
  /-- VPERM (R174): Permutes elements by an index vector. -/
  | vperm (d : BitVec 5) (a : BitVec 5) (b : BitVec 5) (p : BitVec 3) (y : BitVec 4)
  /-- VREDSUM (R175): Reduces elements by a fixed-tree sum into element 0. -/
  | vredsum (d : BitVec 5) (a : BitVec 5) (p : BitVec 3) (y : BitVec 4)
  /-- VREDMAX (R175): Reduces elements by maximum into element 0. -/
  | vredmax (d : BitVec 5) (a : BitVec 5) (p : BitVec 3) (y : BitVec 4)
  /-- VREDMIN (R175): Reduces elements by minimum into element 0. -/
  | vredmin (d : BitVec 5) (a : BitVec 5) (p : BitVec 3) (y : BitVec 4)
  /-- VLD (R176): Loads active bytes of a local line into a vector. -/
  | vld (x : BitVec 5) (b : BitVec 6) (p : BitVec 3) (i : BitVec 8)
  /-- VST (R176): Stores active bytes of a vector into a local line. -/
  | vst (x : BitVec 5) (b : BitVec 6) (p : BitVec 3) (i : BitVec 8)
  /-- VLDB (R178): Loads packed bit fields into vector lanes. -/
  | vldb (x : BitVec 5) (b : BitVec 6) (p : BitVec 3) (z : BitVec 2) (e : BitVec 1) (f : BitVec 5)
  /-- VSTB (R178): Stores vector lanes as packed bit fields. -/
  | vstb (x : BitVec 5) (b : BitVec 6) (p : BitVec 3) (z : BitVec 2) (f : BitVec 5)
  /-- VGATH (R179): Gathers elements from local addresses indexed by a vector. -/
  | vgath (x : BitVec 5) (b : BitVec 6) (p : BitVec 3) (z : BitVec 2) (i : BitVec 5)
  /-- VSCAT (R179): Scatters elements to local addresses indexed by a vector. -/
  | vscat (x : BitVec 5) (b : BitVec 6) (p : BitVec 3) (z : BitVec 2) (i : BitVec 5)
  /-- VLDD (R177): Loads a described line and its descriptor into a vector and a predicate. -/
  | vldd (x : BitVec 5) (b : BitVec 6) (p : BitVec 3) (i : BitVec 8)
  /-- VSTD (R177): Stores a whole line with the descriptor held in a predicate. -/
  | vstd (x : BitVec 5) (b : BitVec 6) (p : BitVec 3) (i : BitVec 8)
  /-- PLOG_AND (R181): ANDs two predicates. -/
  | plogAnd (d : BitVec 3) (a : BitVec 3) (b : BitVec 3)
  /-- PLOG_OR (R181): ORs two predicates. -/
  | plogOr (d : BitVec 3) (a : BitVec 3) (b : BitVec 3)
  /-- PLOG_XOR (R181): XORs two predicates. -/
  | plogXor (d : BitVec 3) (a : BitVec 3) (b : BitVec 3)
  /-- PLOG_ANDN (R181): ANDs a predicate with the complement of another. -/
  | plogAndn (d : BitVec 3) (a : BitVec 3) (b : BitVec 3)
  /-- PLOG_NOT (R181): Complements a predicate. -/
  | plogNot (d : BitVec 3) (a : BitVec 3)
  /-- PMOV (R182): Copies one predicate to another. -/
  | pmov (d : BitVec 3) (a : BitVec 3)
  /-- PMOV_FROM (R182): Copies a scalar register into a predicate. -/
  | pmovFrom (d : BitVec 3) (s : BitVec 6)
  /-- PMOV_TO (R182): Copies a predicate into a scalar register. -/
  | pmovTo (a : BitVec 3) (s : BitVec 6)
  /-- PCNT (R183): Counts the one bits of a predicate. -/
  | pcnt (a : BitVec 3) (s : BitVec 6)
  /-- ZACC (R202): Sets an accumulator's anchor and zeroes every element. -/
  | zacc (c : BitVec 3) (x : BitVec 6)
  /-- MMA (R191): Checks descriptors, locks operands, sets its token PENDING and queues a matrix product. -/
  | mma (c : BitVec 3) (a : BitVec 3) (b : BitVec 3) (k : BitVec 4)
  /-- MMA_KBLOCK (R194): The matrix unit finishes running one k-block of an MMA: it checks, shadows and adds it, and ends the MMA after the last block or a fault. -/
  | mmaKblock
  /-- ACCRD (R205): Reads one accumulator row out as f32 lanes. -/
  | accrd (c : BitVec 3) (d : BitVec 5) (r : BitVec 4) (o : BitVec 1)
  /-- ACCST (R206): Quantises accumulator rows into described local lines. -/
  | accst (c : BitVec 3) (b : BitVec 6) (y : BitVec 4) (r : BitVec 4) (n : BitVec 4) (o : BitVec 1)
  /-- ACCLD (R209): Restores an accumulator from a raw image in local memory. -/
  | accld (c : BitVec 3) (b : BitVec 6)
  /-- ACCSV (R208): Saves an accumulator as a raw image in local memory. -/
  | accsv (c : BitVec 3) (b : BitVec 6) (o : BitVec 1)
  /-- ACCADD (R204): Adds one accumulator into another of equal anchor. -/
  | accadd (c : BitVec 3) (s : BitVec 3)
  /-- ACCANCH (R203): Changes an accumulator's anchor, rounding each element once. -/
  | accanch (c : BitVec 3) (x : BitVec 6)
  /-- CBLD (R210): Loads a codebook register and sets the product-table pair. -/
  | cbld (c : BitVec 2) (b : BitVec 6) (ta : BitVec 2) (tb : BitVec 2)
  /-- LDD (R211): Loads a 32-byte descriptor register from local memory. -/
  | ldd (d : BitVec 3) (b : BitVec 6) (i : BitVec 8)
  /-- SETD (R212): Writes one 64-bit quarter of a descriptor register. -/
  | setd (d : BitVec 3) (a : BitVec 6) (n : BitVec 4)
  /-- KWAIT (R241): Waits until a token is not PENDING and returns its status. -/
  | kwait (d : BitVec 6) (l : BitVec 3) (k : BitVec 4)
  /-- KWANY (R242): Waits until any token in a mask is not PENDING and returns its number. -/
  | kwany (d : BitVec 6) (a : BitVec 6) (l : BitVec 3)
  /-- WAITC (R245): Waits until the strand's outstanding engine and MMA counts fall within limits. -/
  | waitc (l : BitVec 3) (nt : BitVec 8) (nc : BitVec 8) (ns : BitVec 8) (nl : BitVec 8)
  /-- FENCE (R250): Waits until the outstanding writes and deltas of its scope are zero. -/
  | fence (d : BitVec 6) (l : BitVec 3) (s : BitVec 2)
  /-- REALIGN (R259): Waits until every named strand of the cluster is present at the same address. -/
  | realign (d : BitVec 6) (a : BitVec 6) (l : BitVec 3)
  /-- SETDL (R251): Sets DLA to the clock plus an offset. -/
  | setdl (a : BitVec 6)
  /-- NOW (R252): Reads the context tick clock. -/
  | now (d : BitVec 6)
  /-- CBAR (R310): Waits for OAK and engine work, arrives at the commit barrier with an operator value and waits for its outcome. -/
  | cbar (d : BitVec 6) (a : BitVec 6) (l : BitVec 3) (k : BitVec 1) (o : BitVec 3)
  /-- ABORTV (R306): Sets the tile's vote to abort with a software code. -/
  | abortv (c : BitVec 16)
  /-- IRREV (R279): Discards the tile's pre-images and stops logging for the rest of the superstep. -/
  | irrev
  /-- RST (R289): Sends a remote store delta to a tile. -/
  | rst (d : BitVec 6) (a : BitVec 6) (n : BitVec 2)
  /-- VRST (R290): Sends a remote line store delta of the active bytes. -/
  | vrst (x : BitVec 5) (b : BitVec 6) (p : BitVec 3) (i : BitVec 8)
  /-- RRED (R291): Sends a remote or push reduction delta. -/
  | rred (d : BitVec 6) (a : BitVec 6) (f : BitVec 4)
  /-- VRRED (R292): Sends a remote or push vector reduction delta of the active elements. -/
  | vrred (x : BitVec 5) (b : BitVec 6) (p : BitVec 3) (o : BitVec 3) (y : BitVec 4)
  /-- MSEND (R296): Sends a data message delta to one tile's queue. -/
  | msend (d : BitVec 6) (a : BitVec 6) (b : BitVec 6) (q : BitVec 2)
  /-- MSEND_EOS (R296): Sends an end-of-stream message delta to one tile's queue. -/
  | msendEos (a : BitVec 6) (q : BitVec 2)
  /-- MSENDG (R296): Sends a data message delta to every member of a group. -/
  | msendg (d : BitVec 6) (a : BitVec 6) (b : BitVec 6) (q : BitVec 2)
  /-- MSENDG_EOS (R296): Sends an end-of-stream message delta to every member of a group. -/
  | msendgEos (a : BitVec 6) (q : BitVec 2)
  /-- MRECV (R297): Waits for a record on a receive ring and returns its header address. -/
  | mrecv (d : BitVec 6) (l : BitVec 3) (q : BitVec 2)
  /-- LDG (R339): Reads committed global memory into a scalar register under a deadline. -/
  | ldg (d : BitVec 6) (a : BitVec 6) (l : BitVec 3) (y : BitVec 3)
  /-- STG (R341): Sends a global store delta. -/
  | stg (d : BitVec 6) (a : BitVec 6) (n : BitVec 2)
  /-- REDG (R341): Sends a global reduction delta. -/
  | redg (d : BitVec 6) (a : BitVec 6) (f : BitVec 4)
  /-- VLDG (R340): Reads a committed global line into a vector under a deadline. -/
  | vldg (d : BitVec 5) (a : BitVec 6) (l : BitVec 3)
  /-- VSTG (R342): Scatters vector elements as global store deltas, lane by lane. -/
  | vstg (x : BitVec 5) (b : BitVec 6) (p : BitVec 3) (z : BitVec 2)
  /-- VREDG (R342): Scatters vector elements as global reduction deltas, lane by lane. -/
  | vredg (x : BitVec 5) (b : BitVec 6) (p : BitVec 3) (f : BitVec 4)
  /-- FETCHL (R372): Starts a now fetch of a list of global lines into a local span. -/
  | fetchl (a : BitVec 3) (k : BitVec 4) (g : BitVec 1)
  /-- FETCHL_NEXT (R380): Starts a fetch that stages data for the next superstep. -/
  | fetchlNext (a : BitVec 3) (k : BitVec 4) (g : BitVec 1)
  /-- WBL (R378): Starts a write-back of a local span as global store deltas. -/
  | wbl (a : BitVec 3) (k : BitVec 4)
  /-- COPY (R377): Starts a copy of local lines within local memory. -/
  | copy (a : BitVec 3) (k : BitVec 4) (g : BitVec 1)
  /-- COPY_G (R377): Starts a copy of committed global lines into local memory. -/
  | copyG (a : BitVec 3) (k : BitVec 4) (g : BitVec 1)
  /-- COLL (R393): Locks the ranges, sets the token and sends a collective request delta to Axlos. -/
  | coll (a : BitVec 3) (k : BitVec 4)
  /-- RLSTAT_LOCK (R385): Returns the lock word for an address. -/
  | rlstatLock (d : BitVec 6) (a : BitVec 6)
  /-- RLSTAT_PROG (R385): Returns the progress word of a token's engine operation. -/
  | rlstatProg (d : BitVec 6) (k : BitVec 4)
  /-- RLSTAT_FADDR (R385): Returns the faulting address of a token's engine operation. -/
  | rlstatFaddr (d : BitVec 6) (k : BitVec 4)
  /-- NEXTT (R272): Returns the address of the next schedule-table entry or EOS. -/
  | nextt (d : BitVec 6)
  /-- PRIO (R273): Sets the strand's priority class and communication flag. -/
  | prio (c : BitVec 1) (p : BitVec 2)
  /-- PROFRD (R521): Reads a latency account. -/
  | profrd (d : BitVec 6) (a : BitVec 6)
  /-- PROFRD_CLR (R521): Reads and clears a latency account indivisibly. -/
  | profrdClr (d : BitVec 6) (a : BitVec 6)
  /-- LAUNCH (R484): Allocates a context number and its Axlos state from a launch block. -/
  | launch (d : BitVec 6) (a : BitVec 6) (b : BitVec 6) (k : BitVec 4)
  /-- BIND_BIND (R484): Binds a physical cluster into a context's partition. -/
  | bindBind (d : BitVec 6) (a : BitVec 6) (b : BitVec 6) (k : BitVec 4)
  /-- BIND_UNBIND (R484): Unbinds a cluster, making its strands IDLE. -/
  | bindUnbind (d : BitVec 6) (a : BitVec 6) (k : BitVec 4)
  /-- BIND_FENCE (R484): Sets the fence of a cluster. -/
  | bindFence (d : BitVec 6) (a : BitVec 6) (k : BitVec 4)
  /-- BIND_UNFENCE (R484): Clears the fence of a cluster. -/
  | bindUnfence (d : BitVec 6) (a : BitVec 6) (k : BitVec 4)
  /-- TMAP_MAP (R484): Maps a virtual cluster to a physical cluster in every interface of the system scope. -/
  | tmapMap (d : BitVec 6) (a : BitVec 6) (b : BitVec 6) (k : BitVec 4)
  /-- TMAP_INVAL (R484): Invalidates translation and walk cache entries of a context or page. -/
  | tmapInval (d : BitVec 6) (a : BitVec 6) (b : BitVec 6) (k : BitVec 4)
  /-- TMAP_GROUP (R484): Writes a group entry and the GRPM of its members. -/
  | tmapGroup (d : BitVec 6) (a : BitVec 6) (b : BitVec 6) (k : BitVec 4)
  /-- CODEST_CODE (R484): Stores a code image into a cluster's instruction store and sets CLIM. -/
  | codestCode (d : BitVec 6) (a : BitVec 6) (b : BitVec 6) (k : BitVec 4)
  /-- CODEST_LOCAL (R484): Writes bytes into the local memory of selected tiles. -/
  | codestLocal (d : BitVec 6) (a : BitVec 6) (b : BitVec 6) (k : BitVec 4)
  /-- CODEST_REG (R484): Writes a register in selected tiles and strands. -/
  | codestReg (d : BitVec 6) (a : BitVec 6) (b : BitVec 6) (k : BitVec 4)
  /-- CODEST_CHUNK (R484): Writes the chunk-program store. -/
  | codestChunk (d : BitVec 6) (a : BitVec 6) (b : BitVec 6) (k : BitVec 4)
  /-- CODEST_PTAB (R388): Writes one program-table entry. -/
  | codestPtab (d : BitVec 6) (a : BitVec 6) (b : BitVec 6) (k : BitVec 4)
  /-- START_LAUNCH (R485): Builds the tree and starts every cluster of a context at TICK 0. -/
  | startLaunch (d : BitVec 6) (a : BitVec 6) (k : BitVec 4)
  /-- START_RESUME (R485): Releases a held context after checking every tile's superstep number. -/
  | startResume (d : BitVec 6) (a : BitVec 6) (b : BitVec 6) (k : BitVec 4)
  /-- START_STRAND (R487): Resumes one parked strand at TPC, an address or its escalation continuation. -/
  | startStrand (d : BitVec 6) (a : BitVec 6) (b : BitVec 6) (k : BitVec 4)
  /-- QUIESCE_REQUEST (R446): Sets the pre-emption request of a context at its root. -/
  | quiesceRequest (d : BitVec 6) (a : BitVec 6) (k : BitVec 4)
  /-- QUIESCE_CKPT (R462): Sets a checkpoint request at the root. -/
  | quiesceCkpt (d : BitVec 6) (a : BitVec 6) (k : BitVec 4)
  /-- QUIESCE_CANCEL (R484): Clears the pre-emption request. -/
  | quiesceCancel (d : BitVec 6) (a : BitVec 6) (k : BitVec 4)
  /-- QUIESCE_PARK (R484): Parks every remaining strand of a context and runs Lull. -/
  | quiescePark (d : BitVec 6) (a : BitVec 6) (k : BitVec 4)
  /-- IMGMV_SAVE (R451): Writes a tile's image to global memory. -/
  | imgmvSave (d : BitVec 6) (a : BitVec 6) (b : BitVec 6) (k : BitVec 4)
  /-- IMGMV_RESTORE (R457): Writes an image into a tile. -/
  | imgmvRestore (d : BitVec 6) (a : BitVec 6) (b : BitVec 6) (k : BitVec 4)
  /-- IMGMV_MOVE (R460): Copies a tile's image directly to a target tile. -/
  | imgmvMove (d : BitVec 6) (a : BitVec 6) (b : BitVec 6) (k : BitVec 4)
  /-- KEYLD (R484): Loads an XTS key slot in every base die of the module for a context. -/
  | keyld (d : BitVec 6) (a : BitVec 6) (b : BitVec 6) (k : BitVec 4)
  /-- KEYZ (R484): Zeroes and frees every key slot of a context. -/
  | keyz (d : BitVec 6) (a : BitVec 6) (k : BitVec 4)
  /-- SCRUB_CLUSTER (R497): Quarantines and resets a cluster to the state of R20 with a zero instruction store. -/
  | scrubCluster (d : BitVec 6) (a : BitVec 6) (k : BitVec 4)
  /-- SCRUB_PAGES (R497): Quarantines and zeroes a run of 64 KiB pages. -/
  | scrubPages (d : BitVec 6) (a : BitVec 6) (b : BitVec 6) (k : BitVec 4)
  /-- FORCEAB (R445): Makes the root decide ABORT with cause FORCED and HOLD at once. -/
  | forceab (d : BitVec 6) (a : BitVec 6) (k : BitVec 4)
  /-- DUMP_LOG (R522): Appends a die's error log section to the dump region. -/
  | dumpLog (d : BitVec 6) (a : BitVec 6) (b : BitVec 6) (k : BitVec 4)
  /-- DUMP_CTX (R522): Appends a context's images as they stand to the dump region. -/
  | dumpCtx (d : BitVec 6) (a : BitVec 6) (b : BitVec 6) (k : BitVec 4)
  /-- DUMP_TRACE (R522): Appends a die's issue trace to the dump region. -/
  | dumpTrace (d : BitVec 6) (a : BitVec 6) (b : BitVec 6) (k : BitVec 4)
  /-- SUPERVISOR_OP_COMPLETE (R482): A supervisor operation ends and sets its token with its status. -/
  | supervisorOpComplete
  /-- CHUNK_NOP (R403): Chunk instruction with no effect. -/
  | chunkNop
  /-- SEND (R404): Posts a transfer of window bytes to a peer rank's thread. -/
  | send
  /-- RECV (R404): Waits for a paired transfer to be written into the window. -/
  | recv
  /-- REDUCE (R406): Combines two window areas element by element. -/
  | reduce
  /-- CHUNK_COPY (R406): Copies bytes within the thread's window. -/
  | chunkCopy
  /-- WAIT_SIG (R405): Waits until a signal counter reaches a threshold. -/
  | waitSig
  /-- WAIT_ARM (R405): Waits until a push slot is complete. -/
  | waitArm
  /-- GATHER (R408): Copies a member's contribution range into the window. -/
  | gather
  /-- DELIVER (R408): Writes window bytes into a member's landing range. -/
  | deliver
  /-- ARMRED (R412): Arms a push slot over group offsets and initialises its window bytes. -/
  | armred
  /-- MCAST (R408): Delivers window bytes to every member of the thread's rank. -/
  | mcast
  /-- SETG (R403): Writes a sign-extended immediate into a chunk register. -/
  | setg
  /-- SETGH (R403): Writes an immediate into the high half of a chunk register. -/
  | setgh
  /-- MOVG (R403): Copies one chunk register to another. -/
  | movg
  /-- ADDG (R403): Adds a signed immediate to a chunk register. -/
  | addg
  /-- ADDGR (R403): Adds two chunk registers. -/
  | addgr
  /-- SUBGR (R403): Subtracts two chunk registers. -/
  | subgr
  /-- MULGR (R403): Multiplies two chunk registers. -/
  | mulgr
  /-- REMGR (R403): Takes the unsigned remainder of two chunk registers. -/
  | remgr
  /-- BNZG (R403): Branches when a chunk register is nonzero. -/
  | bnzg
  /-- LOOPG (R403): Decrements a chunk register and branches while it is nonzero. -/
  | loopg
  /-- SIGNAL (R405): Posts an increment to a peer thread's signal counter. -/
  | signal
  /-- HALT (R410): Ends the thread once its posted operations are complete. -/
  | halt
  /-- ABORTC (R409): Faults the thread with a software code. -/
  | abortc
  /-- FENCEC (R409): Waits until every posted SEND and SIGNAL of the thread is complete. -/
  | fencec
  /-- CHUNK_WAIT_MET (R401): The condition of a waiting chunk instruction is met and the thread continues with OK. -/
  | chunkWaitMet
  /-- CHUNK_WAIT_EXPIRY (R401): A chunk wait's deadline expires, entering the timeout handler or faulting the thread. -/
  | chunkWaitExpiry
  /-- CHUNK_BOUND_EXPIRY (R410): The DT7 bound of a thread start, SIGNAL or HALT expires and the thread faults. -/
  | chunkBoundExpiry
  /-- CHUNK_TRANSFER_COMPLETE (R404): A paired SEND–RECV transfer is written at the receiver and acknowledged. -/
  | chunkTransferComplete
  /-- SIGNAL_APPLY (R405): A posted signal increment is applied to the peer's counter. -/
  | signalApply
  /-- THREAD_START (R396): A rank's sequencer gets a thread and buffers for a triggered instance, initialises it and starts it at BASE. -/
  | threadStart
  /-- COLL_REQUEST_ARRIVAL (R394): A COLL request delta reaches Axlos and is placed or refused. -/
  | collRequestArrival
  /-- PUSH_DELTA_ARRIVAL (R413): A push delta reaches the rank holding the slot and is placed, held unplaced or refused. -/
  | pushDeltaArrival
  /-- ABORT_TOKEN (R411): An abort token reaches the context's root, which decides the open superstep FATAL. -/
  | abortToken
  /-- WAIT_MET (R232): The condition of a waiting strand instruction becomes true, and it ends with its effects on MET. -/
  | waitMet
  /-- WAIT_TIMEOUT (R232): A strand wait's deadline expires and the instruction ends with TIMEOUT. -/
  | waitTimeout
  /-- IMPLICIT_DEADLINE (R234): An unnamed stall expires under DT7 and the stalled instruction traps. -/
  | implicitDeadline
  /-- FETCH_BLOCK_SERVED (R257): The cluster fetch port serves the oldest request and delivers the block to every strand requesting it. -/
  | fetchBlockServed
  /-- CBAR_DEADLINE_EXPIRY (R308): An arrived strand's barrier deadline expires, ending it WITHDRAWN or starting a withdrawal. -/
  | cbarDeadlineExpiry
  /-- TREE_ARRIVE (R301): An ARRIVE reaches a tree node, which combines arrivals and forwards or decides. -/
  | treeArrive
  /-- TREE_WITHDRAW (R302): A WITHDRAW reaches a node, which removes the arrival or passes it on. -/
  | treeWithdraw
  /-- TREE_WCONF (R302): A WCONF reaches a tile or node and the withdrawn arrivals are removed. -/
  | treeWconf
  /-- TREE_DECIDE (R304): A DECIDE reaches a node or tile and is passed on or acted upon. -/
  | treeDecide
  /-- DELTA_ARRIVAL (R283): A delta reaches its destination tile and is placed, dropped or refused. -/
  | deltaArrival
  /-- GLOBAL_DELTA_ARRIVAL (R334): A global delta reaches its base die and is placed in the tentative buffer or refused. -/
  | globalDeltaArrival
  /-- DELTA_ACKNOWLEDGEMENT (R285): An acknowledgement reaches the sender and decrements its OAK count. -/
  | deltaAcknowledgement
  /-- DELTA_REFUSAL (R285): A refusal reaches the sender, marks a pending refusal and votes abort. -/
  | deltaRefusal
  /-- BASE_DIE_COMMIT (R335): A DECIDE reaches a base die, which applies or discards the context's placed deltas and synced host writes. -/
  | baseDieCommit
  /-- ARRAY_ACKNOWLEDGEMENT (R336): A base die's array acknowledgement reaches the root. -/
  | arrayAcknowledgement
  /-- CHECKPOINT_CAPTURE_DONE (R463): A tile finishes capturing its checkpoint image lines in the background. -/
  | checkpointCaptureDone
  /-- PAGE_WALK_COMPLETE (R330): A page-table walk finishes with a translation or a fault and fills the caches. -/
  | pageWalkComplete
  /-- GLOBAL_READ_RESPONSE (R339): Committed data or poison for a global read reaches the tile. -/
  | globalReadResponse
  /-- ENGINE_LINE_ARRIVAL (R375): A global line for a FETCHL or COPY arrives and is written to its local line with descriptor and tags. -/
  | engineLineArrival
  /-- ENGINE_LOCAL_LINE (R378): The engine captures or copies one local line, sending WBL deltas or writing the destination. -/
  | engineLocalLine
  /-- REFETCH_REPORT (R381): A base die reports a committed line that a pending next fetch must read again. -/
  | refetchReport
  /-- HOST_READ (R358): The host reads a host-shared page or device address through the attach. -/
  | hostRead
  /-- HOST_WRITE (R359): A host write enters the context's host-write log or is refused. -/
  | hostWrite
  /-- LAUNCH_REQUEST (R491): Mailbox request that launches a context from staged images. -/
  | launchRequest
  /-- HOST_SYNC (R360): Mailbox request that syncs the logged host writes for the next commit. -/
  | hostSync
  /-- RECORD (R491): Mailbox request that appends a host record to a tile's receive ring. -/
  | record
  /-- PREEMPT (R491): Mailbox request to pre-empt a context. -/
  | preempt
  /-- RESUME_REQUEST (R491): Mailbox request to resume a pre-empted context. -/
  | resumeRequest
  /-- TEARDOWN (R496): Mailbox request to tear a context down. -/
  | teardown
  /-- ATTEST (R495): Mailbox request for a signed attestation report. -/
  | attest
  /-- KEYS (R494): Mailbox request to enrol or remove the owner key. -/
  | keys
  /-- RECOVER (R529): Mailbox request to reset into the recovery image. -/
  | recover
  /-- WRITE_SLOT (R529): Recovery request to verify and write a flash slot. -/
  | writeSlot
  /-- REBOOT (R529): Recovery request that resets the module. -/
  | reboot
  /-- EVENT_DELIVERY (R479): A held supervisor event is appended to its ring when room appears. -/
  | eventDelivery
  /-- PLIM_EXPIRY (R447): The pre-emption limit expires without a decision and a forced abort follows. -/
  | plimExpiry
  /-- LULL_REPORT (R450): Lull reports that every engine class of a context has quiesced. -/
  | lullReport
  /-- SCRUB_COMPLETE (R497): A scrub operation finishes and lifts the quarantine of its resources. -/
  | scrubComplete
  /-- SCRUB_RESTART (R498): After reset, the scrub engine restarts a listed scrub once its island or quadrant is ready. -/
  | scrubRestart
  /-- SCRUB_LINE (R430): Background scrubbing reads and corrects one line every 4,096 cy. -/
  | scrubLine
  /-- ERROR_WINDOW_END (R439): An error-count window ends and COUNT returns to 0. -/
  | errorWindowEnd
  /-- LINK_CRC_FAILURE (R435): A flit fails its CRC and is replayed, failing the link after 8 consecutive replays. -/
  | linkCrcFailure
  /-- LINK_LOCK_LOSS (R435): A link that has lost lane lock for 64 tk is marked down. -/
  | linkLockLoss
  /-- TREE_ROUTE_TIMEOUT (R437): A tree node that cannot reach its parent for 1,000,000 tk has its context parked for restore. -/
  | treeRouteTimeout
  /-- ISLAND_POWER_LOSS (R499): An island loses supply or clock, its tiles stop with lost state and ISLAND_DOWN is sent. -/
  | islandPowerLoss
  /-- THERMAL_THROTTLE (R532): An island reaching 105 °C is lowered one operating point. -/
  | thermalThrottle
  /-- THERMAL_RECOVER (R532): After 100 ms below 95 °C an island is raised again toward its request. -/
  | thermalRecover
  /-- THERMAL_SHUTDOWN (R532): An island at OP0 reaching 115 °C is turned off. -/
  | thermalShutdown
  /-- LOW_COOLANT_FLOW (R533): Coolant flow below the minimum holds every island at OP0. -/
  | lowCoolantFlow
  /-- MODULE_RESET (R524): Module reset starts bring-up from the always-on domain through the boot ROM. -/
  | moduleReset
  /-- STACK_TRAINING_DONE (R525): A stack finishes training or fails, and its quadrant may enter service. -/
  | stackTrainingDone
  /-- ISLCTL_WRITE (R531): A write to ISLCTL requests an operating-point transition of one island. -/
  | islctlWrite
  /-- ISLAND_TRANSITION_DONE (R531): An island's operating-point transition completes. -/
  | islandTransitionDone
  /-- HREF_WRITE (R480): A write-one-to-clear write to HREF. -/
  | hrefWrite
  /-- DROPD_WRITE (R514): A write-one-to-clear write to the dropped-delta counter. -/
  | dropdWrite
  /-- DCTL_HALT (R506): Writing HALT stops the tile's strands and the context clock. -/
  | dctlHalt
  /-- DCTL_RESUME (R506): Writing RESUME returns every strand to its state before the halt and runs any held decision. -/
  | dctlResume
  /-- DCTL_STEP (R509): Writing STEP makes named strands issue one unit and halt again. -/
  | dctlStep
  /-- HALT_REQUEST (R507): A halt request from a tile with XOUT reaches a tile with XIN, which halts. -/
  | haltRequest
  /-- DACC_READ (R512): Debug access that reads a register, accumulator, token or local word of a halted tile. -/
  | daccRead
  /-- DACC_WRITE (R512): Debug access that writes state of a halted tile. -/
  | daccWrite
  /-- DACC_WAIT_TOKEN (R512): Debug access that waits until a token is not PENDING. -/
  | daccWaitToken
  /-- DACC_WAIT_TIMEOUT (R512): A debug token wait ends after its timeout with ST TIMEOUT. -/
  | daccWaitTimeout
  /-- ITCTL_WRITE (R518): A write to ITCTL selects a cluster and arms the issue trace. -/
  | itctlWrite
  /-- ISSUE_TRACE_STOP (R518): The post-trigger record count runs out, recording stops and DONE is set. -/
  | issueTraceStop
  /-- REGISTER_WRITE (R9): A write to a supervisor or debug register with no behaviour of its own. -/
  | registerWrite
  /-- EGRESS_QUEUE_CHANGE (R225): The context's Axlos egress queue crosses its low-water mark, and the change reaches RAISED in every tile of the context within 256 cy. -/
  | egressQueueChange
  /-- CONTEXT_CLOCK_STOP (R228): The context tick clock stops in every tile at the agreed tick value, up to 64 tk after a debug halt or hold. -/
  | contextClockStop
  /-- LANE_LOCK_LOST (R435): A link receiver loses lane lock, starting the 64 tk count toward a link failure. -/
  | laneLockLost
  /-- LANE_LOCK_REGAINED (R435): A link receiver regains lane lock, which ends the count or lets a down link return to service. -/
  | laneLockRegained
  /-- BTCTL_WRITE (R515): A write to BTCTL that clears EN writes the partial branch-trace line, padded with zero records. -/
  | btctlWrite
  /-- SELF_TEST_COMPLETE (R527): Self-test of an island ends, naming failing parts by location code and letting the passing clusters be released. -/
  | selfTestComplete
  /-- COOLANT_FLOW_RESTORED (R533): Coolant flow rises back to the minimum, and the power controller stops holding the islands at OP0. -/
  | coolantFlowRestored
deriving DecidableEq, Repr

end Sys2Proof
end

