-- ==== Sys2Proof/Machine/State.lean ====
section
/-! DEFINITION. The state of the machine as plain data, and the machine right after reset. Every agent the spec names has
its state here: strands and tiles, clusters, dies, modules with their memory, base dies, sequencer and supervisor registers,
contexts with their trees, messages in flight. Which agent moves next is data too (agenda, log entry 1). -/
namespace Sys2Proof.Machine

/-- A finite map by number, rising in its keys; a key not listed holds the element's reset value. -/
abbrev SMap (α : Type) := List (Nat × α)

/-- A memory: the cells whose byte is not 0, rising in their addresses; an unlisted address reads as 0 (R20, R62; log
entry 3 where the spec gives no reset contents). -/
abbrev Memory := List Host.Cell

/-- STAT.ST (R26, R34). -/
inductive StrandSt where
  | idle | run | wait | park | halt | retired
deriving DecidableEq, Repr

/-- The state of a completion token (R239). -/
inductive TokSt where
  | clear | pending | set
deriving DecidableEq, Repr

/-- Which instruction last took a token (R239, R245, R385). -/
inductive TokUse where
  | none | mma | fetchl | fetchNext | wbl | copy | coll | supervisor
deriving DecidableEq, Repr

/-- A completion token with the progress word of the last engine operation that took it (R239, R385). -/
structure Token where
  st     : TokSt := .clear
  status : BitVec 8 := 0
  use    : TokUse := .none
  /-- the superstep in which the operation was issued (R383, R384) -/
  step   : Nat := 0
  done   : BitVec 9 := 0
  cause  : BitVec 8 := 0
  sub    : BitVec 8 := 0
  faddr  : BitVec 64 := 0
deriving DecidableEq, Repr

/-- A prefix of the unit being executed (R55). -/
inductive Pfx where
  | prnd (sat : Bool) (rm : BitVec 3)
  | pext (x : BitVec 22)
  | pone
deriving DecidableEq, Repr

/-- What a strand in WAIT waits for (R34, R232, R234). -/
inductive WaitKind where
  /-- a waiting instruction under its deadline (R232); with the stream examination that follows a completed unit (R148)
  the instruction recorded is the LOOPS form of the innermost entry -/
  | named (dl : BitVec 3) (deadline : BitVec 48)
  /-- a stall bounded by DT7 (R234), with its SUB and TVAL -/
  | stall (sub : BitVec 8) (tval : BitVec 64) (t0 : BitVec 48)
  /-- a stream examination after the completion of a loop body's unit (R148) -/
  | exam (dl : BitVec 3) (deadline : BitVec 48)
  /-- arrived at the barrier, waiting for the outcome of R308 -/
  | barrier
  /-- a trap under ABORT: waits for the barrier's decision (R38) -/
  | aborted
deriving DecidableEq, Repr

/-- The wait of a strand in WAIT. -/
structure WaitRec where
  kind  : WaitKind
  instr : Instr
  pfx   : List Pfx
  /-- the cycle in which the wait began (R248) -/
  since : Nat
  /-- the deadline has been found expired by the step that ends the wait (R232) -/
  expire : Bool := false
deriving DecidableEq, Repr

/-- A stall that has begun at a unit, kept while the unit is retried (R234). -/
structure StallRec where
  pc  : BitVec 16
  sub : BitVec 8
  t0  : BitVec 48
deriving DecidableEq, Repr

/-- Where a strand parked under R238 continues. -/
structure ParkRec where
  /-- the unit whose completion is still to be done -/
  unit  : Option (BitVec 16 × Nat)
  /-- the END of the loop that a stream examination has left: an outer loop with the same END is still to be done -/
  fin   : Option (BitVec 16) := none
deriving DecidableEq, Repr

/-- A held MMA fault (R197, R198). -/
structure HeldFault where
  cause : BitVec 8
  sub   : BitVec 8
  tval  : BitVec 64
  tok   : BitVec 4
  lost  : Bool
deriving DecidableEq, Repr

/-- The arrival of a strand at its tile's barrier (R310). -/
structure Arrival where
  op       : BitVec 3
  value    : BitVec 64
  ck       : Bool
  flags    : BitVec 5
  dest     : BitVec 6
  next     : BitVec 16
  deadline : Option (BitVec 48)
  /-- the strand's deadline has expired while its tile's arrival was forwarded (R308) -/
  expired  : Bool := false
deriving DecidableEq, Repr

/-- A result of a page walk kept for the strand that asked for it (R330, R338). -/
structure WalkRes where
  va    : BitVec 64
  write : Bool
  cause : BitVec 8
  sub   : BitVec 8
deriving DecidableEq, Repr

/-- The global read of a waiting LDG or VLDG (R339, R340). -/
inductive GRead where
  | walking
  | reading (module pa kslot : Nat) (mirror : Bool)
  | fault (cause sub : BitVec 8)
  | data (value : BitVec 512) (poison : Bool)
deriving DecidableEq, Repr

/-- Parts of local memory that have been read before the other parts of an access, by address, and the side bands of the lines whose first
part they hold, whose descriptors go with them (R196, R346). -/
structure EarlyRead where
  cells : List Host.Cell := []
  band  : SMap (BitVec 32) := []
deriving DecidableEq, Repr

/-- One strand (R13, R23). -/
structure Strand where
  s     : Vector (BitVec 64) 64 := Vector.replicate 64 0
  v     : Vector (BitVec 512) 32 := Vector.replicate 32 0
  p     : Vector (BitVec 64) 8 := Vector.replicate 8 0
  k     : Vector Token 16 := Vector.replicate 16 {}
  d     : Vector (BitVec 256) 8 := Vector.replicate 8 0
  pc    : BitVec 16 := 0
  st    : StrandSt := .idle
  th    : Bool := false
  wst   : BitVec 8 := 0
  dla   : BitVec 48 := 0
  /-- DT1 to DT7 -/
  dt    : Vector (BitVec 32) 7 := #v[0, 0, 0, 0, 0, 0, 0x100000]
  /-- FLG, bits 18:0 -/
  flg   : BitVec 19 := 0
  /-- TVEC, bits 15:0 -/
  tvec  : BitVec 16 := 0
  /-- TCAUSE, bits 17:0 -/
  tcause : BitVec 18 := 0
  tpc   : BitVec 16 := 0
  tval  : BitVec 64 := 0
  /-- TPOL, bits 11:0 -/
  tpol  : BitVec 12 := 0x260
  mtm   : BitVec 64 := 0
  vpm   : BitVec 64 := 0
  sen   : BitVec 16 := 0
  dlpol : BitVec 16 := 16
  wtoAddr  : BitVec 16 := 0
  wtoCount : BitVec 16 := 0
  /-- PRIOC.CLASS and PRIOC.COMM -/
  prio  : BitVec 2 := 0
  comm  : Bool := false
  raised : Bool := false
  /-- SCHC: BASE, LEN and CUR, one copy per strand (R271) -/
  schcBase : BitVec 14 := 0
  schcLen  : BitVec 11 := 0
  cur   : BitVec 11 := 0
  lstk  : Vector (BitVec 64) 4 := Vector.replicate 4 0
  oakTile : BitVec 16 := 0
  oakCtx  : BitVec 16 := 0
  oakSys  : BitVec 16 := 0
  /-- a refusal of one of the strand's deltas is pending (R285) -/
  refusal : Bool := false
  /-- retired in the open superstep (R280, R307) -/
  retiredNow : Bool := false
  /-- FLG[9:0] and s16[15:0] at RETIRE (R316) -/
  doneFlg : BitVec 10 := 0
  doneVal : BitVec 16 := 0
  held    : Option HeldFault := none
  arrival : Option Arrival := none
  wait    : Option WaitRec := none
  stall   : Option StallRec := none
  park    : Option ParkRec := none
  walk    : Option WalkRes := none
  gread   : Option GRead := none
  /-- the issue sequence that the VSTG or VREDG being executed has taken (R342) -/
  vseq    : Option Nat := none
  /-- an entry address whose bits 1:0 are not zero, to be reported at the first fetch (R268, R487) -/
  badEntry : Option (BitVec 64) := none
  age     : Nat := 0
  /-- the state held before a debug halt (R506) -/
  before  : Option StrandSt := none
  /-- the state that the image restored into the strand records, to be entered at START.resume (R34, R457) -/
  restored : Option StrandSt := none
  /-- the next unit is not matched against IBP (R506) -/
  skipBp  : Bool := false
  /-- executing one unit under STEP (R509) -/
  stepping : Bool := false
  /-- the address of the unit that the strand last began (R423, R516) -/
  stepAt  : BitVec 16 := 0
  /-- blocks held, by number (R256) -/
  blocks  : List Nat := []
  /-- the fetch request outstanding: block and cycle (R256, R257) -/
  req     : Option (Nat × Nat) := none
  /-- model's own: the prefixes of the unit being executed -/
  pfx     : List Pfx := []
  /-- model's own: the accesses the unit performs, for the watchpoints (R511): global?, write?, address, bytes -/
  touched : List (Bool × Bool × Nat × Nat) := []
  /-- the parts of local memory that the strand's next unit has already read (R346) -/
  early   : EarlyRead := {}
  /-- the registers, tokens and accumulators (file and number, R431, file 6 the accumulators) that recent units write, with the cycles of
  their issue (R31) -/
  inFlight : List (BitVec 8 × Nat × Nat) := []
  /-- values that CODEST.reg has put over fields that the hardware computes, by register number (R484) -/
  forced  : SMap (BitVec 64) := []
deriving DecidableEq, Repr

/-- The class of an accumulator element (R108). -/
inductive AccClass where
  | fin | pinf | ninf | nan
deriving DecidableEq, Repr

/-- One accumulator element (R108). -/
structure AccElem where
  sum : BitVec 88 := 0
  x   : Bool := false
  cls : AccClass := .fin
deriving DecidableEq, Repr

/-- One accumulator: 256 elements and their anchor (R108). -/
structure Acc where
  elems : SMap AccElem := []
  anc   : BitVec 16 := 0
deriving DecidableEq, Repr

/-- An MMA that has issued and not ended (R193, R194). -/
structure Mma where
  strand : BitVec 2
  own    : BitVec 16
  acc    : BitVec 3
  dA     : BitVec 256
  dB     : BitVec 256
  tok    : BitVec 4
  /-- the blocks not to be run: MTM at the issue and the blocks completed since (R199, R201) -/
  mtm    : BitVec 64
  /-- the accumulator as it stood at the MMA's issue (R513) -/
  before : Acc
  /-- the parts of the lines of its blocks that have already been read, by block (R196) -/
  early  : SMap EarlyRead := []
deriving DecidableEq, Repr

/-- The kind of a range lock (R366). -/
inductive LockKind where
  | read | write | tag
deriving DecidableEq, Repr

/-- What a range lock belongs to (R366, R393). -/
inductive LockUse where
  | mma | list | span | source | coll
deriving DecidableEq, Repr

/-- An entry of the range-lock table (R366). -/
structure Lock where
  lo     : Nat
  len    : Nat
  kind   : LockKind
  use    : LockUse
  strand : BitVec 2
  tok    : BitVec 4
deriving DecidableEq, Repr

/-- The kind of an engine operation (R365). -/
inductive EngKind where
  | fetchl | wbl | copy
deriving DecidableEq, Repr

/-- The translation of one global line of a list entry, and of the page of the descriptor window that holds its descriptor if its page has
DESC = 1, as leaf and physical address (R375, R378). -/
structure EngLine where
  va   : Nat
  leaf : Nat
  pa   : Nat
  win  : Option (Nat × Nat) := none
deriving DecidableEq, Repr

/-- An engine operation in its queue slot (R365, R374). -/
structure EngOp where
  kind   : EngKind
  next   : Bool
  tag    : Bool
  glob   : Bool
  desc   : BitVec 256
  strand : BitVec 2
  tok    : BitVec 4
  /-- superstep of issue and the issue sequence of a WBL -/
  step   : Nat
  seq    : BitVec 32
  /-- the entries of the list read so far, entry j as iteration j begins (R370, R375) -/
  ents   : List (BitVec 128)
  /-- the entry and the line within it that come next -/
  j      : Nat
  line   : Nat
  /-- whether every page of entry j has been translated (R375, R378) -/
  xlated : Bool
  /-- deltas of a WBL not yet acknowledged (R378) -/
  out    : Nat
  /-- every line has arrived or been captured -/
  moved  : Bool
  /-- lines reported by a commit that must be read again (R381) -/
  again  : List Nat
  /-- superstep whose commit has passed for a next fetch (R380) -/
  closed : Bool
  /-- the lane of a delta of a WBL that has been refused (R379) -/
  refused : Option Nat := none
  /-- the translations of the lines of the entries translated so far, in list order -/
  lines : List EngLine := []
deriving DecidableEq, Repr

/-- A record of a post queue (R261, R262). -/
structure PostRec where
  addr  : BitVec 16
  bits  : BitVec 512
  wst   : Option (BitVec 8)
  /-- the superstep and the attempt in which it was posted (R265) -/
  num   : Nat
  att   : Nat
deriving DecidableEq, Repr

/-- A node of a Tramontane tree (R299). -/
inductive NodeId where
  | tile (t : Nat) | cluster (c : Nat) | die (d : Nat) | module (m : Nat) | cross
deriving DecidableEq, Repr

/-- Which field of OAK counts a delta (R285). -/
inductive OakCls where
  | tile | ctx | sys
deriving DecidableEq, Repr

/-- What a delta carries (R281). -/
inductive DeltaBody where
  /-- bytes stored: the mask picks bytes of data, byte i going to addr + i -/
  | store (addr : Nat) (mask : BitVec 64) (data : BitVec 512)
  /-- reduction of the elements whose bytes the mask picks, operator numbered as R291 numbers it -/
  | reduce (addr : Nat) (op : BitVec 4) (mask : BitVec 64) (data : BitVec 512)
  /-- a message for a ring -/
  | message (q : BitVec 2) (eos : Bool) (payload : List (BitVec 8))
  /-- a COLL request: descriptor, parameter block, DT1 to DT7, DLA, token -/
  | request (desc : BitVec 256) (pblk : BitVec 1024) (dts : List (BitVec 32)) (dla : BitVec 48) (tok : BitVec 4)
deriving DecidableEq, Repr

/-- Where a delta goes. -/
inductive DeltaDest where
  | tile (ptid : Nat)
  | memory (module : Nat) (mirror : Bool)
  | axlos (module : Nat) (group : BitVec 8)
deriving DecidableEq, Repr

/-- Where the line descriptor that travels with part 0 of a WBL line goes, and its value (R378). -/
structure LineDesc where
  module : Nat
  pa     : Nat
  kslot  : Nat
  mirror : Bool
  value  : BitVec 16
deriving DecidableEq, Repr

/-- A delta (R281). -/
structure Delta where
  ctx    : Nat
  srcVt  : Nat
  srcTile : Nat
  strand : BitVec 2
  num    : Nat
  att    : Nat
  seq    : Nat
  lane   : Nat
  dest   : DeltaDest
  body   : DeltaBody
  /-- the line descriptor that travels with part 0 of a WBL line (R378), or in a tentative buffer the mark of the item that writes it -/
  desc   : Option LineDesc := none
  part   : Bool := false
  /-- the key slot of the page written (R337) -/
  kslot  : Nat := 0
  cls    : OakCls
  /-- the token of the WBL that sent it (R378) -/
  eng    : Option (BitVec 4) := none
  /-- the latency account its response adds to (R520) -/
  acct   : Nat
  /-- a delta of a whole line, which occupies 96 bytes (R284) -/
  wide   : Bool := false
  /-- waits in the spill area (R284) -/
  spilled : Bool := false
deriving DecidableEq, Repr

/-- The contents of ARRIVE (R300). -/
structure Arrive where
  num    : Nat
  abort  : Bool
  atile  : Nat
  cause  : BitVec 8
  code   : BitVec 16
  irv    : Bool
  lost   : Bool
  hold   : Bool
  ck     : Bool
  op     : BitVec 3
  opTile : Nat
  value  : BitVec 64
  flags  : BitVec 5
  aflags : BitVec 3
deriving DecidableEq, Repr

/-- The result of a decision (R304). -/
inductive Verdict where
  | commit | abort | fatal
deriving DecidableEq, Repr

/-- The contents of DECIDE (R300). -/
structure Decide where
  num     : Nat
  res     : Verdict
  atile   : Nat
  cause   : BitVec 8
  op      : BitVec 3
  value   : BitVec 64
  flags   : BitVec 5
  aflags  : BitVec 3
  nextNum : Nat
  nextAtt : Nat
  durable : Nat
  hold    : Bool
  ck      : Bool
deriving DecidableEq, Repr

/-- A message in flight. Messages between two nodes travel in order of the list (R300). -/
inductive Msg where
  | delta (d : Delta)
  | ack (d : Delta)
  | refusal (d : Delta)
  | arrive (ctx : Nat) (src dst : NodeId) (a : Arrive)
  | withdraw (ctx : Nat) (src dst : NodeId) (num : Nat)
  | wconf (ctx : Nat) (src dst : NodeId) (num : Nat)
  | decide (ctx : Nat) (src dst : NodeId) (d : Decide)
  | post (tile : Nat) (n : BitVec 2) (r : PostRec)
  /-- the decision on its way to a base die: context, module, stack, superstep -/
  | baseCommit (ctx module stack num : Nat)
  /-- an array acknowledgement: of a stack's part of a commit, or of a checkpoint image -/
  | arrayAck (ctx stack num : Nat) (ckpt : Bool)
  /-- a host-sync on its way from Axlos to the root of a context: context, module and mailbox (R360) -/
  | sync (ctx module box : Nat)
  | refetch (tile : Nat) (va : Nat)
  /-- an abort token on its way to the root of a context, with the ATILE of its decision (R411) -/
  | abortToken (ctx atile : Nat)
  /-- a halt request on its way to a tile of a context (R507) -/
  | haltRequest (tile ctx : Nat)
deriving DecidableEq, Repr

/-- The barrier logic of a tile (R308). -/
inductive BarSt where
  | opened | sent | withdrawing
deriving DecidableEq, Repr

/-- A pre-image of a line: its 64 bytes and its side band (R277). -/
structure LinePre where
  bytes : BitVec 512
  band  : BitVec 32
deriving DecidableEq, Repr

/-- The snapshot of the carried state of one strand (R280). -/
structure SnapStrand where
  s   : List (BitVec 64) := []
  dt  : Vector (BitVec 32) 7 := #v[0, 0, 0, 0, 0, 0, 0x100000]
  dla : BitVec 48 := 0
  /-- the tokens as the superstep began, with the ends of the operations that had carried over since (R384) -/
  k   : Vector Token 16 := Vector.replicate 16 {}
deriving DecidableEq, Repr

/-- A span of local bytes whose values the architecture does not fix: byte lo + i reads Config.freeByte (base + i). -/
structure Undef where
  lo   : Nat
  len  : Nat
  base : Nat
deriving DecidableEq, Repr

/-- Where an SRAM or parity error stands (R429, R431). -/
inductive ErrAt where
  | line (a : Nat) | side (a : Nat) | acc (a : Nat) | store (a : Nat) | retention (bank : Nat) | inbox
  | reg (n : BitVec 2) (file : BitVec 8) (index : Nat)
  /-- the main vector lane of an element delivers this encoding instead of the result it computes (R425, R426) -/
  | lane (element value : Nat)
deriving DecidableEq, Repr

/-- An error mark; hard: uncorrectable. -/
structure ErrMark where
  loc  : ErrAt
  hard : Bool
deriving DecidableEq, Repr

/-- The capture of a checkpoint image in progress (R463). -/
structure Capture where
  slot  : Nat
  num   : Nat
  lines : List Nat
deriving DecidableEq, Repr

/-- Debug registers and state of a tile (R504 to R516). -/
structure Debug where
  xin    : Bool := false
  xout   : Bool := false
  hr     : BitVec 4 := 0
  en     : Bool := false
  halted : Bool := false
  dacc   : BitVec 64 := 0
  ddata  : BitVec 64 := 0
  ibp    : Vector (BitVec 64) 16 := Vector.replicate 16 0
  wpa    : Vector (BitVec 64) 4 := Vector.replicate 4 0
  wpc    : Vector (BitVec 64) 4 := Vector.replicate 4 0
  stale  : BitVec 32 := 0
  skip   : BitVec 32 := 0
  btBase : BitVec 64 := 0
  btLim  : BitVec 64 := 0
  btPtr  : BitVec 64 := 0
  btCtl  : BitVec 8 := 0
  /-- records collected and not yet written (R515), and the cycle of the last record (R516) -/
  btLine : List (BitVec 64) := []
  btLast : Nat := 0
  /-- a decision held while halted (R508) -/
  decision : Option Decide := none
  /-- deltas withheld while halted with inbox and spill full (R508) -/
  withheld : List Delta := []
  /-- the reference tick at which an OP 3 access times out (R512) -/
  tokUntil : Option Nat := none
deriving DecidableEq, Repr

/-- A byte that a local store writes: its address, the bits written and their values. -/
structure WCell where
  addr : Nat
  mask : BitVec 8
  val  : BitVec 8
deriving DecidableEq, Repr

/-- The bytes of a line written in the attempt without a pre-image, as a mask, and the line as the first of these writes found it
(R276). -/
structure LooseLine where
  mask  : BitVec 64
  bytes : BitVec 512
deriving DecidableEq, Repr

/-- A part of a local store that its strand has issued and that is not yet performed (R346, R348): the strand, the cycle of
its issue, and its bytes. -/
structure Pend where
  strand : BitVec 2
  since  : Nat
  /-- the line it lies in -/
  line   : Nat
  cells  : List WCell
  /-- the line descriptor that goes with the part (R346) -/
  desc   : Option (BitVec 16) := none
deriving DecidableEq, Repr

/-- One tile (R14 and the chapters that add to it). -/
structure Tile where
  strands : Vector Strand 4 := Vector.replicate 4 {}
  mem     : Memory := []
  /-- local stores issued and not yet performed, in program order of each strand (R348) -/
  sbuf    : List Pend := []
  /-- spans whose bytes the architecture does not fix (R275, log entry 4) -/
  undef   : List Undef := []
  /-- bytes written in the attempt without a pre-image of their line, by line (R276) -/
  loose   : SMap LooseLine := []
  /-- side band by line: descriptor in 31:16, tags in 15:0 (R18) -/
  band    : SMap (BitVec 32) := []
  acc     : Vector Acc 8 := Vector.replicate 8 {}
  cb      : Vector (BitVec 256) 4 := Vector.replicate 4 0
  ta      : BitVec 2 := 0
  tb      : BitVec 2 := 0
  mmaq    : List Mma := []
  locks   : List Lock := []
  eng     : List EngOp := []
  /-- the lines that engine operations issued in the attempt, and ended, wrote or may have written (R384) -/
  landed  : List Nat := []
  posts   : Vector (List PostRec) 4 := Vector.replicate 4 []
  rega0   : BitVec 64 := 0
  rega1   : BitVec 64 := 0
  qcfg    : Vector (BitVec 64) 4 := Vector.replicate 4 0
  chead   : Vector (BitVec 16) 4 := Vector.replicate 4 0
  /-- overflow lists: whole records with their headers (R298) -/
  overflow : Vector (List (List (BitVec 8))) 4 := Vector.replicate 4 []
  grpm    : BitVec 64 := 0
  ewin    : BitVec 64 := 0x06553F10
  ethr    : BitVec 64 := 8
  ecnt    : BitVec 64 := 0
  /-- the tick of the module reference at which the error-count window began (R439) -/
  winAt   : Nat := 0
  latacc  : SMap (BitVec 64) := []
  /-- the global reads whose instruction has gone and whose responses are still to come, by module and physical address (R339, R436) -/
  orphans : List (Nat × Nat) := []
  irv     : Bool := false
  pre     : SMap LinePre := []
  accPre  : SMap Acc := []
  num     : Nat := 0
  att     : Nat := 0
  iseq    : BitVec 32 := 0
  snap    : Vector SnapStrand 4 := Vector.replicate 4 {}
  snapRega0 : BitVec 64 := 0
  snapRega1 : BitVec 64 := 0
  inbox   : List Delta := []
  /-- the vote of the tile: its cause, 0 for commit (R305), and the software code of ABORTV (R306) -/
  vote    : BitVec 8 := 0
  code    : BitVec 16 := 0
  lost    : Bool := false
  /-- a tile event under ESCALATE has voted (R433) -/
  hold    : Bool := false
  /-- the done-word part of the strands that were retired in the image restored into the tile (R452) -/
  donePart : BitVec 26 := 0
  bar     : BarSt := .opened
  aflags  : BitVec 3 := 0
  /-- refusals of queues, as superstep of the message and queue, and how often in a row each queue has aborted the superstep (R298) -/
  refusedQ : List (Nat × Nat) := []
  refusedN : Vector Nat 4 := Vector.replicate 4 0
  vtid    : BitVec 27 := 0
  /-- the strand last issued by the scalar and the vector slot (R226) -/
  lastScalar : BitVec 2 := 3
  lastVector : BitVec 2 := 3
  errs    : List ErrMark := []
  capture : Option Capture := none
  dbg     : Debug := {}
deriving DecidableEq, Repr

/-- An entry of a cluster's translation cache (R331): context, page, size and leaf. -/
structure TcEntry where
  ctx  : Nat
  page : Nat
  size : Nat
  leaf : BitVec 64
deriving DecidableEq, Repr

/-- An entry of a die's walk cache (R331): context, level, the bits of the address above the level's span, and the table it names. -/
structure WcEntry where
  ctx   : Nat
  lvl   : Nat
  part  : Nat
  table : Nat
deriving DecidableEq, Repr

/-- One cluster (R253, R331, R484). -/
structure Cluster where
  store  : Memory := []
  clim   : BitVec 17 := 0
  elect  : BitVec 4 := 0
  owner  : BitVec 64 := 0
  /-- the context bound and the virtual cluster index mapped -/
  ctx    : Option Nat := none
  vci    : Option Nat := none
  fenced : Bool := false
  quar   : Bool := false
  powered : Bool := false
  released : Bool := false
  lost   : Bool := false
  /-- its tiles' state was lost under the context that it is still bound to (R499) -/
  gone   : Bool := false
  /-- self-test has named a part of it (R527) -/
  failed : Bool := false
  started : Bool := false
  tcache : List TcEntry := []
  /-- the block the fetch port served last, for the next record of an issue trace (R517) -/
  served : Option Nat := none
  errs   : List ErrMark := []
deriving DecidableEq, Repr

/-- One compute die: its issue trace, error log and walk cache (R331, R517, R518, R522). -/
structure Die where
  wcache : List WcEntry := []
  itctl  : BitVec 64 := 0
  ittrig : BitVec 64 := 0
  itpos  : BitVec 64 := 0
  itrecs : List (BitVec 1024) := []
  /-- records taken, and cycles counted, since the arming (R517) -/
  itcount : Nat := 0
  itcycles : Nat := 0
  /-- records still to be taken after the trigger -/
  itleft : Option Nat := none
  log    : List (BitVec 256) := []
deriving DecidableEq, Repr

/-- One island (R530 to R532). -/
structure Island where
  op     : BitVec 3 := 7
  req    : BitVec 3 := 0
  target : BitVec 3 := 7
  busy   : Bool := false
  temp   : BitVec 8 := 0
  /-- its temperature has reached 105 °C, and it has not been raised to its request again since (R532) -/
  hot    : Bool := false
  /-- self-test of the island has ended since the module's reset (R524) -/
  tested : Bool := false
deriving DecidableEq, Repr

/-- A journal entry (R465): context, line address, old value. -/
structure JEntry where
  ctx  : Nat
  line : Nat
  old  : BitVec 512
  /-- the number of the superstep whose commit overwrote it -/
  num  : Nat
deriving DecidableEq, Repr

/-- One stack and its base die (R322 to R325, R334, R465, R525). -/
structure Stack where
  poison  : List Nat := []
  full    : Bool := false
  /-- blocks of the stack whose reads meet an uncorrectable error (R324) -/
  bad     : List Nat := []
  count   : Nat := 0
  log     : List (BitVec 256) := []
  tbuf    : List Delta := []
  journal : List JEntry := []
  /-- the contexts for which JOURNAL_FULL has been sent since their journal filled (R465) -/
  journalFull : List Nat := []
  trained : Bool := false
  failed  : Bool := false
deriving DecidableEq, Repr

/-- A push slot of a chunk thread (R412, R413). -/
structure PushSlot where
  lo      : Nat
  len     : Nat
  off     : Nat
  op      : BitVec 3
  ty      : BitVec 4
  expect  : Nat
  placed  : Nat
  applied : Nat
deriving DecidableEq, Repr

/-- An operation posted by a chunk thread (R404, R405). -/
inductive Posted where
  | send (rank : Nat) (tag : BitVec 8) (off len : Nat)
  | signal (rank : Nat) (c : BitVec 3)
deriving DecidableEq, Repr

/-- A RECV that has been posted (R404). -/
structure RecvRec where
  rank : Nat
  tag  : BitVec 8
  off  : Nat
  len  : Nat
  /-- the RECV has ended before its pair's transfer was complete -/
  ended : Bool
  /-- the bytes of the SEND it is paired with, read at the pairing -/
  data : Option (List (BitVec 8)) := none
deriving DecidableEq, Repr

/-- The wait of a chunk thread (R401). -/
structure ChunkWait where
  deadline : BitVec 48
  /-- the DL field, 0 for a wait bounded by the captured DT7 -/
  dl       : BitVec 3
deriving DecidableEq, Repr

/-- How a chunk thread stands. -/
inductive ThreadSt where
  | running | waiting | halted | stopped
deriving DecidableEq, Repr

/-- One chunk thread (R387, R396). -/
structure Thread where
  inst   : Nat
  rank   : Nat
  g      : Vector (BitVec 64) 16 := Vector.replicate 16 0
  sc     : Vector (BitVec 32) 8 := Vector.replicate 8 0
  slots  : Vector (Option PushSlot) 8 := Vector.replicate 8 none
  base   : Nat
  len    : Nat
  th     : Nat
  nbuf   : Nat
  pc     : Nat
  /-- the slot being executed (R399) -/
  ir     : BitVec 64 := 0
  win    : Memory := []
  posted : List Posted := []
  recvs  : List RecvRec := []
  clock  : BitVec 48 := 0
  dts    : List (BitVec 32) := []
  wait   : Option ChunkWait := none
  st     : ThreadSt := .running
  /-- the transfer of the waiting RECV has arrived -/
  got    : Bool := false
  /-- the members that the GATHER, DELIVER or MCAST in progress has still to reach (R408) -/
  left   : List Nat := []
  /-- 64-byte blocks of the window that hold an uncorrectable error (R411) -/
  bad    : List Nat := []
deriving DecidableEq, Repr

/-- A COLL request placed in Axlos (R393). -/
structure CollReq where
  vt     : Nat
  tile   : Nat
  strand : BitVec 2
  tok    : BitVec 4
  seq    : Nat
  desc   : BitVec 256
  pblk   : BitVec 1024
  dts    : List (BitVec 32)
  dla    : BitVec 48
deriving DecidableEq, Repr

/-- How an instance stands (R394 to R397). -/
inductive InstSt where
  | running | exposed | faulted
deriving DecidableEq, Repr

/-- A collective instance (R394): identified by its place in the list and by (context, group, superstep, index). -/
structure Inst where
  id      : Nat
  ctx     : Nat
  group   : Nat
  num     : Nat
  idx     : Nat
  handle  : Nat
  due     : Nat
  reqs    : List CollReq
  ranks   : List Nat
  /-- the ranks whose thread has not started yet, with the clock at the trigger -/
  toStart : List Nat
  clock   : BitVec 48
  st      : InstSt
deriving DecidableEq, Repr

/-- An entry of the program table (R388). -/
structure PtabEntry where
  w0 : BitVec 64 := 0
  w1 : BitVec 64 := 0
deriving DecidableEq, Repr

/-- A supervisor operation accepted and not complete (R482). -/
structure SupOp where
  instr  : Instr
  tile   : Nat
  strand : BitVec 2
  tok    : BitVec 4
  target : Nat
  args   : List (BitVec 8)
  /-- the cycle of its acceptance (R267, R482) -/
  since  : Nat := 0
  /-- its scrub, park or forced abort is under way (R482) -/
  begun  : Bool := false
deriving DecidableEq, Repr

/-- A scrub operation in progress (R497, R498). -/
structure ScrubOp where
  cluster : Option Nat
  page    : Nat
  pages   : Nat
  /-- a reset has stopped it, and it waits to begin again (R498) -/
  stopped : Bool := false
  /-- the pages already zeroed, whose quarantine is lifted (R497) -/
  done    : List Nat := []
deriving DecidableEq, Repr

/-- A supervisor event record: context, extension, code, strand, unit, value (R479). -/
structure Event where
  ctx    : BitVec 32
  ext    : BitVec 64
  code   : BitVec 16
  strand : BitVec 8
  unit   : BitVec 32
  value  : BitVec 64
deriving DecidableEq, Repr

/-- A link of a module (R435). -/
structure Link where
  down    : Bool := false
  crc     : Nat := 0
  replays : Nat := 0
  /-- the tick of the module reference at which lane lock was lost -/
  unlocked : Option Nat := none
deriving DecidableEq, Repr

/-- A key slot loaded for a context (R337). -/
structure KeySlot where
  ctx : Nat
  key : BitVec 512
deriving DecidableEq, Repr

/-- Whether the producer's barrier has closed the superstep that a launch waits for, or can no longer close it (R269). -/
inductive DepSt where
  | open_ | met | failed
deriving DecidableEq, Repr

/-- The dependency of a launch request that waits (R269): its mailbox, and the producer and its superstep. -/
structure LaunchDep where
  box : Nat
  ctx : Nat
  num : Nat
  st  : DepSt := .open_
deriving DecidableEq, Repr

/-- One module (R387, R478 to R480, R490 to R498, R524 to R533). -/
structure Module where
  mem     : Memory := []
  stk     : SMap Stack := []
  keys    : SMap KeySlot := []
  /-- page-table lines in the poison registry (R333) -/
  registry : List Nat := []
  store   : SMap (BitVec 64) := []
  ptab    : SMap PtabEntry := []
  threads : SMap Thread := []
  evt     : BitVec 64 := 0
  evlost  : BitVec 32 := 0
  href    : BitVec 32 := 0
  islSel  : BitVec 8 := 0
  events  : List Event := []
  ops     : List SupOp := []
  mbox    : Memory := []
  /-- requests received and not yet completed, by mailbox (MBXP) -/
  pending : List Nat := []
  notices : List (BitVec 256) := []
  noticeHead : Nat := 0
  noticeTail : Nat := 0
  /-- message-signals sent to the host (R490) -/
  signals : List Nat := []
  staging : Memory := []
  /-- the data of the last completion of a host read, and whether the last completion was an unsupported request (R489) -/
  answer  : List (BitVec 8) := []
  unsupported : Bool := false
  /-- launches that wait for a producer (R269) -/
  deps    : List LaunchDep := []
  /-- the routing table of Axlos: the Etesian link towards a module (R477) -/
  routes  : SMap Nat := []
  links   : SMap Link := []
  islands : SMap Island := []
  /-- the last request to ISLCTL was refused (R531) -/
  islFail : Bool := false
  lowFlow : Bool := false
  /-- the location codes, of KIND 3 to 9, of the parts that self-test has quarantined (R527) -/
  parts   : List Nat := []
  scrubs  : List ScrubOp := []
  ownerKey : Option (BitVec 256) := none
  exclusive : Bool := false
  enrol   : BitVec 32 := 0
  floor   : BitVec 32 := 0
  flashA  : List (BitVec 8) := []
  flashB  : List (BitVec 8) := []
  recovery : Bool := false
  /-- the recovery strap, as the last reset sampled it (R524, R529) -/
  strap    : Bool := false
  /-- the phase of the bring-up (R524) -/
  phase   : Nat := 3
  /-- service of the quadrants: 0 full, 1 degraded, 2 out of service, 3 not yet decided -/
  service : SMap Nat := []
  m2      : BitVec 512 := 0
  /-- the tick of the module reference at which the module was last reset -/
  refZero : Nat := 0
  log     : List (BitVec 256) := []
deriving DecidableEq, Repr

/-- A node of a context's tree (R299 to R302). -/
structure TreeNode where
  id       : NodeId
  parent   : Option NodeId
  kids     : List NodeId
  arrived  : List (NodeId × Arrive)
  forwarded : Bool
  leaving  : List NodeId
  num      : Nat
deriving DecidableEq, Repr

/-- An immediate decision that waits for the next superstep at the root (R538). -/
inductive Demand where
  | force | fatal (cause : BitVec 8) (atile : Nat)
deriving DecidableEq, Repr

/-- A host write in the log (R359, R360). -/
structure HostWrite where
  va     : Nat
  data   : List (BitVec 8)
  /-- its host-sync has reached the root -/
  synced : Bool
  /-- the host-syncs on their way to the root that it entered the log before: module and mailbox -/
  syncs  : List (Nat × Nat) := []
deriving DecidableEq, Repr

/-- A line of a MIRROR page as the host reads it until the array acknowledgements of its commit have arrived (R358): whether it was
poisoned, and its bytes. -/
structure OldLine where
  module : Nat
  line   : Nat
  poison : Bool
  bytes  : BitVec 512
deriving DecidableEq, Repr

/-- One context (R442, R462, R484, R486). -/
structure Ctx where
  started  : Bool := false
  resident : Bool := false
  held     : Bool := false
  fatal    : Bool := false
  lull     : Bool := false
  home     : Nat := 0
  owner    : BitVec 64 := 0
  tiles    : Nat := 0
  abortLim : Nat := 3
  lowWater : BitVec 16 := 0
  root     : Nat := 0
  plim     : Nat := 10625000
  partner  : Nat := 0
  prot     : Bool := false
  spill    : Nat := 0
  save     : Nat := 0
  slot0    : Nat := 0
  slot1    : Nat := 0
  logAt    : Nat := 0
  logSize  : Nat := 64
  tmap     : SMap Nat := []
  groups   : SMap (List Nat) := []
  /-- the tick clock (R227) and whether it runs (R228) -/
  clock    : BitVec 48 := 0
  running  : Bool := false
  /-- the ticks that the clock has run since a halt or a hold, at most 64 (R228) -/
  ranOn    : Nat := 0
  nodes    : List TreeNode := []
  top      : NodeId := .cross
  num      : Nat := 0
  att      : Nat := 0
  /-- the root has decided the open superstep and the tiles have not all run it (R538) -/
  decided  : Option Decide := none
  left     : List Nat := []
  demand   : Option Demand := none
  /-- the cause of the last decision that was not a COMMIT (R444, R465) -/
  cause    : BitVec 8 := 0
  /-- the ATILE of an ABORT_LIMIT that the supervisor has yet to answer, and whether it has resumed the context at SEN after one since the
  last COMMIT (R444) -/
  limit    : Option Nat := none
  retried  : Bool := false
  /-- a tile has reported IRREVERSIBLE, so that the context is to be restored (R445) -/
  irrev    : Bool := false
  /-- ISLAND_DOWN has named a tile of the context: the tick of its clock at which PLIM has passed since (R447, R500) -/
  downAt   : Option (BitVec 48) := none
  /-- saved for want of a free cluster, and kept in the supervisor queue until one becomes free (R459, R461) -/
  queued   : Bool := false
  /-- the link that last failed under its traffic: module and location code (R444) -/
  badLink  : Option (Nat × Nat) := none
  /-- the modules whose nodes have lost every route to their parents, with the ticks at which they did (R437) -/
  cut      : SMap Nat := []
  /-- the modules in which the failure of an Etesian link has left the context's nodes without a route (R437) -/
  netCut   : List Nat := []
  preempt  : Option (BitVec 48) := none
  ckReq    : Bool := false
  /-- durable, pending and standing checkpoint numbers (R464), and the slot that holds the durable one -/
  durable  : Nat := 0
  durSlot  : Nat := 1
  ckPending : Option Nat := none
  /-- a checkpoint that became durable and has not yet been carried by a DECIDE -/
  ckReady  : Option Nat := none
  journalStuck : Bool := false
  /-- array acknowledgements outstanding for the last commit, and for a checkpoint image -/
  acksDue  : Nat := 0
  ckAcksDue : Nat := 0
  olds     : List OldLine := []
  baseFlags : BitVec 3 := 0
  hostLog  : List HostWrite := []
  /-- mailboxes (module and number) whose host-sync waits for a commit, and for the base dies to apply one (R360, R491) -/
  syncBox  : List (Nat × Nat) := []
  syncNow  : List (Nat × Nat) := []
  egress   : SMap Nat := []
  reqs     : List (Nat × CollReq) := []
  pushes   : List (Delta × Option (Nat × Nat × Nat)) := []
  /-- an abort vote cast by a node for the open superstep: cause, ATILE, and whether HOLD is set with it (R436, R437) -/
  nodeVote : Option (BitVec 8 × Nat × Bool) := none
  doneWord : Option (BitVec 26) := none
  /-- every tile has retired and the final superstep has committed (R316) -/
  done     : Bool := false
  seqNo    : BitVec 32 := 0
  preBox   : Option (Nat × Nat) := none
  /-- the mailbox (module and number) of a TEARDOWN that has begun, and the scrubs of its step 5 with their modules (R496) -/
  tear     : Option (Nat × Nat) := none
  tearOps  : Option (List (Nat × ScrubOp)) := none
  /-- the launch record that the supervisor keeps (R456, R464, R495): bytes 0 to 271 of the LAUNCH body, then the code image, the
  local image, the group bitmaps, the page-table image, and the data-image list followed by its images -/
  launch   : List (BitVec 8) := []
  images   : List (List (BitVec 8)) := []
  /-- the launch state of a context that no launch request made: its virtual tiles and the stores of its virtual clusters as START found
  them (R464) -/
  startTiles : SMap Tile := []
  startCode  : SMap (Memory × BitVec 17) := []
deriving DecidableEq, Repr

/-- A page walk in progress (R331). -/
structure Walk where
  ctx    : Nat
  tile   : Nat
  strand : BitVec 2
  va     : BitVec 64
  write  : Bool
deriving DecidableEq, Repr

/-- Which agent a step of another agent happens to, and what the outside chose (log entry 1). -/
structure EvArgs where
  /-- a tile, and a strand of it -/
  tile  : Nat := 0
  n     : Nat := 0
  /-- a module, and a thread, link, island, stack, mailbox or operation of it -/
  m     : Nat := 0
  th    : Nat := 0
  /-- the place of a message in the list of messages in flight, or another number -/
  i     : Nat := 0
  delay : BitVec 16 := 0
  ok    : Bool := true
  value : BitVec 64 := 0
  bytes : List (BitVec 8) := []
  nums  : List Nat := []
deriving DecidableEq, Repr

/-- Who moves in a step (log entry 1): a strand's next unit, a pending local store, a chunk thread's next instruction, a step of another
agent, time alone, a service of the supervisor's firmware, or an error that comes to stand in a tile's storage, a cluster's instruction store or a block of a
stack. -/
inductive Turn where
  | strand (tile : Nat) (n : BitVec 2)
  /-- the strand's next unit, whose local stores are not performed at once (R348) -/
  | late (tile : Nat) (n : BitVec 2)
  /-- the next units of several strands issue in one cycle (R223, R259) -/
  | together (l : List (Nat × BitVec 2))
  /-- a pending local store of a tile, by its place, is performed (R348) -/
  | perform (tile i : Nat)
  /-- the strand's next unit reads the part of local memory that holds an address, before its other parts (R346) -/
  | readPart (tile : Nat) (n : BitVec 2) (a : Nat)
  /-- the strand's next unit waits for a register that an earlier one has yet to write (R31, R234) -/
  | scoreboard (tile : Nat) (n : BitVec 2)
  /-- the MMA at a place of the matrix unit's queue reads a 16-byte part of a line of one of its blocks, before the others (R196) -/
  | mmaPart (tile q block a : Nat)
  | thread (m : Nat) (th : Nat)
  | event (i : Instr) (args : EvArgs)
  | pass (cycles : Nat)
  /-- the host-sync at a place of the messages in flight reaches the root (R360) -/
  | sync (i : Nat)
  /-- the supervisor serves the SVC in which a strand has parked (R488); value is the host's time for WALLTIME -/
  | serve (tile : Nat) (n : BitVec 2) (value : BitVec 64)
  /-- the supervisor does for a context what the rules leave to it (R440, R444, R465, R500) -/
  | giveUp (c : Nat)
  /-- a context of the supervisor queue comes back on some clusters (R461) -/
  | bringBack (c : Nat) (clusters : List Nat)
  /-- the supervisor writes a routing table of Axlos: module, module of destination and Etesian link (R477) -/
  | route (m dst link : Nat)
  | upset (tile : Nat) (mark : ErrMark)
  | upsetStore (cluster : Nat) (mark : ErrMark)
  | upsetMemory (m stack block : Nat)
  | upsetChunk (m th block : Nat)
deriving DecidableEq, Repr

/-- The whole machine. -/
structure State where
  /-- model's own: who moves next, the cycle count, the number of the next free value, and the strand and the chunk
  thread whose instruction is being executed (log entries 1 and 4) -/
  agenda   : List Turn
  cycle    : Nat
  free     : Nat
  curTile  : Nat
  curStrand : BitVec 2
  curModule : Nat
  curThread : Nat
  /-- model's own: the cause of the trap taken in this turn, for the issue trace (R517) -/
  trapped  : Option (BitVec 8)
  /-- model's own: the local stores of this turn's unit are not performed at once (R348) -/
  late     : Bool
  /-- model's own: the strands whose REALIGN waits or issues in the cycle in which several strands issue, with its address (R259) -/
  present  : List (Nat × BitVec 2 × BitVec 16)
  ev       : EvArgs
  tiles    : SMap Tile
  clusters : SMap Cluster
  dies     : SMap Die
  mods     : SMap Module
  ctxs     : SMap Ctx
  net      : List Msg
  insts    : List Inst
  walks    : List Walk
deriving DecidableEq, Repr

/-- Why a run stops in the model. -/
inductive Fault where
  /-- raised by a management tile's access to a physical address at which the spec puts no memory (R322, R478): the spec
  states no effect. Safe. -/
  | noMemory
deriving DecidableEq, Repr

/-- What the model gives no meaning to. -/
inductive Refusal where
  /-- raised by an arm of exec whose instruction has no meaning yet. Safe. -/
  | notModelled (mnemonic : String)
deriving DecidableEq, Repr

/-- The machine right after module reset: every register as the spec gives it (R15, R20, R23, R24), no context, no
message, every agent of the system not listed and so at its reset value (log entries 1, 2, 3). -/
def State.reset : State :=
  { agenda := [], cycle := 0, free := 0, curTile := 0, curStrand := 0, curModule := 0, curThread := 0, trapped := none, late := false, present := [], ev := {},
    tiles := [], clusters := [], dies := [], mods := [], ctxs := [], net := [], insts := [], walks := [] }

end Sys2Proof.Machine
end

