-- ==== Sys2Proof/Machine/Map.lean ====
section
/-! DEFINITION. Operations on the finite maps and the memories of the state: reading, writing and the canonical form of a
memory, with little-endian values over spans of bytes (R6). Every operation keeps the canonical form of a memory. -/
namespace Sys2Proof.Machine

/-- The element at a key, if the map lists it. -/
def SMap.find {α : Type} : SMap α → Nat → Option α
  | [], _ => none
  | (j, a) :: r, k => if j = k then some a else SMap.find r k

/-- The element at a key; an unlisted key holds d. -/
def SMap.get {α : Type} (d : α) (m : SMap α) (k : Nat) : α := (SMap.find m k).getD d

/-- The map with the element at a key replaced, its keys still rising. -/
def SMap.set {α : Type} : SMap α → Nat → α → SMap α
  | [], k, a => [(k, a)]
  | (j, b) :: r, k, a =>
    if k < j then (k, a) :: (j, b) :: r
    else if k = j then (k, a) :: r
    else (j, b) :: SMap.set r k a

/-- The map without a key. -/
def SMap.del {α : Type} (m : SMap α) (k : Nat) : SMap α := m.filter (fun e => e.1 != k)

/-- The keys of a map. -/
def SMap.keys {α : Type} (m : SMap α) : List Nat := m.map (fun e => e.1)

/-- The byte at an address; an unlisted address reads 0 (R20, R62; log entry 3). -/
def Memory.read : Memory → Nat → Byte
  | [], _ => 0
  | (j, b) :: r, k => if j = k then b else Memory.read r k

/-- The cells of bytes from an address on, those that hold 0 left out. -/
def Memory.cells : Nat → List Byte → Memory
  | _, [] => []
  | a, b :: r => if b = 0 then Memory.cells (a + 1) r else (a, b) :: Memory.cells (a + 1) r

/-- The memory with a list of bytes written from an address. -/
def Memory.writeBytes (m : Memory) (a : Nat) (l : List Byte) : Memory :=
  m.filter (fun c => decide (c.1 < a)) ++ Memory.cells a l ++ m.filter (fun c => decide (a + l.length ≤ c.1))

/-- The memory with one byte written. -/
def Memory.write (m : Memory) (a : Nat) (b : Byte) : Memory := Memory.writeBytes m a [b]

/-- The addresses rise strictly, from lo up, and no cell holds 0. -/
def Memory.wfFrom : Nat → Memory → Bool
  | _, [] => true
  | lo, (j, b) :: r => decide (lo ≤ j) && b != 0 && Memory.wfFrom (j + 1) r

/-- The canonical form of a memory. -/
def Memory.wf (m : Memory) : Bool := Memory.wfFrom 0 m

/-- The bytes at a, a + 1, up to a + n - 1. -/
def Memory.bytes (m : Memory) (a : Nat) : Nat → List Byte
  | 0 => []
  | n + 1 => Memory.read m a :: Memory.bytes m (a + 1) n

/-- The memory with n bytes from an address set to 0. -/
def Memory.clear (m : Memory) (a n : Nat) : Memory := m.filter (fun c => decide (c.1 < a) || decide (a + n ≤ c.1))

/-- The cells of a span of n bytes from a, as a memory of its own from address 0. -/
def Memory.slice (m : Memory) (a n : Nat) : Memory :=
  (m.filter (fun c => decide (a ≤ c.1) && decide (c.1 < a + n))).map (fun c => (c.1 - a, c.2))

/-- The memory with the span of n bytes from a replaced by the cells of another, below n. -/
def Memory.blit (m : Memory) (a n : Nat) (cells : Memory) : Memory :=
  m.filter (fun c => decide (c.1 < a)) ++
    (cells.filter (fun c => decide (c.1 < n))).map (fun c => (a + c.1, c.2)) ++
    m.filter (fun c => decide (a + n ≤ c.1))

/-- The number whose bytes, least significant first, are given (R6). -/
def ofBytes : List Byte → Nat
  | [] => 0
  | b :: r => b.toNat + 256 * ofBytes r

/-- The n low bytes of a number, least significant first (R6). -/
def toBytes : Nat → Nat → List Byte
  | 0, _ => []
  | n + 1, x => BitVec.ofNat 8 x :: toBytes n (x / 256)

/-- The n bytes from an address as a number (R6). -/
def Memory.num (m : Memory) (a n : Nat) : Nat := ofBytes (Memory.bytes m a n)

/-- The memory with the n low bytes of a number written from an address (R6). -/
def Memory.setNum (m : Memory) (a n x : Nat) : Memory := Memory.writeBytes m a (toBytes n x)

/-- The numbers lo, lo + 1, up to lo + n - 1. -/
def span (lo : Nat) : Nat → List Nat
  | 0 => []
  | n + 1 => lo :: span (lo + 1) n

/-- Bits h down to l of a number (R6). -/
def bitsOf (x h l : Nat) : Nat := x / 2 ^ l % 2 ^ (h + 1 - l)

/-- A bit of a number. -/
def bitAt (x i : Nat) : Bool := x / 2 ^ i % 2 == 1

/-- Bytes cut into pieces of n, at most k pieces. -/
def chunksOf (n : Nat) : Nat → List Byte → List (List Byte)
  | 0, _ => []
  | k + 1, l => l.take n :: chunksOf n k (l.drop n)

/-- A vector with one element replaced; a place outside it changes nothing. -/
def setAt {α : Type} {n : Nat} (v : Vector α n) (i : Nat) (a : α) : Vector α n := v.setIfInBounds i a

/-- An element put before the first one that it precedes. -/
def insertBy {α : Type} (le : α → α → Bool) (a : α) : List α → List α
  | [] => [a]
  | b :: r => if le a b then a :: b :: r else b :: insertBy le a r

/-- The list in order; equal elements keep their order. -/
def sortBy {α : Type} (le : α → α → Bool) : List α → List α
  | [] => []
  | a :: r => insertBy le a (sortBy le r)

/-- The list with the element at a place replaced. -/
def listSet {α : Type} : List α → Nat → α → List α
  | [], _, _ => []
  | _ :: r, 0, a => a :: r
  | b :: r, i + 1, a => b :: listSet r i a

/-- The list without the element at a place. -/
def listDel {α : Type} : List α → Nat → List α
  | [], _ => []
  | _ :: r, 0 => r
  | b :: r, i + 1 => b :: listDel r i

end Sys2Proof.Machine
end

