-- ==== Sys2Proof/Machine/Cipher.lean ====
section
/-! DEFINITION. The inline encryption of a base die (13_global_memory.md R337): AES-256-XTS over a 64-byte line, its tweak the physical
line number. The spec names the cipher and does not write it out: the block cipher is that of FIPS 197 and the mode that of IEEE 1619
(log entry 9). Bytes and blocks are numbers, least significant byte first (R6). -/
namespace Sys2Proof.Machine

/-- Twice an element of GF(2^8). -/
def gfDouble (a : Nat) : Nat := if a < 128 then 2 * a else (2 * a) ^^^ 0x11B

/-- The product of two elements of GF(2^8), by the n low bits of the second. -/
def gfMul : Nat → Nat → Nat → Nat
  | 0, _, _ => 0
  | n + 1, a, b => (if b % 2 = 1 then a else 0) ^^^ gfMul n (gfDouble a) (b / 2)

/-- a to the power 2^(n + 1) - 2: with n = 7 the inverse in GF(2^8), and 0 for 0. -/
def gfInv : Nat → Nat → Nat
  | 0, _ => 1
  | n + 1, a => let q := gfMul 8 a a; gfMul 8 q (gfInv n q)

/-- A byte turned left by k bits. -/
def turnByte (k a : Nat) : Nat := a * 2 ^ k % 256 + a * 2 ^ k / 256

/-- The substitution of AES. -/
def aesSub (a : Nat) : Nat :=
  let b := gfInv 7 a
  b ^^^ turnByte 1 b ^^^ turnByte 2 b ^^^ turnByte 3 b ^^^ turnByte 4 b ^^^ 0x63

/-- The inverse substitution. -/
def aesUnsub (a : Nat) : Nat := gfInv 7 (turnByte 1 a ^^^ turnByte 3 a ^^^ turnByte 6 a ^^^ 5)

/-- Byte i of a number. -/
def byteAt (x i : Nat) : Nat := x / 256 ^ i % 256

/-- The number whose n bytes a function gives. -/
def fromBytes (f : Nat → Nat) : Nat → Nat
  | 0 => 0
  | n + 1 => fromBytes f n + f n * 256 ^ n

/-- Every byte of a block of 16 replaced. -/
def onBytes (f : Nat → Nat) (x : Nat) : Nat := fromBytes (fun i => f (byteAt x i)) 16

/-- The rows of the state turn (column c of row r takes column c + r), and back. -/
def aesShift (x : Nat) : Nat := fromBytes (fun i => byteAt x ((i + 4 * (i % 4)) % 16)) 16
def aesUnshift (x : Nat) : Nat := fromBytes (fun i => byteAt x ((i + 12 * (i % 4)) % 16)) 16

/-- Every column multiplied by the polynomial whose coefficients, from degree 0, are given. -/
def aesColumns (a b c d : Nat) (x : Nat) : Nat :=
  fromBytes (fun i =>
    let at_ := fun (k : Nat) => byteAt x (i / 4 * 4 + (i + k) % 4)
    gfMul 8 (at_ 0) a ^^^ gfMul 8 (at_ 1) d ^^^ gfMul 8 (at_ 2) c ^^^ gfMul 8 (at_ 3) b) 16

/-- The words of the key schedule of AES-256 from word 8 on: the last eight words, newest first, the round constant, and how many words
are still to come. -/
def keyWords : Nat → Nat → List Nat → List Nat
  | 0, _, _ => []
  | n + 1, i, prev =>
    let last := prev.getD 0 0
    let old := prev.getD 7 0
    let rot := last / 256 + last % 256 * 2 ^ 24
    let sub := fun (w : Nat) => fromBytes (fun j => aesSub (byteAt w j)) 4
    let t := if i % 8 = 0 then sub rot ^^^ 2 ^ (i / 8 - 1) else if i % 8 = 4 then sub last else last
    let w := old ^^^ t
    w :: keyWords n (i + 1) ((w :: prev).take 8)

/-- The fifteen round keys of AES-256. -/
def roundKeys (key : Nat) : List Nat :=
  let first := (span 0 8).map (fun i => key / 2 ^ (32 * i) % 2 ^ 32)
  let w := first ++ keyWords 52 8 first.reverse
  (span 0 15).map (fun r => (span 0 4).foldl (fun a j => a + w.getD (4 * r + j) 0 * 2 ^ (32 * j)) 0)

/-- AES-256 of a block under its round keys. -/
def aesEncrypt (ks : List Nat) (x : Nat) : Nat :=
  let y := (span 1 13).foldl (fun y r => aesColumns 2 1 1 3 (aesShift (onBytes aesSub y)) ^^^ ks.getD r 0) (x ^^^ ks.getD 0 0)
  aesShift (onBytes aesSub y) ^^^ ks.getD 14 0

/-- The inverse of AES-256. -/
def aesDecrypt (ks : List Nat) (x : Nat) : Nat :=
  let y := onBytes aesUnsub (aesUnshift (x ^^^ ks.getD 14 0))
  let z := (span 1 13).foldl (fun z r => onBytes aesUnsub (aesUnshift (aesColumns 14 9 13 11 (z ^^^ ks.getD (14 - r) 0)))) y
  z ^^^ ks.getD 0 0

/-- The tweak of the next block. -/
def nextTweak (t : Nat) : Nat := if t < 2 ^ 127 then 2 * t else (2 * t - 2 ^ 128) ^^^ 0x87

/-- n blocks from number j on of a line under XTS, with the tweak of block j. -/
def xtsBlocks (f : Nat → Nat) (x : Nat) : Nat → Nat → Nat → Nat
  | 0, _, _ => 0
  | n + 1, j, t => (f (x / 2 ^ (128 * j) % 2 ^ 128 ^^^ t) ^^^ t) * 2 ^ (128 * j) + xtsBlocks f x n (j + 1) (nextTweak t)

/-- The 64 bytes of line number `line` encrypted, or with false decrypted, under the two keys of a slot (R337). -/
def xtsLine (encrypt : Bool) (key : BitVec 512) (line x : Nat) : Nat :=
  let ks := roundKeys (key.toNat % 2 ^ 256)
  let t := aesEncrypt (roundKeys (key.toNat / 2 ^ 256)) (line % 2 ^ 128)
  xtsBlocks (if encrypt then aesEncrypt ks else aesDecrypt ks) x 4 0 t

end Sys2Proof.Machine
end

