-- ==== Sys2Proof/Machine/Numeric.lean ====
section
/-! DEFINITION. Number formats and arithmetic (04_number_formats.md): integers, extended reals, the floating-point formats,
rounding and encoding, the operations of R100, lines and descriptors, accumulators, quantising. A finite extended real is
held exactly as sign, magnitude m times 2^k, and a sticky mark when the exact magnitude lies strictly between m times 2^k
and (m + 1) times 2^k; quotients and square roots carry enough bits of m for every rounding of this chapter. -/
namespace Sys2Proof.Machine

/-- FLG bits that an instruction ORs in (R102): NX 0, UF 1, OF 2, DZ 3, NV 4, AIX 8, AOV 9. -/
abbrev Flags := BitVec 10
def flNX : Flags := 0x001
def flUF : Flags := 0x002
def flOF : Flags := 0x004
def flDZ : Flags := 0x008
def flNV : Flags := 0x010
def flAIX : Flags := 0x100
def flAOV : Flags := 0x200

/-- The element types of R53. -/
inductive Ty where
  | int (signed : Bool) (w : Nat)
  | flt (bits eb mb : Nat) (bias : Nat) (kind : Nat)
deriving DecidableEq, Repr

def tF32 : Ty := .flt 32 8 23 127 0
def tF16 : Ty := .flt 16 5 10 15 0
def tBF16 : Ty := .flt 16 8 7 127 0
def tE4M3 : Ty := .flt 8 4 3 7 1
def tE5M2 : Ty := .flt 8 5 2 15 0
def tE2M3 : Ty := .flt 6 2 3 1 2
def tE3M2 : Ty := .flt 6 3 2 3 2
def tE2M1 : Ty := .flt 4 2 1 1 2

/-- The type a ty field selects (R53); the kind of a format: 0 has infinities and NaNs, 1 only NaNs, 2 neither (R91). -/
def tyOf (y : BitVec 4) : Ty :=
  match y.toNat with
  | 0 => .int true 8 | 1 => .int true 16 | 2 => .int true 32 | 3 => .int true 64
  | 4 => .int false 8 | 5 => .int false 16 | 6 => .int false 32 | 7 => .int false 64
  | 8 => tF32 | 9 => tF16 | 10 => tBF16 | 11 => tE4M3 | 12 => tE5M2 | 13 => tE2M3 | 14 => tE3M2 | _ => tE2M1

/-- The width of an element in bits. -/
def Ty.width : Ty → Nat
  | .int _ w => w
  | .flt b _ _ _ _ => b

def Ty.isFloat : Ty → Bool
  | .int _ _ => false
  | .flt _ _ _ _ _ => true

/-- The number of elements of a line (R105, R157). -/
def Ty.count (t : Ty) : Nat := if t.width = 6 then 80 else 512 / t.width

/-- WrapInt to width w as the unsigned encoding (R90). -/
def wrapEnc (x : Int) (w : Nat) : Nat := (x % (2 ^ w : Nat)).toNat

/-- The value of an encoding as an i or n type (R90). -/
def intVal (signed : Bool) (w n : Nat) : Int := if signed && decide (2 ^ (w - 1) ≤ n) then (n : Int) - (2 ^ w : Nat) else n

def intMin (signed : Bool) (w : Nat) : Int := if signed then -((2 ^ (w - 1) : Nat) : Int) else 0
def intMax (signed : Bool) (w : Nat) : Int := if signed then ((2 ^ (w - 1) : Nat) : Int) - 1 else ((2 ^ w : Nat) : Int) - 1

/-- SatInt (R90). -/
def satInt (x : Int) (signed : Bool) (w : Nat) : Int := max (intMin signed w) (min (intMax signed w) x)

/-- An integer narrowed to a type, wrapping or saturating (R90). -/
def narrow (x : Int) (signed : Bool) (w : Nat) (sat : Bool) : Nat :=
  if sat then wrapEnc (satInt x signed w) w else wrapEnc x w

/-- An extended real (R93): NaN (signalling or quiet), an infinity, or a finite value. -/
inductive Ext where
  | nan (sig : Bool)
  | inf (neg : Bool)
  | fin (neg : Bool) (m : Nat) (k : Int) (sticky : Bool)
deriving DecidableEq, Repr

/-- The integer x as an extended real. -/
def Ext.ofInt (x : Int) : Ext := .fin (decide (x < 0)) x.natAbs 0 false

/-- DecodeElement (R91 to R93). -/
def decodeFloat (eb mb bias kind : Nat) (n : Nat) : Ext :=
  let mm := n % 2 ^ mb
  let e := n / 2 ^ mb % 2 ^ eb
  let neg := n / 2 ^ (mb + eb) % 2 == 1
  if kind = 0 ∧ e = 2 ^ eb - 1 then (if mm = 0 then .inf neg else .nan (mm / 2 ^ (mb - 1) == 0))
  else if kind = 1 ∧ e = 2 ^ eb - 1 ∧ mm = 2 ^ mb - 1 then .nan false
  else if e = 0 then .fin neg mm (1 - (bias : Int) - (mb : Int)) false
  else .fin neg (2 ^ mb + mm) ((e : Int) - (bias : Int) - (mb : Int)) false

def decodeTy (t : Ty) (n : Nat) : Ext :=
  match t with
  | .int s w => Ext.ofInt (intVal s w n)
  | .flt _ eb mb bias kind => decodeFloat eb mb bias kind n

/-- The magnitude m times 2^k cut at 2^q: the quotient, and how the rest compares with a half: 0 none, 1 below, 2 equal,
3 above. -/
def cutAt (m : Nat) (k q : Int) (sticky : Bool) : Nat × Nat :=
  if q ≤ k then (m * 2 ^ (k - q).toNat, if sticky then 1 else 0)
  else
    let d := 2 ^ (q - k).toNat
    let r := m % d
    (m / d, if r = 0 ∧ !sticky then 0 else if 2 * r < d then 1 else if 2 * r = d ∧ !sticky then 2 else 3)

/-- RoundInt on a cut magnitude (R95): whether it rounds up in magnitude. Modes 0 RNE, 1 RZ, 2 RU, 3 RD, 4 RNA. -/
def roundsUp (mode : Nat) (neg : Bool) (n rest : Nat) : Bool :=
  match mode with
  | 0 => rest == 3 || (rest == 2 && n % 2 == 1)
  | 1 => false
  | 2 => rest != 0 && !neg
  | 3 => rest != 0 && neg
  | _ => rest == 3 || rest == 2

/-- RoundInt of x divided by 2^q, as a signed integer, and whether it is inexact (R95). -/
def roundAt (neg : Bool) (m : Nat) (k q : Int) (sticky : Bool) (mode : Nat) : Int × Bool :=
  let c := cutAt m k q sticky
  let n := if roundsUp mode neg c.1 c.2 then c.1 + 1 else c.1
  (if neg then -(n : Int) else n, c.2 != 0)

/-- The largest finite magnitude of a format, as m and k (R91). -/
def maxFinite (eb mb bias kind : Nat) : Nat × Int :=
  let top := if kind = 0 then 2 ^ eb - 2 else 2 ^ eb - 1
  let mm := if kind = 1 then 2 ^ (mb + 1) - 2 else 2 ^ (mb + 1) - 1
  (mm, (top : Int) - (bias : Int) - (mb : Int))

/-- The encoding of a finite magnitude n times 2^q of a format that holds it. -/
def packFinite (eb mb bias : Nat) (neg : Bool) (n : Nat) (q : Int) : Nat :=
  let s := if neg then 2 ^ (eb + mb) else 0
  if n = 0 then s
  else
    let l := Nat.log2 n
    let e := (l : Int) + q + bias
    if e ≤ 0 then s + n * 2 ^ (q - (1 - (bias : Int) - mb)).toNat
    else
      let f := if l ≤ mb then n * 2 ^ (mb - l) else n / 2 ^ (l - mb)
      s + e.toNat * 2 ^ mb + f % 2 ^ mb

/-- The canonical NaN of a format (R92); +0 where the format has none (R98). -/
def canonNaN (eb mb kind : Nat) : Nat :=
  if kind = 0 then (2 ^ eb - 1) * 2 ^ mb + 2 ^ (mb - 1) else if kind = 1 then 2 ^ (eb + mb) - 1 else 0

/-- Max of the sign (R97). -/
def maxEnc (eb mb bias kind : Nat) (neg : Bool) : Nat :=
  let x := maxFinite eb mb bias kind
  packFinite eb mb bias neg x.1 x.2

/-- Big of the sign without saturation (R97). -/
def bigEnc (eb mb bias kind : Nat) (neg : Bool) : Nat :=
  if kind = 0 then (if neg then 2 ^ (eb + mb) else 0) + (2 ^ eb - 1) * 2 ^ mb
  else if kind = 1 then canonNaN eb mb kind
  else maxEnc eb mb bias kind neg

/-- OverflowResult (R97). -/
def overflowResult (eb mb bias kind : Nat) (neg : Bool) (mode : Nat) (sat : Bool) : Nat :=
  let big := mode == 0 || mode == 4 || (mode == 2 && !neg) || (mode == 3 && neg)
  if big && !sat then bigEnc eb mb bias kind neg else maxEnc eb mb bias kind neg

/-- EncodeFloat (R96, R98): the encoding and the flags. -/
def encodeFloat (eb mb bias kind : Nat) (x : Ext) (mode : Nat) (sat : Bool) : Nat × Flags :=
  match x with
  | .nan sig => (canonNaN eb mb kind, if sig || kind = 2 then flNV else 0)
  | .inf neg =>
    if sat || kind = 2 then (maxEnc eb mb bias kind neg, flOF)
    else if kind = 1 then (canonNaN eb mb kind, flNV)
    else (bigEnc eb mb bias kind neg, 0)
  | .fin neg m k sticky =>
    if m = 0 ∧ !sticky then (if neg then 2 ^ (eb + mb) else 0, 0)
    else
      let e := max ((Nat.log2 m : Int) + k) (1 - (bias : Int))
      let q := e - mb
      let c := cutAt m k q sticky
      let n := if roundsUp mode neg c.1 c.2 then c.1 + 1 else c.1
      let nx : Flags := if c.2 = 0 then 0 else flNX
      let mx := maxFinite eb mb bias kind
      if mx.1 * 2 ^ (mx.2 - q).toNat < n * 2 ^ (q - mx.2).toNat then
        (overflowResult eb mb bias kind neg mode sat, nx ||| flOF ||| flNX)
      else
        let tiny := q = 1 - (bias : Int) - mb ∧ n < 2 ^ mb
        (packFinite eb mb bias neg n q, if c.2 ≠ 0 ∧ tiny then nx ||| flUF else nx)

/-- EncodeFloat to a type that is a format; an integer type takes FloatToInt (R99). -/
def encodeTy (t : Ty) (x : Ext) (mode : Nat) (sat : Bool) : Nat × Flags :=
  match t with
  | .flt _ eb mb bias kind => encodeFloat eb mb bias kind x mode sat
  | .int s w =>
    match x with
    | .nan _ => (0, flNV)
    | .inf neg => (wrapEnc (if neg then intMin s w else intMax s w) w, flNV)
    | .fin neg m k sticky =>
      let y := roundAt neg m k 0 sticky mode
      if y.1 < intMin s w then (wrapEnc (intMin s w) w, flNV)
      else if intMax s w < y.1 then (wrapEnc (intMax s w) w, flNV)
      else (wrapEnc y.1 w, if y.2 then flNX else 0)

/-- The sign, significand and exponent of a sum of two finite values without sticky marks. -/
def addFin (na : Bool) (ma : Nat) (ka : Int) (nb : Bool) (mb : Nat) (kb : Int) (mode : Nat) : Ext :=
  let k := min ka kb
  let a : Int := ma * 2 ^ (ka - k).toNat
  let b : Int := mb * 2 ^ (kb - k).toNat
  let s := (if na then -a else a) + (if nb then -b else b)
  if s = 0 then .fin (if ma = 0 ∧ mb = 0 ∧ na = nb then na else mode == 3) 0 k false
  else .fin (decide (s < 0)) s.natAbs k false

def Ext.isNaN : Ext → Bool
  | .nan _ => true
  | _ => false
def Ext.isSig : Ext → Bool
  | .nan s => s
  | _ => false
def Ext.isZero : Ext → Bool
  | .fin _ 0 _ s => !s
  | _ => false
def Ext.isNeg : Ext → Bool
  | .nan _ => false
  | .inf n => n
  | .fin n _ _ _ => n
def Ext.neg : Ext → Ext
  | .nan s => .nan s
  | .inf n => .inf (!n)
  | .fin n m k s => .fin (!n) m k s
def Ext.abs : Ext → Ext
  | .nan s => .nan s
  | .inf _ => .inf false
  | .fin _ m k s => .fin false m k s

/-- The invalid result: a quiet NaN with NV. -/
def invalid : Ext × Flags := (.nan false, flNV)

/-- x + y before encoding (R100). -/
def extAdd (x y : Ext) (mode : Nat) : Ext × Flags :=
  if x.isSig || y.isSig then invalid
  else match x, y with
    | .nan _, _ => (.nan false, 0)
    | _, .nan _ => (.nan false, 0)
    | .inf a, .inf b => if a = b then (.inf a, 0) else invalid
    | .inf a, _ => (.inf a, 0)
    | _, .inf b => (.inf b, 0)
    | .fin na ma ka _, .fin nb mb kb _ => (addFin na ma ka nb mb kb mode, 0)

/-- x times y before encoding (R100). -/
def extMul (x y : Ext) : Ext × Flags :=
  if x.isSig || y.isSig then invalid
  else match x, y with
    | .nan _, _ => (.nan false, 0)
    | _, .nan _ => (.nan false, 0)
    | .inf a, y => if y.isZero then invalid else (.inf (a != y.isNeg), 0)
    | x, .inf b => if x.isZero then invalid else (.inf (b != x.isNeg), 0)
    | .fin na ma ka _, .fin nb mb kb _ => (.fin (na != nb) (ma * mb) (ka + kb) false, 0)

/-- x times y plus z, before the single rounding (R100). A product of 0 and an infinity is invalid whatever z holds. -/
def extFma (x y z : Ext) (mode : Nat) : Ext × Flags :=
  if x.isSig || y.isSig || z.isSig then invalid
  else
    let p := extMul x y
    if p.2 ≠ 0 then invalid else extAdd p.1 z mode

/-- x divided by y before encoding (R100, R165). -/
def extDiv (x y : Ext) : Ext × Flags :=
  if x.isSig || y.isSig then invalid
  else match x, y with
    | .nan _, _ => (.nan false, 0)
    | _, .nan _ => (.nan false, 0)
    | .inf _, .inf _ => invalid
    | .inf a, y => (.inf (a != y.isNeg), 0)
    | x, .inf b => (.fin (x.isNeg != b) 0 0 false, 0)
    | .fin na ma ka _, .fin nb mb kb _ =>
      if mb = 0 then (if ma = 0 then invalid else (.inf (na != nb), flDZ))
      else (.fin (na != nb) (ma * 2 ^ 96 / mb) (ka - kb - 96) (ma * 2 ^ 96 % mb != 0), 0)

/-- The integer square root, by bits from the top: fuel bits are still to be tried. -/
def isqrtFrom (x : Nat) : Nat → Nat → Nat
  | 0, r => r
  | b + 1, r => isqrtFrom x b (if (r + 2 ^ b) * (r + 2 ^ b) ≤ x then r + 2 ^ b else r)

/-- The square root before encoding (R100). -/
def extSqrt (x : Ext) : Ext × Flags :=
  match x with
  | .nan sig => if sig then invalid else (.nan false, 0)
  | .inf neg => if neg then invalid else (.inf false, 0)
  | .fin neg m k _ =>
    if m = 0 then (.fin neg 0 k false, 0)
    else if neg then invalid
    else
      let odd := k % 2 != 0
      let mm := (if odd then 2 * m else m) * 2 ^ 80
      let kk := (if odd then k - 1 else k) - 80
      let r := isqrtFrom mm (Nat.log2 mm / 2 + 1) 0
      (.fin false r (kk / 2) (r * r != mm), 0)

/-- The order of two extended reals that are no NaN, finite ones exact: -1, 0, 1 (zeros are equal). -/
def extCmp (x y : Ext) : Int :=
  match x, y with
  | .inf a, .inf b => if a = b then 0 else if a then -1 else 1
  | .inf a, _ => if a then -1 else 1
  | _, .inf b => if b then 1 else -1
  | .fin na ma ka _, .fin nb mb kb _ =>
    let k := min ka kb
    let a : Int := ma * 2 ^ (ka - k).toNat
    let b : Int := mb * 2 ^ (kb - k).toNat
    let d := (if na then -a else a) - (if nb then -b else b)
    if d < 0 then -1 else if d = 0 then 0 else 1
  | _, _ => 0

/-- MIN and MAX of floating values (R163): -0 orders below +0, a NaN gives a NaN. -/
def extMinMax (wantMax : Bool) (x y : Ext) : Ext × Flags :=
  if x.isNaN || y.isNaN then (.nan false, if x.isSig || y.isSig then flNV else 0)
  else
    let c := extCmp x y
    let yBelow := decide (0 < c) || (c == 0 && y.isNeg && !x.isNeg)
    (if yBelow = wantMax then x else y, 0)

/-- The bits of element i of width w of a line. -/
def lineElem (v : Nat) (w i : Nat) : Nat := v / 2 ^ (w * i) % 2 ^ w

/-- A line from the encodings of its elements of width w, element 0 first. -/
def packElems (w : Nat) : List Nat → Nat
  | [] => 0
  | x :: r => x % 2 ^ w + 2 ^ w * packElems w r

/-- The elements of a line of width w, n of them. -/
def elemsOf (v w : Nat) : Nat → List Nat
  | 0 => []
  | n + 1 => v % 2 ^ w :: elemsOf (v / 2 ^ w) w n

/-- The format an FMT value assigns (R105); none for 0x00, unassigned values and codebooks. -/
def fmtTy (fmt : Nat) : Option Ty :=
  match fmt with
  | 0x10 => some tE4M3 | 0x11 => some tE5M2 | 0x12 => some tE2M3 | 0x13 => some tE3M2 | 0x14 => some tE2M1
  | 0x15 => some (.int true 8) | 0x18 => some tBF16 | 0x19 => some tF16 | 0x1A => some tF32
  | _ => none

/-- The FMT value is assigned by R105 (0x00 included). -/
def fmtAssigned (fmt : Nat) : Bool := fmt == 0 || (fmtTy fmt).isSome || (0x20 ≤ fmt && fmt ≤ 0x23)

/-- ElemCount (R105). -/
def elemCount (fmt : Nat) : Nat :=
  match fmtTy fmt with
  | some t => t.count
  | none => 128

/-- The value times 2^j. -/
def Ext.scale (x : Ext) (j : Int) : Ext :=
  match x with
  | .fin n m k s => .fin n m (k + j) s
  | y => y

/-- DecodeLine (R104, R106, R107): the values of a described line, with the codebooks of the tile; none on failure. -/
def decodeLine (cb : Nat → Nat) (line desc : Nat) : Option (List Ext) :=
  let fmt := desc / 256
  let scale := desc % 256
  let put := fun (x : Ext) => if scale = 255 then .nan false else x.scale ((scale : Int) - 127)
  match fmtTy fmt with
  | some t => some ((elemsOf line t.width t.count).map (fun n => put (decodeTy t n)))
  | none =>
    if 0x20 ≤ fmt ∧ fmt ≤ 0x23 then
      some ((elemsOf line 4 128).map (fun n => put (decodeTy tBF16 (lineElem (cb (fmt - 0x20)) 16 n))))
    else none

/-- ClassJoin (R111). -/
def classJoin (a b : AccClass) : AccClass :=
  match a, b with
  | .fin, c => c
  | c, .fin => c
  | .pinf, .pinf => .pinf
  | .ninf, .ninf => .ninf
  | _, _ => .nan

/-- RoundToUnit (R109) of a finite value. -/
def roundToUnit (neg : Bool) (m : Nat) (k : Int) (anc : Int) : Int × Bool := roundAt neg m k (anc - 56) false 0

/-- AccumulateProduct (R110): the element after one product, and the flag AIX. -/
def accumulate (anc : Int) (e : AccElem) (a b : Ext) : AccElem × Flags :=
  match a, b with
  | .fin na ma ka _, .fin nb mb kb _ =>
    let p := roundToUnit (na != nb) (ma * mb) (ka + kb) anc
    ({ sum := e.sum + BitVec.ofInt 88 p.1, x := e.x || decide (2 ^ 79 ≤ p.1.natAbs), cls := e.cls },
     if p.2 then flAIX else 0)
  | a, b =>
    let c : AccClass :=
      if a.isNaN || b.isNaN || a.isZero || b.isZero then .nan
      else if a.isNeg = b.isNeg then .pinf else .ninf
    ({ e with cls := classJoin e.cls c }, 0)

/-- AccCombine (R112). -/
def accCombine (e f : AccElem) : AccElem := { sum := e.sum + f.sum, x := e.x || f.x, cls := classJoin e.cls f.cls }

/-- AccQ (R113). -/
def accQ (e : AccElem) : Int × Bool :=
  if e.cls ≠ .fin then (0, false)
  else
    let s := e.sum.toInt
    if e.x || decide (s < -(2 ^ 79)) || decide (2 ^ 79 ≤ s) then (if 0 ≤ s then 2 ^ 79 - 1 else -(2 ^ 79), true)
    else (s, false)

/-- The extended real that an element denotes (R108, R113). -/
def accExt (anc : Int) (e : AccElem) : Ext :=
  match e.cls with
  | .fin => (Ext.ofInt (accQ e).1).scale (anc - 56)
  | .pinf => .inf false
  | .ninf => .inf true
  | .nan => .nan false

/-- Element e of an accumulator. -/
def Acc.elem (a : Acc) (e : Nat) : AccElem := SMap.get {} a.elems e

/-- The 16 bytes of an element in the raw form (R114). -/
def rawElem (anc : BitVec 16) (e : AccElem) : List Byte :=
  toBytes 10 (wrapEnc (accQ e).1 80) ++
  [match e.cls with | .fin => (0 : Byte) | .pinf => 1 | .ninf => 2 | .nan => 3, 0] ++ toBytes 2 anc.toNat ++ [0, 0]

/-- The class a raw byte 10 names (R114). -/
def rawClass (b : Nat) : AccClass := match b with | 0 => .fin | 1 => .pinf | 2 => .ninf | _ => .nan

/-- The 16 bytes of a raw element are valid by themselves (R114). -/
def rawValid (l : List Byte) : Bool :=
  (l.getD 11 0) == 0 && (l.getD 14 0) == 0 && (l.getD 15 0) == 0 && decide ((l.getD 10 0).toNat ≤ 3) &&
  ((l.getD 10 0) == 0 || ofBytes (l.take 10) == 0)

/-- An element from its raw bytes: S is q sign-extended, X 0 (R112, R114). -/
def ofRaw (l : List Byte) : AccElem :=
  { sum := (BitVec.ofNat 80 (ofBytes (l.take 10))).signExtend 88, x := false, cls := rawClass (l.getD 10 0).toNat }

/-- The larger of two finite magnitudes m times 2^k. -/
def maxMag (a b : Nat × Int) : Nat × Int :=
  let k := min a.2 b.2
  if a.1 * 2 ^ (a.2 - k).toNat < b.1 * 2 ^ (b.2 - k).toNat then b else a

/-- The magnitude a is at most b times 2^j. -/
def magLe (a b : Nat × Int) (j : Int) : Bool :=
  let k := min a.2 (b.2 + j)
  decide (a.1 * 2 ^ (a.2 - k).toNat ≤ b.1 * 2 ^ (b.2 + j - k).toNat)

/-- MaxFinite of a target of QuantizeLine (R116). -/
def quantMax (t : Ty) : Nat × Int :=
  match t with
  | .int _ _ => (127, 0)
  | .flt _ eb mb bias kind => maxFinite eb mb bias kind

/-- The smallest s from s up with m at most MaxFinite(F) times 2^(s - 127), fuel values being left; 254 if there is none. -/
def quantScale (mx m : Nat × Int) : Nat → Nat → Nat
  | 0, _ => 254
  | f + 1, s => if magLe m mx ((s : Int) - 127) then s else quantScale mx m f (s + 1)

/-- One element encoded by QuantizeLine (R116): with saturation; i8 rounds to nearest and clamps. -/
def quantElem (t : Ty) (x : Ext) : Nat × Flags :=
  match t with
  | .flt _ eb mb bias kind => encodeFloat eb mb bias kind x 0 true
  | .int s w =>
    match x with
    | .nan _ => (0, 0)
    | .inf neg => (wrapEnc (if neg then intMin s w else intMax s w) w, flOF ||| flNX)
    | .fin neg m k st =>
      let y := roundAt neg m k 0 st 0
      if y.1 < intMin s w ∨ intMax s w < y.1 then (wrapEnc (satInt y.1 s w) w, flOF ||| flNX)
      else (wrapEnc y.1 w, if y.2 then flNX else 0)

/-- QuantizeLine (R116): the line, the descriptor and the flags. -/
def quantizeLine (fmt : Nat) (x : List Ext) : Nat × Nat × Flags :=
  match fmtTy fmt with
  | none => (0, fmt * 256, 0)
  | some t =>
    if x.any Ext.isNaN then (0, fmt * 256 + 255, 0)
    else
      let m := x.foldl (fun acc y => match y with | .fin _ m k _ => maxMag acc (m, k) | _ => acc) (0, 0)
      let s := if m.1 = 0 then 0 else quantScale (quantMax t) m 255 0
      let es := x.map (fun y => quantElem t (y.scale (127 - (s : Int))))
      (packElems t.width (es.map Prod.fst), fmt * 256 + s, es.foldl (fun f e => f ||| e.2) 0)

end Sys2Proof.Machine
end

