-- ==== Sys2Proof/Machine/Ops.lean ====
section
/-! DEFINITION. The named operations over the state that the meanings share: who is where, clocks, registers, supervisor
events, error counts, the vote and arrival of a tile, taking an exception and returning from one, the completion of a unit
with its loop back edges, waits and stalls, and the accesses to local memory with their checks and pre-images. -/
namespace Sys2Proof.Machine

/-! ### Numbers of things -/

/-- The tile is a management tile (R478); their numbers begin at 2^28 (log entry 6). -/
def isMgmt (t : Nat) : Bool := 2 ^ 28 ≤ t
/-- The number of management tile j of a module. -/
def mgmtTile (m j : Nat) : Nat := 2 ^ 28 + (m * 8 + j) * 16
/-- The module a tile belongs to. -/
def modOf (t : Nat) : Nat := if isMgmt t then (t - 2 ^ 28) / 128 else t / 2 ^ 18
/-- PTID (R2); a management tile shows its index (log entry 6). -/
def ptidOf (t : Nat) : Nat := if isMgmt t then (t - 2 ^ 28) / 16 % 8 else t % 2 ^ 18
/-- The C-die of a tile over all modules. -/
def dieOf (t : Nat) : Nat := t / 2 ^ 14
/-- The cluster of a tile; a management tile has one of its own, holding its private instruction store (R478). -/
def clusterOf (t : Nat) : Nat := t / 16

/-- The physical tile number names a tile (R3). -/
def ptidExists (p : Nat) : Bool := decide (p / 512 % 32 < 20) && decide (p / 16 % 32 < 20) && decide (p < 2 ^ 18)

def State.tile (s : State) (t : Nat) : Tile := SMap.get {} s.tiles t
def State.cluster (s : State) (k : Nat) : Cluster := SMap.get {} s.clusters k
def State.die (s : State) (d : Nat) : Die := SMap.get {} s.dies d
def State.mod (s : State) (m : Nat) : Module := SMap.get {} s.mods m
def State.ctx (s : State) (c : Nat) : Ctx := SMap.get {} s.ctxs c

def State.setTile (s : State) (t : Nat) (x : Tile) : State := { s with tiles := SMap.set s.tiles t x }
def State.setCluster (s : State) (k : Nat) (x : Cluster) : State := { s with clusters := SMap.set s.clusters k x }
def State.setDie (s : State) (d : Nat) (x : Die) : State := { s with dies := SMap.set s.dies d x }
def State.setMod (s : State) (m : Nat) (x : Module) : State := { s with mods := SMap.set s.mods m x }
def State.setCtx (s : State) (c : Nat) (x : Ctx) : State := { s with ctxs := SMap.set s.ctxs c x }

/-- The context number is allocated (R484). -/
def State.hasCtx (s : State) (c : Nat) : Bool := (SMap.find s.ctxs c).isSome

/-- The context whose partition holds the tile. -/
def State.ctxOf (s : State) (t : Nat) : Option Nat := (s.cluster (clusterOf t)).ctx

/-- The context number an event or an error carries, all ones for none (R479). -/
def State.ctxWord (s : State) (t : Nat) : BitVec 32 :=
  match s.ctxOf t with
  | some c => BitVec.ofNat 32 c
  | none => 0xFFFFFFFF

/-- Strand n of a tile. -/
def Tile.strand (x : Tile) (n : BitVec 2) : Strand := x.strands[n.toNat]'(n.isLt)
def Tile.setStrand (x : Tile) (n : BitVec 2) (r : Strand) : Tile := { x with strands := x.strands.set n.toNat r n.isLt }

def State.strand (s : State) (t : Nat) (n : BitVec 2) : Strand := (s.tile t).strand n
def State.setStrand (s : State) (t : Nat) (n : BitVec 2) (r : Strand) : State := s.setTile t ((s.tile t).setStrand n r)

/-- The tile and the strand whose instruction is being executed. -/
def State.here (s : State) : Tile := s.tile s.curTile
def State.me (s : State) : Strand := s.here.strand s.curStrand
def State.setHere (s : State) (x : Tile) : State := s.setTile s.curTile x
def State.setMe (s : State) (r : Strand) : State := s.setHere (s.here.setStrand s.curStrand r)

/-- STAT.MODE: strands of management tiles run in supervisor mode, all others in user mode (R36). -/
def State.supervisor (s : State) : Bool := isMgmt s.curTile

/-- The tiles of a cluster. -/
def tilesOf (k : Nat) : List Nat := if 2 ^ 24 ≤ k then [16 * k] else span (16 * k) 16

/-- The four strand indices. -/
def strandIx : List (BitVec 2) := [0, 1, 2, 3]

/-- The tiles of the clusters bound to a context, without those of a cluster lost with its island, which stays quarantined
(R499, R500). -/
def State.ctxTiles (s : State) (c : Nat) : List Nat :=
  s.clusters.flatMap (fun e => if e.2.ctx = some c ∧ !e.2.quar then tilesOf e.1 else [])

/-! ### Clocks and deadlines -/

/-- Ticks of the module's fixed reference since its reset (R8, R478): a tick is 16 cycles of the nominal clock. -/
def State.refTick (s : State) (m : Nat) : Nat := s.cycle / 16 - (s.mod m).refZero

/-- The tile's copy of the context tick clock (R227); a management tile counts ticks of the module reference (R478). -/
def State.tick (s : State) (t : Nat) : BitVec 48 :=
  if isMgmt t then BitVec.ofNat 48 (s.refTick (modOf t))
  else match s.ctxOf t with
    | some c => (s.ctx c).clock
    | none => 0

/-- The clock of the tile advances (R228, R478). -/
def State.clockRuns (s : State) (t : Nat) : Bool :=
  isMgmt t || (match s.ctxOf t with
    | some c => (s.ctx c).running
    | none => false)

/-- Expired(t, D) (R230). -/
def expiredAt (t d : BitVec 48) : Bool := decide ((t - d).toNat < 2 ^ 47)

/-- A deadline of a strand of the tile has expired; none expires while the clock is stopped (R228). -/
def State.expired (s : State) (t : Nat) (d : BitVec 48) : Bool := s.clockRuns t && expiredAt (s.tick t) d

/-! ### Registers of the strand -/

/-- s[r]: s0 reads as zero (R13). -/
def State.getS (s : State) (r : BitVec 6) : Word := if r = 0 then 0 else s.me.s[r.toNat]'(r.isLt)

/-- s[r] is written; a write to s0 is discarded (R13). -/
def State.setS (s : State) (r : BitVec 6) (v : Word) : State :=
  if r = 0 then s else s.setMe { s.me with s := s.me.s.set r.toNat v r.isLt }

/-- p[r]: p0 reads as all ones (R13). -/
def State.getP (s : State) (r : BitVec 3) : Word := if r = 0 then BitVec.allOnes 64 else s.me.p[r.toNat]'(r.isLt)

/-- p[r] is written; a write to p0 is discarded (R13). -/
def State.setP (s : State) (r : BitVec 3) (v : Word) : State :=
  if r = 0 then s else s.setMe { s.me with p := s.me.p.set r.toNat v r.isLt }

def State.getV (s : State) (r : BitVec 5) : Line := s.me.v[r.toNat]'(r.isLt)
def State.setV (s : State) (r : BitVec 5) (v : Line) : State := s.setMe { s.me with v := s.me.v.set r.toNat v r.isLt }
def State.getD (s : State) (r : BitVec 3) : Desc := s.me.d[r.toNat]'(r.isLt)
def State.setD (s : State) (r : BitVec 3) (v : Desc) : State := s.setMe { s.me with d := s.me.d.set r.toNat v r.isLt }

def Strand.tok (r : Strand) (k : BitVec 4) : Token := r.k[k.toNat]'(k.isLt)
def Strand.setTok (r : Strand) (k : BitVec 4) (x : Token) : Strand := { r with k := r.k.set k.toNat x k.isLt }
def State.getTok (s : State) (k : BitVec 4) : Token := s.me.tok k
def State.setTok (s : State) (k : BitVec 4) (x : Token) : State := s.setMe (s.me.setTok k x)

/-- The flags an instruction produced are ORed into FLG (R103). -/
def State.orFlags (s : State) (f : Flags) : State := s.setMe { s.me with flg := s.me.flg ||| f.setWidth 19 }

/-- The own address of the instruction being executed: its unit's address past the prefixes (R45). -/
def State.own (s : State) : Nat := s.me.pc.toNat + 4 * s.me.pfx.length

/-! ### Rings and supervisor events -/

def qHead (q : Word) : Nat := bitsOf q.toNat 63 48
def qTail (q : Word) : Nat := bitsOf q.toNat 47 32
def qEn (q : Word) : Bool := bitAt q.toNat 28
def qLog (q : Word) : Nat := bitsOf q.toNat 27 24
def qBase (q : Word) : Nat := bitsOf q.toNat 17 0
def qSize (q : Word) : Nat := 2 ^ (qLog q + 8)

/-- A QCFG value of its fields (R294). -/
def qPack (head tail : Nat) (en : Bool) (log base : Nat) : Word :=
  BitVec.ofNat 64 (head % 65536 * 2 ^ 48 + tail % 65536 * 2 ^ 32 + (if en then 2 ^ 28 else 0) + log % 16 * 2 ^ 24 +
    base % 2 ^ 18)

def Tile.qcfgAt (x : Tile) (q : BitVec 2) : Word := x.qcfg[q.toNat]'(q.isLt)
def Tile.setQcfg (x : Tile) (q : BitVec 2) (v : Word) : Tile := { x with qcfg := x.qcfg.set q.toNat v q.isLt }

/-- The attribute of the region that holds a local address (R274): 0 VERSIONED, 1 SCRATCH, 2 LANDING, 3 QUEUE. -/
def Tile.attr (x : Tile) (a : Nat) : Nat :=
  let r := a / 4096 % 64
  if r < 32 then bitsOf x.rega0.toNat (2 * r + 1) (2 * r) else bitsOf x.rega1.toNat (2 * (r - 32) + 1) (2 * (r - 32))

/-- Queue q exists (R294); the rings of a management tile need no region attribute (R478, log entry 6). -/
def Tile.ringExists (x : Tile) (mgmt : Bool) (q : BitVec 2) : Bool :=
  let c := x.qcfgAt q
  qEn c && decide (qLog c ≤ 7) && decide (qBase c + qSize c ≤ 2 ^ 18) &&
    (mgmt || (span (qBase c / 4096) ((qBase c + qSize c - 1) / 4096 + 1 - qBase c / 4096)).all (fun r => x.attr (4096 * r) == 3))

/-- The spans of undetermined bytes without those from lo on for n bytes. -/
def dropUndef (us : List Undef) (lo n : Nat) : List Undef :=
  us.flatMap (fun u =>
    (if u.lo < lo then [{ u with len := min u.len (lo - u.lo) }] else []) ++
    (if lo + n < u.lo + u.len then
      (let st := max u.lo (lo + n)
       [{ lo := st, len := u.lo + u.len - st, base := u.base + (st - u.lo) }]) else []))

/-- The byte of local memory at an address; a byte the architecture does not fix is a free value (log entry 4). -/
def Tile.byte (x : Tile) (a : Nat) : Byte :=
  match x.undef.find? (fun u => decide (u.lo ≤ a) && decide (a < u.lo + u.len)) with
  | some u => Config.freeByte (u.base + (a - u.lo))
  | none => Memory.read x.mem a

def Tile.bytes (x : Tile) (a : Nat) : Nat → List Byte
  | 0 => []
  | n + 1 => x.byte a :: Tile.bytes x (a + 1) n

/-- LM[a, n] (R117). -/
def Tile.lm (x : Tile) (a n : Nat) : Nat := ofBytes (x.bytes a n)

/-- Bytes are written to local memory from an address, without checks or pre-images. -/
def Tile.writeBytes (x : Tile) (a : Nat) (l : List Byte) : Tile :=
  { x with mem := Memory.writeBytes x.mem a l, undef := if x.undef = [] then [] else dropUndef x.undef a l.length }

/-- The bytes of a span become values the architecture does not fix (log entry 4). -/
def Tile.forget (x : Tile) (lo len base : Nat) : Tile :=
  { x with mem := Memory.clear x.mem lo len, undef := { lo := lo, len := len, base := base } :: dropUndef x.undef lo len }

/-- A span of a tile becomes undetermined, with fresh free values. -/
def State.forget (s : State) (t lo len : Nat) : State :=
  { s.setTile t ((s.tile t).forget lo len s.free) with free := s.free + len }

/-- A record: its header and its payload, padded to a multiple of 16 (R295). -/
def recordBytes (len kind src ident seq num : Nat) (payload : List Byte) : List Byte :=
  toBytes 2 len ++ toBytes 1 kind ++ toBytes 1 src ++ toBytes 4 ident ++ toBytes 4 seq ++ toBytes 4 num ++ payload ++
    List.replicate ((16 - payload.length % 16) % 16) 0

/-- Where a record enters a ring, if it fits, and the ring's TAIL after it (AppendRecord of R298); ch is the head that frees space. -/
def Tile.ringParts (x : Tile) (q : BitVec 2) (ch : Nat) (rec : List Byte) : Option (List (Nat × List Byte) × Nat) :=
  let c := x.qcfgAt q
  let size := qSize c
  let z := rec.length
  let pos := qTail c % size
  let atEnd := size - pos
  let used := (qTail c + 65536 - ch) % 65536
  let free := size - used
  if z ≤ atEnd ∧ z ≤ free then some ([(qBase c + pos, rec)], qTail c + z)
  else if atEnd < z ∧ atEnd + z ≤ free then
    some ([(qBase c + pos, recordBytes 0 2 0 0 0 0 []), (qBase c, rec)], qTail c + atEnd + z)
  else none

/-- TAIL of a ring moves (R294). -/
def Tile.setTail (x : Tile) (q : BitVec 2) (tail : Nat) : Tile :=
  let c := x.qcfgAt q
  x.setQcfg q (qPack (qHead c) tail (qEn c) (qLog c) (qBase c))

/-- The ring with a record written, if it fits (R298). -/
def Tile.tryAppend (x : Tile) (q : BitVec 2) (ch : Nat) (rec : List Byte) : Option Tile :=
  (x.ringParts q ch rec).map (fun r => (r.1.foldl (fun (y : Tile) p => y.writeBytes p.1 p.2) x).setTail q r.2)

def Tile.overflowAt (x : Tile) (q : BitVec 2) : List (List Byte) := x.overflow[q.toNat]'(q.isLt)
def Tile.setOverflow (x : Tile) (q : BitVec 2) (l : List (List Byte)) : Tile := { x with overflow := x.overflow.set q.toNat l q.isLt }
def Tile.cheadAt (x : Tile) (q : BitVec 2) : Nat := (x.chead[q.toNat]'(q.isLt)).toNat

/-- AppendRecord (R298): the record enters the ring or its overflow list. -/
def Tile.appendRecord (x : Tile) (q : BitVec 2) (rec : List Byte) : Tile :=
  if x.overflowAt q ≠ [] then x.setOverflow q (x.overflowAt q ++ [rec])
  else match x.tryAppend q (x.cheadAt q) rec with
    | some y => y
    | none => x.setOverflow q [rec]

/-- The record of a supervisor event (R479): source kind 4. -/
def Event.record (e : Event) : List Byte :=
  toBytes 2 16 ++ [0, 4] ++ toBytes 4 e.ctx.toNat ++ toBytes 8 e.ext.toNat ++
  toBytes 2 e.code.toNat ++ toBytes 1 e.strand.toNat ++ [0] ++ toBytes 4 e.unit.toNat ++ toBytes 8 e.value.toNat

/-- The event ring takes the record of an event, if it has room (R479); a management tile frees space as HEAD moves. -/
def State.deliverEvent (s : State) (m : Nat) (e : Event) : Option State :=
  let evt := (s.mod m).evt.toNat
  let t := mgmtTile m (bitsOf evt 2 0)
  let q := BitVec.ofNat 2 (bitsOf evt 4 3)
  let x := s.tile t
  if x.ringExists true q then (x.tryAppend q (qHead (x.qcfgAt q)) e.record).map (fun y => s.setTile t y) else none

/-- A supervisor event is sent in a module: it enters the ring, or Axlos keeps it, up to 4,096, or it is lost (R479). -/
def State.emit (s : State) (m : Nat) (e : Event) : State :=
  let md := s.mod m
  let hold : State :=
    if md.events.length < 4096 then s.setMod m { md with events := md.events ++ [e] }
    else s.setMod m { md with evlost := md.evlost + 1 }
  if md.events = [] then (s.deliverEvent m e).getD hold else hold

/-- The event of a tile (R536). -/
def State.tileEvent (s : State) (t : Nat) (code : BitVec 16) (strand : BitVec 8) (value ext : Word) : State :=
  s.emit (modOf t) { ctx := s.ctxWord t, ext := ext, code := code, strand := strand, unit := BitVec.ofNat 32 (ptidOf t), value := value }

/-! ### Error counts -/

/-- The bank of the storage of an error (R17, R440, R528): that of a local line is address bits 9:6, and a mark in retention memory names
its own. -/
def ErrAt.bank : ErrAt → Nat
  | .line k => k % 16
  | .side k => k % 16
  | .acc a => a
  | .store b => b % 16
  | .lane e _ => e
  | .retention b => b
  | _ => 0

/-- The error-count window that holds a tick of the module reference (R439): windows follow one another without gaps, and COUNT is 0 at
the start of each. -/
def Tile.window (x : Tile) (now : Nat) : Tile :=
  let win := x.ewin.toNat % 2 ^ 48
  if now < x.winAt + win then x
  else
    { x with ecnt := BitVec.ofNat 64 (x.ecnt.toNat - x.ecnt.toNat % 2 ^ 16),
             winAt := if win = 0 then now else now - (now - x.winAt) % win }

/-- One error is counted in a tile (R438 to R440); part is the bank, lane or block of the event. -/
def State.countError (s : State) (t : Nat) (cause : BitVec 8) (part : Nat) : State :=
  let x := (s.tile t).window (s.refTick (modOf t))
  let e := x.ecnt.toNat
  let n := min (bitsOf e 15 0 + 1) 65535
  let thr := bitsOf x.ethr.toNat 15 0
  let lasting := thr ≠ 0 ∧ n = thr
  let e' := (if bitAt e 63 ∨ lasting then 2 ^ 63 else 0) + cause.toNat * 2 ^ 32 + n
  let s := s.setTile t { x with ecnt := BitVec.ofNat 64 e' }
  if lasting then s.tileEvent t 0x000B 0 (BitVec.ofNat 64 (cause.toNat + part % 256 * 256)) 0 else s

/-! ### The vote and the arrival of a tile -/

def State.send (s : State) (m : Msg) : State := { s with net := s.net ++ [m] }

/-- The tile's vote becomes abort with a cause; the largest cause stays (R305). A tile that has sent its ARRIVE withdraws it. -/
def State.voteAbort (s : State) (t : Nat) (cause : BitVec 8) : State :=
  let x := s.tile t
  let y := { x with vote := if x.vote.toNat < cause.toNat then cause else x.vote }
  if x.vote = 0 ∧ x.bar = .sent ∧ x.dbg.decision.isNone then
    match s.ctxOf t with
    | some c => (s.setTile t { y with bar := .withdrawing }).send (.withdraw c (.tile t) (.cluster (clusterOf t)) x.num)
    | none => s.setTile t y
  else s.setTile t y

/-- CBAR operators combined (R311): the value and NV of the f32 forms. -/
def combineOp (op : BitVec 3) (a b : Word) : Word × BitVec 5 :=
  let f := fun (mx : Bool) =>
    let r := extMinMax mx (decodeTy tF32 (a.toNat % 2 ^ 32)) (decodeTy tF32 (b.toNat % 2 ^ 32))
    (BitVec.ofNat 64 (encodeTy tF32 r.1 0 false).1, if r.2 = 0 then (0 : BitVec 5) else 0x10)
  match op.toNat with
  | 1 => (a + b, 0)
  | 2 => (if a.toInt ≤ b.toInt then a else b, 0)
  | 3 => (if a.toInt ≤ b.toInt then b else a, 0)
  | 4 => f false
  | 5 => f true
  | 6 => (a ||| b, 0)
  | 7 => (a &&& b, 0)
  | _ => (0, 0)

/-- Two arrivals combined at a node or a tile (R301, R311). -/
def combine2 (a b : Arrive) : Arrive :=
  let v := combineOp a.op a.value b.value
  let both := a.op ≠ 0 ∧ b.op ≠ 0
  let pick := if a.abort = false then b else if b.abort = false then a
    else if a.atile < b.atile then a else if b.atile < a.atile then b
    else if a.cause.toNat ≤ b.cause.toNat then b else a
  { num := a.num, abort := a.abort || b.abort, atile := pick.atile, cause := pick.cause, code := pick.code,
    irv := a.irv || b.irv, lost := a.lost || b.lost, hold := a.hold || b.hold, ck := a.ck || b.ck,
    op := if a.op ≠ 0 then a.op else b.op,
    opTile := if both then min a.opTile b.opTile else if a.op ≠ 0 then a.opTile else b.opTile,
    value := if both then v.1 else if a.op ≠ 0 then a.value else b.value,
    flags := a.flags ||| b.flags ||| (if both then v.2 else 0), aflags := a.aflags ||| b.aflags }

/-- Operators differ among arrivals (R311). -/
def opsConflict (l : List Arrive) : Bool :=
  match (l.map (fun a => a.op)).filter (fun o => o != 0) with
  | [] => false
  | o :: r => r.any (fun p => p != o)

/-- The arrivals of a node's children, or of a tile's strands, combined with base (R301, R311). -/
def combineAll (base : Arrive) (l : List Arrive) : Arrive :=
  let r := l.foldl combine2 base
  if opsConflict l then
    combine2 { r with op := 0, value := 0 } { r with abort := true, atile := r.opTile, cause := 0xF1, code := 0, op := r.op }
  else r

/-- The contribution of one strand to minf32 or maxf32 as R311 reads it: bits 31:0, a NaN as the canonical one (R92), and NV for a
signalling NaN, even where it is the only contribution. -/
def loneF32 (v : Word) : Word × BitVec 5 :=
  match decodeTy tF32 (v.toNat % 2 ^ 32) with
  | .nan sig => (0x7FC00000, if sig then 0x10 else 0)
  | _ => (BitVec.ofNat 64 (v.toNat % 2 ^ 32), 0)

/-- The arrival of one strand as contents of ARRIVE: of minf32 and maxf32 the value's bits 31:0 (R311). -/
def Arrival.contents (a : Arrival) (base : Arrive) : Arrive :=
  let f := a.op = 4 ∨ a.op = 5
  { base with abort := false, irv := false, lost := false, hold := false, ck := a.ck, op := a.op,
              value := if f then (loneF32 a.value).1 else a.value,
              flags := if f then a.flags ||| (loneF32 a.value).2 else a.flags, aflags := 0 }

/-- The ARRIVE of a tile: its vote, marks and apply flags, and its strands' contributions (R300, R307). -/
def Tile.arrive (x : Tile) : Arrive :=
  let base : Arrive :=
    { num := x.num, abort := x.vote ≠ 0, atile := x.vtid.toNat, cause := x.vote, code := x.code, irv := x.irv, lost := x.lost,
      hold := x.hold, ck := false, op := 0, opTile := x.vtid.toNat, value := 0, flags := 0, aflags := x.aflags }
  combineAll base (x.strands.toList.filterMap (fun r => r.arrival.map (fun a => a.contents base)))

/-- The strand has trapped under the policy ABORT and waits for the abort (R421). -/
def Strand.aborted (r : Strand) : Bool := match r.wait with | some w => w.kind == .aborted | none => false

/-- The strand counts as arrived (R307). -/
def Strand.arrived (r : Strand) : Bool :=
  match r.st with
  | .retired => !r.retiredNow || (r.oakTile == 0 && r.oakCtx == 0 && r.oakSys == 0)
  | .wait => r.arrival.isSome || r.aborted
  | _ => false

/-- The tile forms its arrival and sends it when every strand has arrived (R307, R308). -/
def State.formArrival (s : State) (t : Nat) : State :=
  let x := s.tile t
  match s.ctxOf t with
  | none => s
  | some c =>
    if (s.ctx c).started ∧ !(s.ctx c).done ∧ x.bar = .opened ∧ x.strands.toList.all Strand.arrived then
      let a := x.arrive
      let clash := opsConflict (x.strands.toList.filterMap (fun r => r.arrival.map (fun b => b.contents a)))
      let x := { x with bar := .sent, vote := if clash then 0xF1 else x.vote }
      (s.setTile t x).send (.arrive c (.tile t) (.cluster (clusterOf t)) a)
    else s

/-! ### Branch trace -/

/-- The branch-trace buffer: whole lines of eight records go to memory at BTBASE + BTPTR (R515). -/
def Debug.flushLine (d : Debug) (mem : Memory) : Debug × Memory :=
  if d.btLine = [] then (d, mem)
  else
    let base := bitsOf d.btBase.toNat 47 0
    let lim := d.btLim.toNat
    let ptr := d.btPtr.toNat
    let full := bitAt d.btCtl.toNat 2
    let words := d.btLine ++ List.replicate (8 - d.btLine.length) 0
    if full ∨ lim < 64 then ({ d with btLine := [] }, mem)
    else
      let next := ptr + 64
      let mem := Memory.writeBytes mem (base + ptr) (words.flatMap (fun w => toBytes 8 w.toNat))
      let wrap := bitAt d.btCtl.toNat 1
      ({ d with btLine := [], btPtr := BitVec.ofNat 64 (if lim ≤ next ∧ wrap then 0 else next),
                btCtl := if lim ≤ next ∧ !wrap then d.btCtl ||| 4 else d.btCtl }, mem)

/-- A protected context's tiles record nothing (R523). -/
def State.hiddenTile (s : State) (t : Nat) : Bool := match s.ctxOf t with | some c => (s.ctx c).prot | none => false

/-- A record, its DELTA still 0, is collected; whole lines are written (R515, R516). -/
def State.traceRecord (s : State) (t : Nat) (w : Nat) : State :=
  let x := s.tile t
  let w := w + min (s.cycle - x.dbg.btLast) (2 ^ 24 - 1)
  let d : Debug := { x.dbg with btLine := x.dbg.btLine ++ [BitVec.ofNat 64 w], btLast := s.cycle }
  if d.btLine.length < 8 then s.setTile t { x with dbg := d }
  else
    let m := bitsOf d.btBase.toNat 57 48
    let r := d.flushLine (s.mod m).mem
    (s.setTile t { x with dbg := r.1 }).setMod m { s.mod m with mem := r.2 }

/-- A record of kind kd for strand n, with A and B, when the strand is traced (R515, R516). -/
def State.branchRecord (s : State) (t : Nat) (n : BitVec 2) (kd a b : Nat) : State :=
  let ctl := (s.tile t).dbg.btCtl.toNat
  if bitAt ctl 0 ∧ bitAt ctl (4 + n.toNat) ∧ !s.hiddenTile t then
    s.traceRecord t (kd * 2 ^ 60 + n.toNat * 2 ^ 58 + a % 2 ^ 18 * 2 ^ 40 + b % 2 ^ 16 * 2 ^ 24)
  else s

/-- The partial line is written, padded with zero records (R515). -/
def State.branchFlush (s : State) (t : Nat) : State :=
  let x := s.tile t
  let m := bitsOf x.dbg.btBase.toNat 57 48
  let r := x.dbg.flushLine (s.mod m).mem
  if x.dbg.btLine = [] then s else (s.setTile t { x with dbg := r.1 }).setMod m { s.mod m with mem := r.2 }

/-- A BARRIER record of the outcome k: 0 commit, 1 abort, 2 fatal, and the partial line behind it (R515, R516). -/
def State.barrierRecord (s : State) (t k num : Nat) : State :=
  if bitAt (s.tile t).dbg.btCtl.toNat 0 ∧ !s.hiddenTile t then
    (s.traceRecord t (5 * 2 ^ 60 + k * 2 ^ 56 + num % 2 ^ 32 * 2 ^ 24)).branchFlush t
  else s

/-! ### Local stores not yet performed -/

/-- The byte with the bits that a store writes. -/
def WCell.onto (c : WCell) (b : Byte) : Byte := if c.mask = 0xFF then c.val else (b &&& ~~~c.mask) ||| (c.val &&& c.mask)

/-- The side band of a line (R18). -/
def Tile.bandAt (x : Tile) (line : Nat) : BitVec 32 := SMap.get 0 x.band line
def Tile.setBand (x : Tile) (line : Nat) (b : BitVec 32) : Tile := { x with band := SMap.set x.band line b }

/-- The line's descriptor is written; its tags stay (R18). -/
def Tile.setDesc (x : Tile) (line : Nat) (d : BitVec 16) : Tile :=
  x.setBand line ((x.bandAt line &&& 0xFFFF) ||| BitVec.ofNat 32 (d.toNat * 2 ^ 16))

/-- The part's bits and its descriptor are written. -/
def Tile.putPart (x : Tile) (p : Pend) : Tile :=
  let y := p.cells.foldl (fun (y : Tile) c => y.writeBytes c.addr [c.onto (y.byte c.addr)]) x
  match p.desc with | some d => y.setDesc p.line d | none => y

/-- RETU (R277): 64 for each line pre-image and 2,560 for each accumulator pre-image. -/
def Tile.retu (x : Tile) : Nat := 64 * x.pre.length + 2560 * x.accPre.length

/-- A write to the line needs a pre-image (R277, R279); nothing is logged on a management tile (R478). -/
def Tile.needsPre (x : Tile) (mgmt : Bool) (line : Nat) : Bool :=
  !mgmt && !x.irv && (SMap.find x.pre line).isNone && (x.attr (64 * line) == 0 || x.attr (64 * line) == 2)

/-- The lines that the n bytes from a touch. -/
def linesOf (a n : Nat) : List Nat := if n = 0 then [] else span (a / 64) ((a + n - 1) / 64 + 1 - a / 64)

/-- The pre-image of a line is taken, or the bytes of mask are noted as written without one (R276, R277). A byte written without one
before stands in a later pre-image with its value at the last commit (R276). -/
def Tile.touch (x : Tile) (mgmt : Bool) (line : Nat) (mask : BitVec 64) : Tile :=
  if x.needsPre mgmt line then
    let bytes := match SMap.find x.loose line with
      | none => BitVec.ofNat 512 (x.lm (64 * line) 64)
      | some l => BitVec.ofNat 512 (ofBytes ((span 0 64).map (fun i =>
          if l.mask.getLsbD i then BitVec.ofNat 8 (l.bytes.toNat / 2 ^ (8 * i)) else x.byte (64 * line + i))))
    { x with pre := SMap.set x.pre line { bytes := bytes, band := x.bandAt line } }
  else if mgmt ∨ x.irv ∨ x.attr (64 * line) = 0 ∨ x.attr (64 * line) = 2 then x
  else { x with loose := SMap.set x.loose line (match SMap.find x.loose line with
    | none => { mask := mask, bytes := BitVec.ofNat 512 (x.lm (64 * line) 64) }
    | some l => { l with mask := l.mask ||| mask }) }

/-- The bytes of a line that the n bytes from a cover, as a mask. -/
def lineMask (line a n : Nat) : BitVec 64 :=
  BitVec.ofNat 64 ((span 0 64).foldl (fun m i => if a ≤ 64 * line + i ∧ 64 * line + i < a + n then m + 2 ^ i else m) 0)

/-- The bytes of its line that a part writes, as a mask. -/
def Pend.mask (p : Pend) : BitVec 64 := p.cells.foldl (fun m c => m ||| (1#64 <<< (c.addr % 64))) 0

/-- A part of a local store is performed: with the pre-image that the attribute now in force asks for (R276, R277). -/
def Tile.performPart (mgmt : Bool) (x : Tile) (p : Pend) : Tile := (x.touch mgmt p.line p.mask).putPart p

/-- The local stores that f picks are performed, in the order of the list (R347, R348). -/
def Tile.performWhere (x : Tile) (mgmt : Bool) (f : Pend → Bool) : Tile :=
  (x.sbuf.filter f).foldl (Tile.performPart mgmt) { x with sbuf := x.sbuf.filter (fun e => !f e) }

/-- The local stores of a tile that are not yet performed are performed (R348). -/
def Tile.performAll (x : Tile) (mgmt : Bool) : Tile := x.sbuf.foldl (Tile.performPart mgmt) { x with sbuf := [] }

/-- Every earlier local store of the strand is performed (R32, R349). -/
def State.release (s : State) : State :=
  if s.here.sbuf.any (fun e => e.strand == s.curStrand) then s.setHere (s.here.performWhere s.supervisor (fun e => e.strand == s.curStrand))
  else s

/-! ### Exceptions -/

/-- Why an instruction does not complete: a trap (cause, SUB, TVAL, and whether it is a lost error, R432), a trap for an error that
counts, with its bank or lane (R439, R440), a stall of R234, a wait that goes on, the report of the held fault of the strand's MMA
(R198), or one of these after reads that found correctable errors, which stay corrected and counted (R429). -/
inductive Stop where
  | trap (c : BitVec 8) (sub : BitVec 8) (tval : BitVec 64) (lost : Bool)
  | counted (c : BitVec 8) (sub : BitVec 8) (tval : BitVec 64) (lost : Bool) (part : Nat)
  | stall (sub : BitVec 8) (tval : BitVec 64)
  | wait (w : WaitKind)
  | report
  | soft (locs : List ErrAt) (e : Stop)
deriving DecidableEq, Repr

/-- Where the strand goes when the instruction completes: sequentially, past a loop (R146, R150), by a taken transfer of
R47, by RTT, or nowhere (RETIRE). -/
inductive Flow where
  | seq
  | skip (a : Nat)
  | jump (a : Nat)
  | rtt (a : Nat)
  | stop
deriving DecidableEq, Repr

/-- The effect of an instruction: the state after it and where it goes, or why it does not complete. -/
abbrev Eff := Except Stop (State × Flow)

/-- A trap without a lost error. -/
def raise {α : Type} (c sub : BitVec 8) (tval : Word) : Except Stop α := .error (.trap c sub tval false)

def cILLOP : BitVec 8 := 0x01
def cILLENC : BitVec 8 := 0x02
def cILLPFX : BitVec 8 := 0x03
def cORPHAN : BitVec 8 := 0x04
def cPFXMIS : BitVec 8 := 0x05
def cLANDING : BitVec 8 := 0x06
def cFETCH : BitVec 8 := 0x07
def cMISAL : BitVec 8 := 0x08
def cBOUND : BitVec 8 := 0x09
def cPRIV : BitVec 8 := 0x0A
def cLOOP : BitVec 8 := 0x0B
def cDIV0 : BitVec 8 := 0x0C
def cDESC : BitVec 8 := 0x0D
def cFMT : BitVec 8 := 0x0E
def cTOKEN : BitVec 8 := 0x0F
def cDEADLINE : BitVec 8 := 0x10
def cLOCK : BitVec 8 := 0x11
def cRETFULL : BitVec 8 := 0x12
def cSSN : BitVec 8 := 0x13
def cPFREAD : BitVec 8 := 0x20
def cPFWRITE : BitVec 8 := 0x21
def cPROT : BitVec 8 := 0x22
def cTPOISON : BitVec 8 := 0x23
def cDPOISON : BitVec 8 := 0x24
def cREMOTE : BitVec 8 := 0x25
def cQOVER : BitVec 8 := 0x26
def cSRAM : BitVec 8 := 0x30
def cPARITY : BitVec 8 := 0x31
def cSHADOW : BitVec 8 := 0x32
def cLINK : BitVec 8 := 0x33
def cACCOVF : BitVec 8 := 0x34
def cBREAK : BitVec 8 := 0x38
def cWATCH : BitVec 8 := 0x39
def cSTEP : BitVec 8 := 0x3A

/-- The policy that TPOL assigns to the class of a cause (R419, R420): 0 HANDLE, 1 ABORT, 2 ESCALATE. -/
def policyOf (tpol : BitVec 12) (c : BitVec 8) : Nat :=
  let n := c.toNat
  if n ≤ 0x0F then bitsOf tpol.toNat 1 0
  else if n ≤ 0x12 then bitsOf tpol.toNat 3 2
  else if n = 0x23 then 1
  else if 0x20 ≤ n ∧ n ≤ 0x26 then bitsOf tpol.toNat 5 4
  else if 0x30 ≤ n ∧ n ≤ 0x34 then bitsOf tpol.toNat 7 6
  else if 0x38 ≤ n ∧ n ≤ 0x3A then bitsOf tpol.toNat 9 8
  else if 0x40 ≤ n ∧ n ≤ 0x7F then bitsOf tpol.toNat 11 10
  else 2

/-- A halt of a tile with XOUT sends a halt request to every other tile of its context, unless a request has halted it
(R507). -/
def State.passHalt (s : State) (t : Nat) (reason : BitVec 4) : State :=
  match s.ctxOf t with
  | some c =>
    if (s.tile t).dbg.xout ∧ reason ≠ 6 then ((s.ctxTiles c).filter (fun u => u != t)).foldl (fun u k => u.send (.haltRequest k c)) s else s
  | none => s

/-- The tile is halted and none of its strands steps: while one does, the tile counts as resumed for its context's clock (R228, R509). -/
def Tile.stopped (x : Tile) : Bool := x.dbg.halted && !x.strands.toList.any (fun r => r.stepping)

/-- The tile halts with a reason: every strand enters HALT and keeps the state it held (R506). A unit that halts its tile in a step sends
no request (R507). -/
def State.haltTile (s : State) (t : Nat) (reason : BitVec 4) : State :=
  let x := s.tile t
  let halt := fun (r : Strand) => if r.st = .halt then r else { r with before := some r.st, st := .halt, stepping := false, early := {} }
  let y := { x with strands := #v[halt (x.strand 0), halt (x.strand 1), halt (x.strand 2), halt (x.strand 3)],
                    dbg := { x.dbg with halted := true, hr := reason } }
  let u := (s.setTile t y).branchFlush t
  if x.dbg.halted then u else u.passHalt t reason

/-- The unit that a cause belongs to (R516): WATCHPOINT and SINGLE_STEP come after their unit has retired (R423). -/
def Strand.unitOf (r : Strand) (c : BitVec 8) : BitVec 16 := if c = cWATCH ∨ c = cSTEP then r.stepAt else r.pc

/-- The state after R38 and R506: the strand of the instruction takes cause c with SUB and TVAL, ret being the return
address; its earlier local stores have been performed (R32). A debug-class cause with the debug module enabled halts the tile instead
(R421). -/
def State.takeTrap (s : State) (c sub : BitVec 8) (tval : Word) (ret : Nat) (lost : Bool) : State :=
  let debugClass := 0x38 ≤ c.toNat ∧ c.toNat ≤ 0x3A
  let s : State := { s.release with trapped := some c }
  let me : Strand :=
    { s.me with wait := none, stall := none, pfx := [], touched := [], gread := none, walk := none, vseq := none, early := {}, badEntry := none, st := .run }
  if debugClass ∧ s.here.dbg.en ∧ !isMgmt s.curTile then
    (s.setMe { me with pc := BitVec.ofNat 16 ret }).haltTile s.curTile
      (if c = cBREAK then (if sub = 1 then 3 else 2) else if c = cWATCH then 4 else 5)
  else
    let asked := if lost then 1 else policyOf me.tpol c
    let pol := if asked = 0 ∧ (!bitAt me.tvec.toNat 0 ∨ me.th) then 2 else asked
    let tc := BitVec.ofNat 18 (pol * 2 ^ 16 + sub.toNat * 2 ^ 8 + c.toNat)
    let saved := { me with tcause := tc, tpc := BitVec.ofNat 16 (ret / 4 * 4), tval := tval }
    if pol = 0 then
      let h := bitsOf me.tvec.toNat 15 2 * 4
      (s.setMe { saved with th := true, pc := BitVec.ofNat 16 h }).branchRecord s.curTile s.curStrand 2 (me.unitOf c).toNat h
    else if pol = 1 then
      let w : WaitRec := { kind := .aborted, instr := .nop, pfx := [], since := s.cycle }
      let s := s.setMe { saved with st := .wait, wait := some w }
      let s := if lost then s.setHere { s.here with lost := true } else s
      (s.voteAbort s.curTile c).formArrival s.curTile
    else
      let s := s.setMe { saved with st := .park }
      if 0x80 ≤ c.toNat then
        s.tileEvent s.curTile 0x0003 (s.curStrand.setWidth 8)
          (BitVec.ofNat 64 (c.toNat + me.s[16].toNat % 2 ^ 56 * 256)) 0
      else
        s.tileEvent s.curTile 0x0001 (s.curStrand.setWidth 8) tval
          (BitVec.ofNat 64 (c.toNat + sub.toNat * 2 ^ 8 + pol * 2 ^ 16 + ret / 4 % 2 ^ 14 * 2 ^ 18))

/-- The tile without the transient faults of its vector lanes. -/
def Tile.dropLanes (x : Tile) : Tile :=
  if x.errs = [] then x
  else
    let stays : ErrMark → Bool := fun e => e.hard || (match e.loc with | .lane _ _ => false | _ => true)
    { x with errs := x.errs.filter stays }

/-- The return address of R38 for a unit at pc: TRAP and SVC return to pc + 4, every other cause of an instruction to pc. -/
def State.trapUnit (s : State) (c sub : BitVec 8) (tval : Word) (lost : Bool) : State :=
  s.takeTrap c sub tval (if 0x40 ≤ c.toNat then s.me.pc.toNat + 4 else s.me.pc.toNat) lost

/-- An error that an instruction reports is counted (R439), and the faults of the vector lanes that a shadow check has found are over. -/
def State.countTrap (s : State) (c : BitVec 8) (part : Nat) : State :=
  let s := s.countError s.curTile c part
  if c = cSHADOW then s.setHere s.here.dropLanes else s

/-- The reporting instruction raises the held fault of the strand's MMA and has no effect; the token becomes CLEAR with
the cause as its status (R198). The error was counted when the block failed (R439). -/
def State.reportHeld (s : State) : State :=
  match s.me.held with
  | none => s
  | some h =>
    let r := { s.me with held := none }
    (s.setMe (r.setTok h.tok { r.tok h.tok with st := .clear, status := h.cause })).takeTrap h.cause h.sub h.tval
      s.me.pc.toNat h.lost

/-- RTT (R41): TH is cleared and the strand goes on at TPC; TCAUSE, TPC and TVAL keep their values. -/
def State.returnFromTrap (s : State) : Eff :=
  if !s.me.th then raise cILLENC 0 0
  else .ok (s.setMe { s.me with th := false }, .rtt (bitsOf s.me.tpc.toNat 15 2 * 4))

/-! ### What a strand reads, and errors of storage -/

/-- The tile as an access reads it some parts of which have been read before. -/
def Tile.under (x : Tile) (e : EarlyRead) : Tile :=
  let y := e.cells.foldl (fun (y : Tile) c => y.writeBytes c.1 [c.2]) x
  { y with band := e.band.foldl (fun b c => SMap.set b c.1 c.2) y.band }

/-- The part of z bytes that holds address a is read early: its bytes, and the side band with a first part of a line (R196, R346). -/
def EarlyRead.read (e : EarlyRead) (x : Tile) (a z : Nat) : EarlyRead :=
  let lo := a / z * z
  { cells := e.cells ++ (span lo z).map (fun b => (b, x.byte b)),
    band := if lo % 64 = 0 then SMap.set e.band (lo / 64) (x.bandAt (lo / 64)) else e.band }

/-- Local memory as the strand's next read returns it: its own earlier stores stand in it, performed or not (R348), and the parts that
its unit has already read (R346). -/
def State.view (s : State) : Tile :=
  let own := s.here.sbuf.filter (fun e => e.strand == s.curStrand)
  if own = [] ∧ s.me.early = {} then s.here else (own.foldl Tile.putPart s.here).under s.me.early

/-- A correctable error at a place of a tile, if one stands there, is corrected and counted (R429, R439). -/
def State.correctAt (s : State) (t : Nat) (loc : ErrAt) : State :=
  let x := s.tile t
  if x.errs.any (fun e => e.loc == loc && !e.hard) then
    (s.setTile t { x with errs := x.errs.filter (fun e => e.loc != loc || e.hard) }).countError t cSRAM loc.bank
  else s

/-- An uncorrectable error stands at a place of the tile. -/
def Tile.hardAt (x : Tile) (loc : ErrAt) : Bool := x.errs.any (fun e => e.loc == loc && e.hard)

/-- An uncorrectable error in a local line is restorable by an abort (R431). -/
def Tile.restorable (x : Tile) (line : Nat) : Bool :=
  x.attr (64 * line) == 1 || ((x.attr (64 * line) == 0 || x.attr (64 * line) == 2) && (SMap.find x.pre line).isSome)

/-! ### Loops and the completion of a unit -/

def entV (e : Word) : Bool := bitAt e.toNat 63
def entS (e : Word) : Bool := bitAt e.toNat 62
def entStart (e : Word) : Nat := bitsOf e.toNat 61 48 * 4
def entEnd (e : Word) : Nat := bitsOf e.toNat 47 34 * 4
def entCnt (e : Word) : Nat := bitsOf e.toNat 31 0

/-- A loop entry (R143). -/
def entPack (stream : Bool) (start fin cnt : Nat) : Word :=
  BitVec.ofNat 64 (2 ^ 63 + (if stream then 2 ^ 62 else 0) + start / 4 % 2 ^ 14 * 2 ^ 48 + fin / 4 % 2 ^ 14 * 2 ^ 34 + cnt % 2 ^ 32)

/-- The index of the innermost entry (R144). -/
def innermost (l : Vector Word 4) : Option Nat :=
  if entV l[3] then some 3 else if entV l[2] then some 2 else if entV l[1] then some 1 else if entV l[0] then some 0 else none

def lstkAt (l : Vector Word 4) (i : Nat) : Word := l.getD i 0

/-- Where a completion leads: to an address, or to an examination of the innermost stream entry. -/
inductive Landing where
  | at (a : Nat)
  | exam
deriving DecidableEq, Repr

/-- The back edges of the innermost entries with one END, outward (R149); a is where the strand goes otherwise. The spec does
not say what CNT - 1 is at CNT = 0, which only a write of LSTK can give: the model wraps it and goes to START (log entry 56). -/
def backEdges (fin : Nat) : Nat → Vector Word 4 → Nat → Vector Word 4 × Landing
  | 0, l, a => (l, .at a)
  | f + 1, l, a =>
    match innermost l with
    | none => (l, .at a)
    | some i =>
      let e := lstkAt l i
      if entEnd e ≠ fin then (l, .at a)
      else if entS e then (l, .exam)
      else
        let c := (entCnt e + 2 ^ 32 - 1) % 2 ^ 32
        if c ≠ 0 then (setAt l i (BitVec.ofNat 64 (e.toNat - entCnt e + c)), .at (entStart e))
        else backEdges fin f (setAt l i 0) (fin + 4)

/-- The back edges taken when a unit at pc completes whose words end before next (R149). -/
def completeLoops (pc next : Nat) (l : Vector Word 4) : Vector Word 4 × Landing :=
  match innermost l with
  | none => (l, .at next)
  | some i =>
    let fin := entEnd (lstkAt l i)
    if pc ≤ fin ∧ fin < next then backEdges fin 5 l next else (l, .at next)

/-- An ending of a waiting instruction at unit address pc updates WTO (R237); a counted ending that reaches LIMIT parks
the strand (R238), and the supervisor receives DEADLINE_ESCALATION. -/
def State.setWst (s : State) (code : BitVec 8) (pc : Nat) : State :=
  let me := s.me
  let counted := code = 1 ∨ code = 2 ∨ code = 3
  let cnt := if me.wtoCount ≠ 0 ∧ me.wtoAddr.toNat = pc then min (me.wtoCount.toNat + 1) 65535 else 1
  if counted then
    let r := { me with wst := code, wtoAddr := BitVec.ofNat 16 pc, wtoCount := BitVec.ofNat 16 cnt }
    if me.dlpol ≠ 0 ∧ cnt = me.dlpol.toNat then
      (s.setMe { r with st := .park, park := some { unit := none } }).tileEvent s.curTile 0x0002 (s.curStrand.setWidth 8)
        (BitVec.ofNat 64 (pc % 65536 + code.toNat * 65536)) 0
    else s.setMe r
  else s.setMe { me with wst := code, wtoAddr := 0, wtoCount := 0 }

/-- The strand's own wait: the deadline of dl from its start (R232). -/
def State.deadlineOf (s : State) (dl : BitVec 3) : BitVec 48 :=
  if dl = 7 then s.me.dla
  else s.tick s.curTile + ((s.me.dt.getD (dl.toNat - 1) 0).setWidth 48)

/-- Bytes of a record at a ring position. -/
def Tile.ringByte (x : Tile) (q : BitVec 2) (p i : Nat) : Byte :=
  let c := x.qcfgAt q
  x.byte (qBase c + (p + i) % qSize c)

/-- What stands at the head of a queue (R295, R297). -/
inductive HeadRec where
  | empty
  | malformed
  | record (eos : Bool) (pos size : Nat)
deriving DecidableEq, Repr

/-- The record at head value p, after any well-formed PAD records (R297); fuel bounds the PADs passed. -/
def Tile.lookAt (x : Tile) (q : BitVec 2) : Nat → Nat → HeadRec
  | 0, _ => .malformed
  | f + 1, p =>
    let c := x.qcfgAt q
    let left := (qTail c + 65536 - p) % 65536
    if left = 0 then .empty
    else
      let len := (x.ringByte q p 0).toNat + 256 * (x.ringByte q p 1).toNat
      let kind := (x.ringByte q p 2).toNat
      let toEnd := qSize c - p % qSize c
      if kind = 2 then (if len = 0 ∧ toEnd ≤ left then Tile.lookAt x q f ((p + toEnd) % 65536) else .malformed)
      else
        let z := 16 + (len + 15) / 16 * 16
        if kind > 2 ∨ len > 2048 ∨ left < z then .malformed else .record (kind == 1) p z

/-- The head of queue q, looked at from HEAD. -/
def Tile.headRec (x : Tile) (q : BitVec 2) : HeadRec := x.lookAt q 300 (qHead (x.qcfgAt q))

/-- The lines whose headers lookAt reads. -/
def Tile.lookLines (x : Tile) (q : BitVec 2) : Nat → Nat → List Nat
  | 0, _ => []
  | f + 1, p =>
    let c := x.qcfgAt q
    let left := (qTail c + 65536 - p) % 65536
    if left = 0 then []
    else
      let here := (qBase c + p % qSize c) / 64
      let toEnd := qSize c - p % qSize c
      if (x.ringByte q p 2).toNat = 2 ∧ toEnd ≤ left then here :: Tile.lookLines x q f ((p + toEnd) % 65536) else [here]

/-- The lines whose headers a look at the head of queue q reads. -/
def Tile.headLines (x : Tile) (q : BitVec 2) : List Nat := x.lookLines q 300 (qHead (x.qcfgAt q))

/-- Lines of a ring are read: correctable errors are corrected and counted, up to the first line that holds an uncorrectable one, which is
a lost error in a QUEUE line (R429, R431). -/
def State.ringRead (s : State) : List Nat → State × Option Nat
  | [] => (s, none)
  | k :: r => if s.here.errs = [] then (s, none)
    else if s.here.hardAt (.line k) then (s, some k) else State.ringRead (s.correctAt s.curTile (.line k)) r

/-- HEAD moves past a record that stands at p and takes z bytes; CHEAD follows on a management tile, where nothing is
committed (log entry 6). -/
def Tile.consume (x : Tile) (q : BitVec 2) (p z : Nat) : Tile :=
  let c := x.qcfgAt q
  x.setQcfg q (qPack (p + z) (qTail c) (qEn c) (qLog c) (qBase c))

/-- A unit has completed and the strand goes on at a (R32): the prefixes, the wait and the stall are over. -/
def State.arriveAt (s : State) (a : Nat) : State :=
  s.setMe
    { s.me with pc := BitVec.ofNat 16 a, pfx := [], wait := none, stall := none, gread := none, walk := none, vseq := none, early := {} }

/-- The innermost entry is popped. -/
def State.popLoop (s : State) : State :=
  match innermost s.me.lstk with
  | none => s
  | some i => s.setMe { s.me with lstk := setAt s.me.lstk i 0 }

/-- The strand leaves the innermost stream loop at END + 4 with p7 and WST, and back edges outward with the same END are
taken (R148, R149), or kept for the resume when the ending parks the strand (R238, log entry 50). FETCH_BOUND of R30 comes only where the
back edges outward leave the next address at 0x1_0000: when an outer entry with END 0xFFFC goes to its START, the examination has its
whole effect, as a counted entry's back edge has (DEDUCED, log entry 50). fuel bounds the nested examinations. -/
def State.examine : Nat → State → Option (BitVec 3 × BitVec 48) → State
  | 0, s, _ => s
  | f + 1, s, pend =>
    match innermost s.me.lstk with
    | none => s
    | some i =>
      let e := lstkAt s.me.lstk i
      let q := BitVec.ofNat 2 (entCnt e % 4)
      let dl := BitVec.ofNat 3 (entCnt e / 4 % 8)
      let fin := entEnd e
      let loopsAt := (entStart e + 65536 - 4) % 65536
      let on := if fin = 0xFFFC then loopsAt else fin + 4
      let fail := fun (s : State) (c sub : BitVec 8) (tval : Word) (lost : Bool) =>
        let s := s.popLoop.setP 7 0
        (s.setMe { s.me with pc := BitVec.ofNat 16 loopsAt }).takeTrap c sub tval on lost
      let leave := fun (s : State) (eos : Tile → Tile) (code : BitVec 8) (p7 : Word) =>
        let r := backEdges fin 5 s.popLoop.me.lstk (fin + 4)
        if r.2 = .at 0x10000 then
          (s.popLoop.setMe { s.popLoop.me with pc := BitVec.ofNat 16 loopsAt }).takeTrap cFETCH 0 0x10000 loopsAt false
        else
          let s := s.setHere (eos s.here)
          let s := ((s.setP 7 p7).setWst code loopsAt).popLoop
          if s.me.st = .park then (s.setMe { s.me with park := some { unit := none, fin := some (BitVec.ofNat 16 fin) } }).arriveAt on
          else
            let s := s.setMe { s.me with lstk := r.1 }
            match r.2 with
            | .at a => s.arriveAt a
            | .exam => State.examine f (s.arriveAt on) none
      if !(s.here.ringExists (isMgmt s.curTile) q) then fail s cDESC 10 (q.setWidth 64) false
      else match s.ringRead (s.view.headLines q) with
      | (s, some k) =>
        fail (s.countError s.curTile cSRAM (k % 16)) cSRAM 0 (BitVec.ofNat 64 (64 * k)) (!s.here.restorable k && !isMgmt s.curTile)
      | (s, none) =>
        match s.view.headRec q with
        | .malformed => fail s cDESC 9 (q.setWidth 64) false
        | .record false _ _ => ((s.setP 7 0).setWst 0 loopsAt).arriveAt (entStart e)
        | .record true p z => leave s (fun x => x.consume q p z) 5 (BitVec.allOnes 64)
        | .empty =>
          if dl = 0 then leave s id 4 0
          else
            let d := match pend with | some w => w.2 | none => s.deadlineOf dl
            if s.expired s.curTile d then leave s id 1 0
            else s.setMe { s.me with st := .wait, wait := some { kind := .exam dl d, instr := .loops q dl 1, pfx := [], since := s.cycle } }

/-! ### Watchpoints, single step -/

/-- The lowest matching watchpoint and the lowest matched byte of the accesses of a unit (R511). -/
def watchMatch (d : Debug) (touched : List (Bool × Bool × Nat × Nat)) : Option (Nat × Nat) :=
  (span 0 4).findSome? (fun i =>
    let c := (d.wpc.getD i 0).toNat
    if bitAt c 7 then
      let size := 2 ^ (c % 16)
      let lo := (d.wpa.getD i 0).toNat / size * size
      let hits := touched.filterMap (fun a =>
        if a.1 = bitAt c 6 ∧ (if a.2.1 then bitAt c 4 else bitAt c 5) ∧ a.2.2.1 < lo + size ∧ lo < a.2.2.1 + a.2.2.2
        then some (max lo a.2.2.1) else none)
      match hits with
      | [] => none
      | h :: r => some (i, r.foldl min h)
    else none)

/-- The end of a single step: SINGLE_STEP after a unit that has retired, under TPOL when the debug module is not enabled (R421, R423), and
then the strand's halt, which sends no request (R507, R509). A unit that waits goes on with its step; one that its trap leaves waiting for
the abort has ended it. -/
def State.stepHalt (s : State) : State :=
  let me := s.me
  if me.stepping ∧ (me.st ≠ .wait ∨ me.aborted) ∧ me.st ≠ .halt then
    let s := if s.here.dbg.en ∨ s.trapped.isSome ∨ me.st ≠ .run then s
      else s.takeTrap cSTEP 0 (me.stepAt.setWidth 64) me.pc.toNat false
    let s := s.setMe { s.me with stepping := false, before := some s.me.st, st := .halt }
    (s.setHere { s.here with dbg := { s.here.dbg with hr := 5 } }).branchFlush s.curTile
  else s

/-- After a unit has retired, or has trapped: WATCHPOINT (R423), then the halt of a single step (R509). A unit that waits,
in its own wait or in the examination its completion started, has not come to this point. -/
def State.afterRetire (s : State) : State :=
  let me := s.me
  let s := if me.touched = [] ∨ me.st = .wait then s
    else
      let s := s.setMe { me with touched := [] }
      match watchMatch s.here.dbg me.touched with
      | some (i, a) =>
        s.takeTrap cWATCH (BitVec.ofNat 8 (i + if me.stepping then 16 else 0)) (BitVec.ofNat 64 a) me.pc.toNat false
      | none => s
  s.stepHalt

/-! ### The end of an instruction -/

/-- The unit of the current strand completes sequentially, words being the words of its instruction: its back edges are
taken (R149), and a next address of 0x1_0000 raises FETCH_BOUND before any effect (R30), another cause of the unit coming before it (log
entry 50). s is the state before the unit, t after its effect. A strand that its own wait parks keeps the completion, and the unit's accesses, for its resume
(R238, R511). -/
def State.retireSeq (s t : State) (words : Nat) : State :=
  let pc := s.me.pc.toNat
  let next := s.own + 4 * words
  let r := completeLoops pc next t.me.lstk
  if r.2 = .at 0x10000 then (s.takeTrap cFETCH 0 0x10000 pc false).afterRetire
  else if t.me.st = .park ∧ t.me.park.isSome then
    ((t.arriveAt pc).setMe { (t.arriveAt pc).me with park := some { unit := some (s.me.pc, next) }, touched := t.me.touched }).stepHalt
  else
    match r.2 with
    | .at a => ((t.setMe { t.me with lstk := r.1 }).arriveAt a).afterRetire
    | .exam => (State.examine 5 ((t.setMe { t.me with lstk := r.1 }).arriveAt pc) none).afterRetire

/-- The unit of the current strand completes and goes to a without a back edge. -/
def State.retireTo (s t : State) (a : Nat) : State :=
  if a = 0x10000 then (s.takeTrap cFETCH 0 0x10000 s.me.pc.toNat false).afterRetire else (t.arriveAt a).afterRetire

/-- The strand stalls at its unit (R234): a stall already begun at this unit keeps its start. -/
def State.enterStall (s : State) (i : Instr) (sub : BitVec 8) (tval : Word) : State :=
  let me := s.me
  let t0 := match me.stall with
    | some r => if r.pc = me.pc ∧ r.sub = sub then r.t0 else s.tick s.curTile
    | none => s.tick s.curTile
  s.setMe { me with st := .wait, stall := some { pc := me.pc, sub := sub, t0 := t0 },
                    wait := some { kind := .stall sub tval t0, instr := i, pfx := me.pfx, since := s.cycle }, touched := [] }

/-- The strand waits in its instruction (R232); a wait that goes on keeps its record. -/
def State.enterWait (s : State) (i : Instr) (k : WaitKind) : State :=
  let me := s.me
  match me.wait with
  | some w => s.setMe { me with st := .wait, wait := some { w with kind := k, expire := false }, touched := [] }
  | none => s.setMe { me with st := .wait, wait := some { kind := k, instr := i, pfx := me.pfx, since := s.cycle }, touched := [] }

/-- The number of words of an instruction without its prefixes (R43, R44). -/
def wordsOf : Instr → Nat
  | .ldi .. | .ldih .. | .bext .. | .bins .. | .bcmp .. | .loopi .. | .waitc .. | .amocas .. | .vops .. | .addpc ..
  | .launch .. | .bindBind .. | .bindUnbind .. | .bindFence .. | .bindUnfence .. | .tmapMap .. | .tmapInval ..
  | .tmapGroup .. | .codestCode .. | .codestLocal .. | .codestReg .. | .codestChunk .. | .codestPtab .. | .startLaunch ..
  | .startResume .. | .startStrand .. | .quiesceRequest .. | .quiesceCkpt .. | .quiesceCancel .. | .quiescePark ..
  | .imgmvSave .. | .imgmvRestore .. | .imgmvMove .. | .keyld .. | .keyz .. | .scrubCluster .. | .scrubPages ..
  | .forceab .. | .dumpLog .. | .dumpCtx .. | .dumpTrace .. => 2
  | _ => 1

/-- An instruction of the current strand does not complete: it traps, stalls or waits. -/
def State.stopped (i : Instr) : Stop → State → State
  | .trap c sub tval lost, s => (s.trapUnit c sub tval lost).afterRetire
  | .counted c sub tval lost part, s => ((s.countTrap c part).trapUnit c sub tval lost).afterRetire
  | .stall sub tval, s => s.enterStall i sub tval
  | .wait k, s => s.enterWait i k
  | .report, s => s.reportHeld.afterRetire
  | .soft l e, s => State.stopped i e (l.foldl (fun (u : State) a => u.correctAt u.curTile a) s)

/-- The end of an instruction of the current strand: its effect is completed, or it traps, stalls or waits. -/
def State.finish (s : State) (i : Instr) (e : Eff) : Host.Outcome State Fault Refusal :=
  .next (match e with
    | .error e => State.stopped i e s
    | .ok (t, .seq) => s.retireSeq t (wordsOf i)
    | .ok (t, .skip a) => s.retireTo t a
    | .ok (t, .jump a) => s.retireTo (t.branchRecord t.curTile t.curStrand 1 s.me.pc.toNat a) a
    | .ok (t, .rtt a) => s.retireTo (t.branchRecord t.curTile t.curStrand 3 s.own a) a
    | .ok (t, .stop) => (t.setMe { t.me with pfx := [], wait := none, stall := none }).afterRetire)

/-- The end of an instruction that completes sequentially. -/
def State.finishSeq (s : State) (i : Instr) (e : Except Stop State) : Host.Outcome State Fault Refusal :=
  s.finish i (e.map (fun t => (t, .seq)))

/-! ### Waits under a named deadline -/

/-- How a test of a waiting instruction ends (R232). -/
inductive WaitEnd where
  | met | notMet | timeout | on (k : WaitKind)
deriving DecidableEq, Repr

/-- Wait (R232) at the instruction's issue, or at a test of its wait: the condition comes first; a wait whose expiry the
step has found ends with TIMEOUT. -/
def State.waitTest (s : State) (dl : BitVec 3) (cond : Bool) : WaitEnd :=
  if cond then .met
  else
    match s.me.wait with
    | some w => if w.expire then .timeout else .on w.kind
    | none =>
      if dl = 0 then .notMet
      else if s.expired s.curTile (s.deadlineOf dl) then .timeout
      else .on (.named dl (s.deadlineOf dl))

/-! ### Local memory -/

/-- How an access treats a locked byte (R367). -/
inductive Access where
  | load | peek | ldfeKeep | ldfe | store
deriving DecidableEq, Repr

/-- The lock kind stops the access (R367). -/
def lockStops (k : LockKind) (a : Access) : Bool :=
  match a, k with
  | .load, .read => false
  | .load, _ => true
  | .peek, .write => true
  | .peek, _ => false
  | .ldfeKeep, .write => true
  | .ldfeKeep, _ => false
  | .ldfe, .tag => false
  | .ldfe, _ => true
  | .store, _ => true

/-- An access to the n bytes from a meets a lock that stops it (R367). -/
def Tile.locked (x : Tile) (a n : Nat) (acc : Access) : Bool :=
  x.locks.any (fun l => lockStops l.kind acc && decide (l.lo < a + n) && decide (a < l.lo + l.len))

/-- The lowest address of each overlap of the n bytes from a with a lock that stops the access (R368). -/
def Tile.clashes (x : Tile) (a n : Nat) (acc : Access) : List Nat :=
  x.locks.filterMap (fun l =>
    if lockStops l.kind acc ∧ l.lo < a + n ∧ a < l.lo + l.len then some (max a l.lo) else none)

/-- The lowest of some numbers. -/
def lowest : List Nat → Option Nat
  | [] => none
  | a :: r => some (r.foldl min a)

/-! ### Pre-images, and local stores not yet performed -/

/-- Retention can take the pre-images that a write to these lines needs (R278), beside those of the stores not yet performed. -/
def Tile.retentionOk (x : Tile) (mgmt : Bool) (lines : List Nat) : Bool :=
  decide (x.retu + 64 * (((x.sbuf.map Pend.line ++ lines).eraseDups).filter (x.needsPre mgmt)).length ≤ 65536)

/-- A write of bytes from a by a strand: pre-images first, then the bytes (R129). -/
def Tile.storeBytes (x : Tile) (mgmt : Bool) (a : Nat) (l : List Byte) : Tile :=
  ((linesOf a l.length).foldl (fun y k => y.touch mgmt k (lineMask k a l.length)) x).writeBytes a l

/-- Bytes written one by one from a list of addresses, pre-images first. -/
def Tile.storeCells (x : Tile) (mgmt : Bool) (l : List (Nat × Byte)) : Tile :=
  let y := l.foldl (fun y c => y.touch mgmt (c.1 / 64) (1#64 <<< (c.1 % 64))) x
  l.foldl (fun y c => y.writeBytes c.1 [c.2]) y

/-- Two parts write one byte, or one descriptor. -/
def Pend.meets (p q : Pend) : Bool :=
  p.cells.any (fun c => q.cells.any (fun d => d.addr == c.addr)) || (p.desc.isSome && q.desc.isSome && p.line == q.line)

/-- The cells of whole bytes from an address. -/
def byteCells (a : Nat) : List Byte → List WCell
  | [] => []
  | b :: r => { addr := a, mask := 0xFF, val := b } :: byteCells (a + 1) r

/-- The single-copy-atomic parts of a store, of a size (R346). -/
def partsOf (n : BitVec 2) (cycle part : Nat) (l : List WCell) : List Pend :=
  ((l.map (fun c => c.addr / part)).eraseDups).map (fun k =>
    { strand := n, since := cycle, line := k * part / 64, cells := l.filter (fun c => c.addr / part == k) })

/-- The strand's stores of this turn are performed at once, and none of its earlier ones is still to be performed (R348). -/
def State.direct (s : State) : Bool := !s.late && s.here.sbuf.all (fun e => e.strand != s.curStrand)

/-- A part joins the stores not yet performed when the turn says so or when it meets an earlier store of the strand among them, so that
writes to one byte keep their order; otherwise it is performed at once (R348). -/
def State.storePart (s : State) (p : Pend) : State :=
  if s.late || s.here.sbuf.any (fun e => e.strand == p.strand && e.meets p) then s.setHere { s.here with sbuf := s.here.sbuf ++ [p] }
  else s.setHere (s.here.performPart s.supervisor p)

/-- The parts of a local store of the strand are issued. -/
def State.storeParts (s : State) (l : List Pend) : State := l.foldl State.storePart s

/-- Every local store that a strand of the tile has issued is performed (R352, R374). -/
def State.settle (s : State) : State := if s.here.sbuf = [] then s else s.setHere (s.here.performAll s.supervisor)

/-- The strand's unit has accessed n bytes from a, for the watchpoints (R511). -/
def State.note (s : State) (glob wr : Bool) (a n : Nat) : State :=
  if n = 0 then s else s.setMe { s.me with touched := s.me.touched ++ [(glob, wr, a, n)] }

/-- A later cause of an instruction that has read correctable errors between s and t: they stay corrected (R429). -/
def State.keepSoft {α : Type} (s t : State) (x : Except Stop α) : Except Stop α :=
  match x with
  | .ok a => .ok a
  | .error e =>
    if s.here.errs = t.here.errs then .error e
    else .error (.soft ((s.here.errs.filter (fun m => !m.hard && !t.here.errs.contains m)).map (fun m => m.loc)) e)

/-- A part of an instruction's effect and what follows it: a cause that comes then leaves the correctable errors read before it corrected
(R429). -/
def State.andThen {α : Type} (s : State) (x : Except Stop State) (f : State → Except Stop α) : Except Stop α :=
  match x with
  | .error e => .error e
  | .ok t => s.keepSoft t (f t)

/-- A read of marked storage: a hard mark raises SRAM_UNCORRECTABLE, a soft one is corrected, written back and counted
(R429, R431). -/
def State.readMark (s : State) (loc : ErrAt) (sub : BitVec 8) (tval : Word) (lost : Bool) : Except Stop State :=
  if s.here.errs = [] then .ok s
  else if s.here.hardAt loc then .error (.counted cSRAM sub tval lost loc.bank)
  else .ok (s.correctAt s.curTile loc)

/-- A read of local lines' bytes meets no uncorrectable error (R129, R431). -/
def State.readLines (s : State) (tval : Word) : List Nat → Except Stop State
  | [] => .ok s
  | k :: r =>
    s.andThen (s.readMark (.line k) 0 tval (!s.here.restorable k && !isMgmt s.curTile)) (fun t => State.readLines t tval r)

/-- A read of a line's side band meets no uncorrectable error (R431). -/
def State.readSide (s : State) (line : Nat) (tval : Word) : Except Stop State :=
  s.readMark (.side line) 1 tval (!s.here.restorable line && !isMgmt s.curTile)

/-- The pre-images that a write of these lines needs are read: the line and its side band (R277, R431). -/
def State.preRead (s : State) (tval : Word) : List Nat → Except Stop State
  | [] => .ok s
  | k :: r =>
    if s.here.errs = [] then .ok s
    else if s.here.needsPre s.supervisor k then
      s.andThen (s.readSide k tval) (fun t => t.andThen (t.readLines tval [k]) (fun u => State.preRead u tval r))
    else State.preRead s tval r

/-- The checks of R129 for n bytes from the 64-bit address a, with TVAL. -/
def State.checkLocal (s : State) (a : Word) (n : Nat) (acc : Access) : Except Stop Unit :=
  if 2 ^ 18 ≤ a.toNat then raise cBOUND 0 a
  else if a.toNat % n ≠ 0 then raise cMISAL 0 a
  else if s.here.locked a.toNat n acc then raise cLOCK 0 a
  else if (acc = .store ∨ acc = .ldfe) ∧ !s.here.retentionOk (isMgmt s.curTile) (linesOf a.toNat n) then raise cRETFULL 0 a
  else .ok ()

/-- LM[a, n] read by the strand, after its checks: the state with corrected errors and the noted access, and the value. -/
def State.loadNum (s : State) (a n : Nat) (tval : Word) : Except Stop (State × Nat) :=
  (s.readLines tval (linesOf a n)).map (fun t => (t.note false false a n, t.view.lm a n))

/-- Bytes are stored by the strand from an address, in parts of a size (R346). -/
def State.putBytes (s : State) (part a : Nat) (l : List Byte) : State :=
  if s.direct then s.setHere (s.here.storeBytes s.supervisor a l)
  else s.storeParts (partsOf s.curStrand s.cycle part (byteCells a l))

/-- LM[a, n] written by the strand at once, after its checks. -/
def State.storeNow (s : State) (a n v : Nat) : State :=
  (s.setHere (s.here.storeBytes s.supervisor a (toBytes n v))).note false true a n

/-- LM[a, n] written by the strand, after its checks: one single-copy-atomic access of n bytes (R346). -/
def State.storeNum (s : State) (a n v : Nat) : State := (s.putBytes n a (toBytes n v)).note false true a n

/-! ### Accumulators -/

def Tile.accAt (x : Tile) (c : BitVec 3) : Acc := x.acc[c.toNat]'(c.isLt)
def Tile.setAcc (x : Tile) (c : BitVec 3) (a : Acc) : Tile := { x with acc := x.acc.set c.toNat a c.isLt }

/-! ### Instruction words -/

/-- The word of the instruction store at an address (R42). -/
def Cluster.word (k : Cluster) (a : Nat) : BitVec 32 := BitVec.ofNat 32 (Memory.num k.store a 4)

/-- CLIM of the strand's cluster (R254). -/
def State.clim (s : State) : Nat := (s.cluster (clusterOf s.curTile)).clim.toNat

end Sys2Proof.Machine
end

