-- ==== Sys2Proof/Machine/Flags.lean ====
section
/-! DEFINITION. The status registers that instructions read and write whole: FLG, WST, STAT, and the flags word of a barrier
(R26, R102, R103, R235, R310, R315). -/
namespace Sys2Proof.Machine

/-- The fields of FLG that MTS writes (R102): AOV, AIX, NV, DZ, OF, UF, NX. -/
def flgWritable : BitVec 19 := 0x0031F

/-- FLG after an MTS of v: the commit fields stay (R102, R22). -/
def flgWrite (old : BitVec 19) (v : Word) : BitVec 19 := (old &&& ~~~flgWritable) ||| (v.setWidth 19 &&& flgWritable)

/-- FLG at the start of a superstep: only the commit fields CNV, COF and CNX, from the apply flags (R280, R315). -/
def flgStart (apply : BitVec 3) : BitVec 19 := apply.setWidth 19 <<< 16

/-- The five floating-point flags of FLG that CBAR carries (R309, R310). -/
def flgLow (f : BitVec 19) : BitVec 5 := f.setWidth 5

/-- The flags word that CBAR with operator none writes (R310): the flags in 4:0, the apply flags in 18:16. -/
def flagsWord (flags : BitVec 5) (apply : BitVec 3) : Word := flags.setWidth 64 ||| (apply.setWidth 64 <<< 16)

/-- The apply flags of one reduction's flags (R287): NV as CNV (bit 2), OF as COF (bit 1), NX as CNX (bit 0). -/
def applyFlags (f : Flags) : BitVec 3 :=
  (if f &&& flNV ≠ 0 then 4 else 0) ||| (if f &&& flOF ≠ 0 then 2 else 0) ||| (if f &&& flNX ≠ 0 then 1 else 0)

/-- The number of a strand state in STAT.ST (R26). -/
def StrandSt.code : StrandSt → Nat
  | .idle => 0 | .run => 1 | .wait => 2 | .park => 3 | .halt => 4 | .retired => 5

/-- STAT (R26). -/
def statWord (st : StrandSt) (irv th sup : Bool) : Word :=
  BitVec.ofNat 64 (st.code * 512 + (if irv then 256 else 0) + (if th then 2 else 0) + (if sup then 1 else 0))

end Sys2Proof.Machine
end

