-- ==== Sys2Proof/Machine/Operands.lean ====
section
/-! DEFINITION. Every operand form of the instructions: prefixes (R55 to R58), extended immediates (R57), effective
addresses (R16, R128, R176), branch targets with their checks (R29, R46, R48), activity of elements (R158), bit fields of
local memory (R117). -/
namespace Sys2Proof.Machine

/-- The rounding mode of the instruction being executed: PRND's, or RNE (R56). -/
def State.mode (s : State) : Nat :=
  match s.me.pfx.findSome? (fun p => match p with | .prnd _ rm => some rm.toNat | _ => none) with
  | some m => m
  | none => 0

/-- PRND.SAT of the instruction being executed (R56). -/
def State.sat (s : State) : Bool := s.me.pfx.any (fun p => match p with | .prnd true _ => true | _ => false)

/-- The unit has a PONE prefix (R58). -/
def State.pone (s : State) : Bool := s.me.pfx.any (fun p => p == .pone)

/-- The X of a PEXT prefix of the unit (R57). -/
def State.pextX (s : State) : Option (BitVec 22) :=
  s.me.pfx.findSome? (fun p => match p with | .pext x => some x | _ => none)

/-- The immediate field after any PEXT extension, signed: X times 2^w plus imm on 22 + w bits, at most 32 (R57). -/
def State.imm {w : Nat} (s : State) (i : BitVec w) : Int :=
  match s.pextX with
  | none => i.toInt
  | some x => (BitVec.ofNat (min (22 + w) 32) (x.toNat * 2 ^ w + i.toNat)).toInt

/-- A 64-bit word of an exact integer: WrapInt(x, i64) (R90). -/
def wrap64 (x : Int) : Word := BitVec.ofInt 64 x

/-- The address s[sa] + imm times n, wrapped to 64 bits (R128, R176). -/
def State.address {w : Nat} (s : State) (a : BitVec 6) (i : BitVec w) (n : Nat) : Word := s.getS a + wrap64 (s.imm i * n)

/-- The T mark at a target, which is no payload (R48). -/
def Cluster.lands (k : Cluster) (a : Nat) : Bool :=
  bitAt (k.word a).toNat 29 && !(decide (4 ≤ a) && bitAt a 2 && decide ((k.word (a - 4)).toNat / 2 ^ 30 = 3))

/-- The checks of a taken PC-relative transfer to the byte address t (R46, R48). -/
def State.relTarget (s : State) (t : Int) : Except Stop Nat :=
  if t < 0 ∨ (s.clim : Int) ≤ t ∨ t % 4 ≠ 0 then raise cFETCH 0 (wrap64 t)
  else if !(s.cluster (clusterOf s.curTile)).lands t.toNat then raise cLANDING 0 (wrap64 t)
  else .ok t.toNat

/-- The checks of a register-indirect jump to t (R29, R48). -/
def State.regTarget (s : State) (t : Word) : Except Stop Nat :=
  if 2 ^ 16 ≤ t.toNat ∨ s.clim ≤ t.toNat then raise cFETCH 0 t
  else if t.toNat % 4 ≠ 0 then raise cMISAL 0 t
  else if !(s.cluster (clusterOf s.curTile)).lands t.toNat then raise cLANDING 0 t
  else .ok t.toNat

/-- Byte lanes from lo, n of them, whose predicate bit is 1. -/
def lanesOn (p : Word) (lo n : Nat) : List Nat := (span lo n).filter (fun j => p.getLsbD j)

/-- Element i of width w is active under the predicate p (R158). -/
def active (p : Word) (w i : Nat) : Bool := p.getLsbD (w * i / 8)

/-- The elements of width w of a line. -/
def lineOf (v : Line) (w : Nat) : List Nat := elemsOf v.toNat w (512 / w)

/-- A line from its elements of width w. -/
def ofElems (w : Nat) (l : List Nat) : Line := BitVec.ofNat 512 (packElems w l)

/-- A line as its 64 bytes. -/
def bytesOfLine (v : Line) : List Byte := toBytes 64 v.toNat

/-- A line from 64 bytes. -/
def lineOfBytes (l : List Byte) : Line := BitVec.ofNat 512 (ofBytes l)

/-- The bytes whose predicate bit is 1 come from a, the others from b. -/
def blend (p : Word) (a b : Line) : Line :=
  ofElems 8 (((span 0 64).zip ((lineOf a 8).zip (lineOf b 8))).map (fun e => if p.getLsbD e.1 then e.2.1 else e.2.2))

/-- LB[b, w]: w bits of local memory from a bit address (R117). -/
def Tile.bits (x : Tile) (b w : Nat) : Nat :=
  if w = 0 then 0 else x.lm (b / 8) ((b + w - 1) / 8 + 1 - b / 8) / 2 ^ (b % 8) % 2 ^ w

/-- The bytes of the span of w bits from b with the field replaced by v. -/
def Tile.bitsBytes (x : Tile) (b w v : Nat) : List Byte :=
  let n := (b + w - 1) / 8 + 1 - b / 8
  let old := x.lm (b / 8) n
  toBytes n (old - x.bits b w * 2 ^ (b % 8) + v % 2 ^ w * 2 ^ (b % 8))

/-- The instruction is not available on a management tile (R478): PRIVILEGE with SUB 1, whose TVAL the spec does not state. -/
def State.notMgmt (s : State) : Except Stop Unit := if s.supervisor then raise cPRIV 1 (Config.freeTval s.cycle) else .ok ()

/-- The context the strand runs in, as its number and its record; a tile without one has tile count 0. -/
def State.myCtx (s : State) : Ctx :=
  match s.ctxOf s.curTile with
  | some c => s.ctx c
  | none => {}

end Sys2Proof.Machine
end

