-- ==== Sys2Proof/Machine/Scalar.lean ====
section
/-! DEFINITION. The scalar instructions of 05_scalar_isa.md: ILL, ALU, MULDIV, CMP, the immediate forms, LEA, constants and
bit fields. Each writes one scalar register; s0 discards the write (R13). -/
namespace Sys2Proof.Machine

/-- An instruction whose whole effect is to write v to s[d]. -/
def State.putS (s : State) (i : Instr) (d : BitVec 6) (v : Word) : Host.Outcome State Fault Refusal :=
  s.finishSeq i (.ok (s.setS d v))

/-- A division instruction: INT_DIVIDE_ZERO when the divisor is 0 (R120). -/
def State.putDiv (s : State) (i : Instr) (d b : BitVec 6) (v : Word) : Host.Outcome State Fault Refusal :=
  s.finishSeq i (if s.getS b = 0 then raise cDIV0 0 0 else .ok (s.setS d v))

/-- The 64-bit word of a truth value. -/
def wordOf (b : Bool) : Word := if b then 1 else 0

/-- The number of leading zero bits (R119). -/
def clz64 (a : Word) : Nat := if a = 0 then 64 else 63 - Nat.log2 a.toNat
/-- The number of trailing zero bits (R119). -/
def ctz64 (a : Word) : Nat := ((span 0 64).takeWhile (fun i => !a.getLsbD i)).length
/-- The number of one bits (R119, R183). -/
def popc64 (a : Word) : Nat := ((span 0 64).filter (fun i => a.getLsbD i)).length
/-- Bit i moved to bit 63 - i (R119). -/
def brev64 (a : Word) : Word := BitVec.ofNat 64 ((span 0 64).foldl (fun n i => 2 * n + (if a.getLsbD i then 1 else 0)) 0)

/-- The low bits of b that a shift or a rotate uses (R118). -/
def shAmt (b : Word) : Nat := b.toNat % 64

/-- ILL (R62): ILLEGAL_OPCODE with SUB 1, TVAL the first word (R65). -/
def execIll (x : BitVec 22) (s : State) : Host.Outcome State Fault Refusal :=
  s.finishSeq (.ill x) (raise cILLOP 1 (((s.cluster (clusterOf s.curTile)).word s.own).setWidth 64))

/-- ADD (R118). -/
def execAdd (d a b : BitVec 6) (s : State) : Host.Outcome State Fault Refusal :=
  s.putS (.add d a b) d ((s.getS a) + (s.getS b))

/-- SUB (R118). -/
def execSub (d a b : BitVec 6) (s : State) : Host.Outcome State Fault Refusal :=
  s.putS (.sub d a b) d ((s.getS a) - (s.getS b))

/-- AND (R118). -/
def execAnd (d a b : BitVec 6) (s : State) : Host.Outcome State Fault Refusal :=
  s.putS (.and d a b) d ((s.getS a) &&& (s.getS b))

/-- OR (R118). -/
def execOr (d a b : BitVec 6) (s : State) : Host.Outcome State Fault Refusal :=
  s.putS (.or d a b) d ((s.getS a) ||| (s.getS b))

/-- XOR (R118). -/
def execXor (d a b : BitVec 6) (s : State) : Host.Outcome State Fault Refusal :=
  s.putS (.xor d a b) d ((s.getS a) ^^^ (s.getS b))

/-- ANDN (R118). -/
def execAndn (d a b : BitVec 6) (s : State) : Host.Outcome State Fault Refusal :=
  s.putS (.andn d a b) d ((s.getS a) &&& ~~~(s.getS b))

/-- SHL (R118). -/
def execShl (d a b : BitVec 6) (s : State) : Host.Outcome State Fault Refusal :=
  s.putS (.shl d a b) d ((s.getS a) <<< shAmt (s.getS b))

/-- SHR (R118). -/
def execShr (d a b : BitVec 6) (s : State) : Host.Outcome State Fault Refusal :=
  s.putS (.shr d a b) d ((s.getS a) >>> shAmt (s.getS b))

/-- SRA (R118). -/
def execSra (d a b : BitVec 6) (s : State) : Host.Outcome State Fault Refusal :=
  s.putS (.sra d a b) d ((s.getS a).sshiftRight (shAmt (s.getS b)))

/-- ROL (R118). -/
def execRol (d a b : BitVec 6) (s : State) : Host.Outcome State Fault Refusal :=
  s.putS (.rol d a b) d ((s.getS a).rotateLeft (shAmt (s.getS b)))

/-- MIN (R118), signed. -/
def execMin (d a b : BitVec 6) (s : State) : Host.Outcome State Fault Refusal :=
  s.putS (.min d a b) d (if (s.getS a).toInt ≤ (s.getS b).toInt then s.getS a else s.getS b)

/-- MAX (R118), signed. -/
def execMax (d a b : BitVec 6) (s : State) : Host.Outcome State Fault Refusal :=
  s.putS (.max d a b) d (if (s.getS a).toInt ≤ (s.getS b).toInt then s.getS b else s.getS a)

/-- MINN (R118), unsigned. -/
def execMinn (d a b : BitVec 6) (s : State) : Host.Outcome State Fault Refusal :=
  s.putS (.minn d a b) d (if (s.getS a).toNat ≤ (s.getS b).toNat then s.getS a else s.getS b)

/-- MAXN (R118), unsigned. -/
def execMaxn (d a b : BitVec 6) (s : State) : Host.Outcome State Fault Refusal :=
  s.putS (.maxn d a b) d (if (s.getS a).toNat ≤ (s.getS b).toNat then s.getS b else s.getS a)

/-- ADDS (R118): SatInt of the sum. -/
def execAdds (d a b : BitVec 6) (s : State) : Host.Outcome State Fault Refusal :=
  s.putS (.adds d a b) d (wrap64 (satInt ((s.getS a).toInt + (s.getS b).toInt) true 64))

/-- SUBS (R118): SatInt of the difference. -/
def execSubs (d a b : BitVec 6) (s : State) : Host.Outcome State Fault Refusal :=
  s.putS (.subs d a b) d (wrap64 (satInt ((s.getS a).toInt - (s.getS b).toInt) true 64))

/-- MUL (R119). -/
def execMul (d a b : BitVec 6) (s : State) : Host.Outcome State Fault Refusal :=
  s.putS (.mul d a b) d ((s.getS a) * (s.getS b))

/-- MULH (R119). -/
def execMulh (d a b : BitVec 6) (s : State) : Host.Outcome State Fault Refusal :=
  s.putS (.mulh d a b) d (wrap64 ((s.getS a).toInt * (s.getS b).toInt / 2 ^ 64))

/-- MULHN (R119). -/
def execMulhn (d a b : BitVec 6) (s : State) : Host.Outcome State Fault Refusal :=
  s.putS (.mulhn d a b) d (BitVec.ofNat 64 ((s.getS a).toNat * (s.getS b).toNat / 2 ^ 64))

/-- DIV (R119, R120): rounded toward zero. -/
def execDiv (d a b : BitVec 6) (s : State) : Host.Outcome State Fault Refusal :=
  s.putDiv (.div d a b) d b (wrap64 (Int.tdiv (s.getS a).toInt (s.getS b).toInt))

/-- DIVN (R119, R120). -/
def execDivn (d a b : BitVec 6) (s : State) : Host.Outcome State Fault Refusal :=
  s.putDiv (.divn d a b) d b (BitVec.ofNat 64 ((s.getS a).toNat / (s.getS b).toNat))

/-- REM (R119, R120). -/
def execRem (d a b : BitVec 6) (s : State) : Host.Outcome State Fault Refusal :=
  s.putDiv (.rem d a b) d b (wrap64 ((s.getS a).toInt - (s.getS b).toInt * Int.tdiv (s.getS a).toInt (s.getS b).toInt))

/-- REMN (R119, R120). -/
def execRemn (d a b : BitVec 6) (s : State) : Host.Outcome State Fault Refusal :=
  s.putDiv (.remn d a b) d b (BitVec.ofNat 64 ((s.getS a).toNat - (s.getS b).toNat * ((s.getS a).toNat / (s.getS b).toNat)))

/-- CLZ (R119). -/
def execClz (d a : BitVec 6) (s : State) : Host.Outcome State Fault Refusal :=
  s.putS (.clz d a) d (BitVec.ofNat 64 (clz64 (s.getS a)))

/-- CTZ (R119). -/
def execCtz (d a : BitVec 6) (s : State) : Host.Outcome State Fault Refusal :=
  s.putS (.ctz d a) d (BitVec.ofNat 64 (ctz64 (s.getS a)))

/-- POPC (R119). -/
def execPopc (d a : BitVec 6) (s : State) : Host.Outcome State Fault Refusal :=
  s.putS (.popc d a) d (BitVec.ofNat 64 (popc64 (s.getS a)))

/-- BREV (R119). -/
def execBrev (d a : BitVec 6) (s : State) : Host.Outcome State Fault Refusal :=
  s.putS (.brev d a) d (brev64 (s.getS a))

/-- SEQ (R121). -/
def execSeq (d a b : BitVec 6) (s : State) : Host.Outcome State Fault Refusal :=
  s.putS (.seq d a b) d (wordOf ((s.getS a) == (s.getS b)))

/-- SNE (R121). -/
def execSne (d a b : BitVec 6) (s : State) : Host.Outcome State Fault Refusal :=
  s.putS (.sne d a b) d (wordOf ((s.getS a) != (s.getS b)))

/-- SLT (R121), signed. -/
def execSlt (d a b : BitVec 6) (s : State) : Host.Outcome State Fault Refusal :=
  s.putS (.slt d a b) d (wordOf (decide ((s.getS a).toInt < (s.getS b).toInt)))

/-- SGE (R121), signed. -/
def execSge (d a b : BitVec 6) (s : State) : Host.Outcome State Fault Refusal :=
  s.putS (.sge d a b) d (wordOf (decide ((s.getS b).toInt ≤ (s.getS a).toInt)))

/-- SLTN (R121), unsigned. -/
def execSltn (d a b : BitVec 6) (s : State) : Host.Outcome State Fault Refusal :=
  s.putS (.sltn d a b) d (wordOf (decide ((s.getS a).toNat < (s.getS b).toNat)))

/-- SGEN (R121), unsigned. -/
def execSgen (d a b : BitVec 6) (s : State) : Host.Outcome State Fault Refusal :=
  s.putS (.sgen d a b) d (wordOf (decide ((s.getS b).toNat ≤ (s.getS a).toNat)))

/-- CMOV (R121): s[d] is left unchanged when s[b] is 0. -/
def execCmov (d a b : BitVec 6) (s : State) : Host.Outcome State Fault Refusal :=
  s.finishSeq (.cmov d a b) (.ok (if s.getS b ≠ 0 then s.setS d (s.getS a) else s))

/-- ADDI (R122). -/
def execAddi (d a : BitVec 6) (i : BitVec 10) (s : State) : Host.Outcome State Fault Refusal :=
  s.putS (.addi d a i) d ((s.getS a) + wrap64 (s.imm i))

/-- ANDI (R122). -/
def execAndi (d a : BitVec 6) (i : BitVec 10) (s : State) : Host.Outcome State Fault Refusal :=
  s.putS (.andi d a i) d ((s.getS a) &&& wrap64 (s.imm i))

/-- ORI (R122). -/
def execOri (d a : BitVec 6) (i : BitVec 10) (s : State) : Host.Outcome State Fault Refusal :=
  s.putS (.ori d a i) d ((s.getS a) ||| wrap64 (s.imm i))

/-- XORI (R122). -/
def execXori (d a : BitVec 6) (i : BitVec 10) (s : State) : Host.Outcome State Fault Refusal :=
  s.putS (.xori d a i) d ((s.getS a) ^^^ wrap64 (s.imm i))

/-- SHLI (R122). -/
def execShli (d a h : BitVec 6) (s : State) : Host.Outcome State Fault Refusal :=
  s.putS (.shli d a h) d ((s.getS a) <<< h.toNat)

/-- SHRI (R122). -/
def execShri (d a h : BitVec 6) (s : State) : Host.Outcome State Fault Refusal :=
  s.putS (.shri d a h) d ((s.getS a) >>> h.toNat)

/-- SRAI (R122). -/
def execSrai (d a h : BitVec 6) (s : State) : Host.Outcome State Fault Refusal :=
  s.putS (.srai d a h) d ((s.getS a).sshiftRight h.toNat)

/-- MULI (R122). -/
def execMuli (d a : BitVec 6) (i : BitVec 10) (s : State) : Host.Outcome State Fault Refusal :=
  s.putS (.muli d a i) d ((s.getS a) * wrap64 (s.imm i))

/-- SLTI (R122), signed. -/
def execSlti (d a : BitVec 6) (i : BitVec 10) (s : State) : Host.Outcome State Fault Refusal :=
  s.putS (.slti d a i) d (wordOf (decide ((s.getS a).toInt < s.imm i)))

/-- SLTNI (R122): unsigned, against WrapInt(imm, n64). -/
def execSltni (d a : BitVec 6) (i : BitVec 10) (s : State) : Host.Outcome State Fault Refusal :=
  s.putS (.sltni d a i) d (wordOf (decide ((s.getS a).toNat < (wrap64 (s.imm i)).toNat)))

/-- LEA (R123). -/
def execLea (d a b : BitVec 6) (h : BitVec 3) (s : State) : Host.Outcome State Fault Refusal :=
  s.putS (.lea d a b h) d ((s.getS a) + (s.getS b) * BitVec.ofNat 64 (2 ^ h.toNat))

/-- LDK (R124). -/
def execLdk (d : BitVec 6) (i : BitVec 16) (s : State) : Host.Outcome State Fault Refusal :=
  s.putS (.ldk d i) d (wrap64 (s.imm i))

/-- LDI (R125): the payload sign-extended. -/
def execLdi (x : BitVec 6) (imm : BitVec 32) (s : State) : Host.Outcome State Fault Refusal :=
  s.putS (.ldi x imm) x (imm.signExtend 64)

/-- LDIH (R125): the payload in bits 63:32, bits 31:0 kept. -/
def execLdih (x : BitVec 6) (imm : BitVec 32) (s : State) : Host.Outcome State Fault Refusal :=
  s.putS (.ldih x imm) x (imm ++ (s.getS x).setWidth 32)

/-- BEXT (R126): the field of w + 1 bits from lo, zero-extended. -/
def execBext (d a lo w : BitVec 6) (s : State) : Host.Outcome State Fault Refusal :=
  s.putS (.bext d a lo w) d (BitVec.ofNat 64 ((s.getS a).toNat / 2 ^ lo.toNat % 2 ^ (w.toNat + 1)))

/-- BINS (R126): the field of w + 1 bits from lo of s[d] is replaced by the low bits of s[a]. -/
def execBins (d a lo w : BitVec 6) (s : State) : Host.Outcome State Fault Refusal :=
  let n := w.toNat + 1
  let old := (s.getS d).toNat
  s.putS (.bins d a lo w) d (BitVec.ofNat 64
    (old - old / 2 ^ lo.toNat % 2 ^ n * 2 ^ lo.toNat + (s.getS a).toNat % 2 ^ n * 2 ^ lo.toNat))

/-- ADDPC (R127): the own address plus the signed byte offset. -/
def execAddpc (x : BitVec 6) (off : BitVec 32) (s : State) : Host.Outcome State Fault Refusal :=
  s.putS (.addpc x off) x (wrap64 (s.own + off.toInt))

end Sys2Proof.Machine
end

