-- ==== Sys2Proof/Machine/LocalMem.lean ====
section
/-! DEFINITION. Local loads and stores, bit fields, atomics, full/empty words and tags (05_scalar_isa.md R128 to R136,
09_strands_and_deadlines.md R246 to R249), and units with PONE (10_clusters_launch.md R260 to R265). -/
namespace Sys2Proof.Machine

/-! ### PONE -/

/-- The strand's tile is the elected tile of its cluster (R260); a management tile stands alone. -/
def State.elected (s : State) : Bool :=
  s.supervisor || (s.cluster (clusterOf s.curTile)).elect.toNat == s.curTile % 16

/-- The other tiles of the cluster whose strand of this index is not RETIRED (R262). -/
def State.poneTargets (s : State) : List Nat :=
  (tilesOf (clusterOf s.curTile)).filter (fun t => t != s.curTile && (s.strand t s.curStrand).st != .retired)

/-- Records on their way to the post queue n of a tile. -/
def State.postsInFlight (s : State) (t : Nat) (n : BitVec 2) : Nat :=
  (s.net.filter (fun m => match m with | .post u k _ => u == t && k == n | _ => false)).length

/-- A post queue for the strand's index is full (R262): 8 records held or on their way (log entry 7). -/
def State.poneFull (s : State) : Bool :=
  s.poneTargets.any (fun t => decide (8 ≤ (((s.tile t).posts[s.curStrand.toNat]'(s.curStrand.isLt)).length + s.postsInFlight t s.curStrand)))

/-- The current strand's post queue holds a record of the tile's own superstep and attempt (R263, R265): an elected tile that has run the
decision first may have posted one of the next. -/
def State.postReady (s : State) : Bool :=
  match s.here.posts[s.curStrand.toNat]'(s.curStrand.isLt) with
  | [] => false
  | r :: _ => r.num == s.here.num && r.att == s.here.att

/-- A unit that may carry PONE (R58, R261 to R263): get and put read and write the destination as 512 bits, wst says that
the instruction writes WST, e is its effect without PONE. -/
def State.finishPone (s : State) (i : Instr) (get : State → Line) (put : State → Line → State) (wst : Bool)
    (e : Except Stop State) : Host.Outcome State Fault Refusal :=
  if !s.pone then s.finishSeq i e
  else if s.elected then
    if s.me.wait.isNone && s.poneFull then s.finishSeq i (.error (.stall 8 0))
    else s.finishSeq i (e.map (fun t =>
      let r : PostRec :=
        { addr := s.me.pc, bits := get t, wst := if wst then some t.me.wst else none, num := s.here.num, att := s.here.att }
      s.poneTargets.foldl (fun u k => u.send (.post k s.curStrand r)) t))
  else
    match s.here.posts[s.curStrand.toNat]'(s.curStrand.isLt) with
    | [] => s.finishSeq i (.error (.stall 8 0))
    | r :: rest =>
      if !s.postReady then s.finishSeq i (.error (.stall 8 0))
      else if r.addr ≠ s.me.pc then s.finishSeq i (raise cPFXMIS 1 (r.addr.setWidth 64))
      else
        let t := s.setHere { s.here with posts := s.here.posts.set s.curStrand.toNat rest s.curStrand.isLt }
        let t := put t r.bits
        s.finishSeq i (.ok (match r.wst with | some c => t.setWst c s.me.pc.toNat | none => t))

/-- The bytes a PONE local load reads: committed data, from pre-images where lines have one (R264). -/
def Tile.committed (x : Tile) (a n : Nat) : Nat :=
  ofBytes ((span a n).map (fun b =>
    match SMap.find x.pre (b / 64) with
    | some p => BitVec.ofNat 8 (p.bytes.toNat / 2 ^ (8 * (b % 64)))
    | none => x.byte b))

/-- The bytes lie in VERSIONED regions (R264). -/
def Tile.allVersioned (x : Tile) (a n : Nat) : Bool := (linesOf a n).all (fun k => x.attr (64 * k) == 0)

/-- The value a local load of n bytes at a reads, and the state after the read: the checks of R129, and under PONE those of
R264 in their place. -/
def State.loadValue (s : State) (a : Word) (n : Nat) : Except Stop (State × Nat) :=
  if s.pone then
    if 2 ^ 18 ≤ a.toNat then raise cBOUND 0 a
    else if a.toNat % n ≠ 0 then raise cMISAL 0 a
    else if !s.supervisor && !s.here.allVersioned a.toNat n then raise cPFXMIS 2 a
    else if s.here.locked a.toNat n .load then raise cLOCK 0 a
    else (s.loadNum a.toNat n a).map (fun r => (r.1, s.here.committed a.toNat n))
  else match s.checkLocal a n .load with
    | .error e => .error e
    | .ok _ => s.loadNum a.toNat n a

/-! ### Loads and stores -/

/-- A local load (R128): n bytes, made into a word by conv. -/
def State.load (s : State) (i : Instr) (d a : BitVec 6) (imm : BitVec 10) (n : Nat) (conv : Nat → Word) :
    Host.Outcome State Fault Refusal :=
  s.finishPone i (fun t => (t.getS d).setWidth 512) (fun t v => t.setS d (v.setWidth 64)) false
    ((s.loadValue (s.address a imm n) n).map (fun r => r.1.setS d (conv r.2)))

/-- A local store (R128) of the n low bytes of s[d]. -/
def State.store (s : State) (i : Instr) (d a : BitVec 6) (imm : BitVec 10) (n : Nat) : Host.Outcome State Fault Refusal :=
  let adr := s.address a imm n
  s.finishSeq i (match s.checkLocal adr n .store with
    | .error e => .error e
    | .ok _ => (s.preRead adr (linesOf adr.toNat n)).map (fun t => t.storeNum adr.toNat n (s.getS d).toNat))

/-- The n-byte value as a signed word (R128). -/
def sext (n v : Nat) : Word := wrap64 (intVal true (8 * n) v)

/-- LD.i8 (R128, R129). -/
def execLdI8 (d a : BitVec 6) (i : BitVec 10) (s : State) : Host.Outcome State Fault Refusal :=
  s.load (.ldI8 d a i) d a i 1 (sext 1)

/-- LD.i16 (R128, R129). -/
def execLdI16 (d a : BitVec 6) (i : BitVec 10) (s : State) : Host.Outcome State Fault Refusal :=
  s.load (.ldI16 d a i) d a i 2 (sext 2)

/-- LD.i32 (R128, R129). -/
def execLdI32 (d a : BitVec 6) (i : BitVec 10) (s : State) : Host.Outcome State Fault Refusal :=
  s.load (.ldI32 d a i) d a i 4 (sext 4)

/-- LD.i64 (R128, R129). -/
def execLdI64 (d a : BitVec 6) (i : BitVec 10) (s : State) : Host.Outcome State Fault Refusal :=
  s.load (.ldI64 d a i) d a i 8 (sext 8)

/-- LD.n8 (R128, R129). -/
def execLdN8 (d a : BitVec 6) (i : BitVec 10) (s : State) : Host.Outcome State Fault Refusal :=
  s.load (.ldN8 d a i) d a i 1 (BitVec.ofNat 64)

/-- LD.n16 (R128, R129). -/
def execLdN16 (d a : BitVec 6) (i : BitVec 10) (s : State) : Host.Outcome State Fault Refusal :=
  s.load (.ldN16 d a i) d a i 2 (BitVec.ofNat 64)

/-- LD.n32 (R128, R129). -/
def execLdN32 (d a : BitVec 6) (i : BitVec 10) (s : State) : Host.Outcome State Fault Refusal :=
  s.load (.ldN32 d a i) d a i 4 (BitVec.ofNat 64)

/-- ST.8 (R128, R129). -/
def execSt8 (d a : BitVec 6) (i : BitVec 10) (s : State) : Host.Outcome State Fault Refusal :=
  s.store (.st8 d a i) d a i 1

/-- ST.16 (R128, R129). -/
def execSt16 (d a : BitVec 6) (i : BitVec 10) (s : State) : Host.Outcome State Fault Refusal :=
  s.store (.st16 d a i) d a i 2

/-- ST.32 (R128, R129). -/
def execSt32 (d a : BitVec 6) (i : BitVec 10) (s : State) : Host.Outcome State Fault Refusal :=
  s.store (.st32 d a i) d a i 4

/-- ST.64 (R128, R129). -/
def execSt64 (d a : BitVec 6) (i : BitVec 10) (s : State) : Host.Outcome State Fault Refusal :=
  s.store (.st64 d a i) d a i 8

/-- The bytes that w bits from bit address b touch: the first and how many (R130). -/
def bitSpan (b w : Nat) : Nat × Nat := (b / 8, (b + w - 1) / 8 + 1 - b / 8)

/-- The checks of LDBITS and STBITS (R130): TVAL is the bit address. -/
def State.checkBits (s : State) (b : Word) (w : Nat) (acc : Access) : Except Stop Unit :=
  let p := bitSpan b.toNat w
  if 2 ^ 21 ≤ b.toNat ∨ 2 ^ 21 < b.toNat + w then raise cBOUND 0 b
  else if s.here.locked p.1 p.2 acc then raise cLOCK 0 b
  else if acc = .store ∧ !s.here.retentionOk s.supervisor (linesOf p.1 p.2) then raise cRETFULL 0 b
  else .ok ()

/-- LDBITS (R130, R131). -/
def execLdbits (d a w : BitVec 6) (s : State) : Host.Outcome State Fault Refusal :=
  let b := s.getS a
  let n := w.toNat + 1
  let p := bitSpan b.toNat n
  s.finishSeq (.ldbits d a w) (match s.checkBits b n .load with
    | .error e => .error e
    | .ok _ => (s.readLines b (linesOf p.1 p.2)).map
        (fun t => (t.note false false p.1 p.2).setS d (BitVec.ofNat 64 (t.view.bits b.toNat n))))

/-- The cells of a field of w bits at bit address b: in each byte the bits of the field. -/
def fieldCells (b w v : Nat) : List WCell :=
  (span (bitSpan b w).1 (bitSpan b w).2).map (fun a =>
    let lo := max b (8 * a)
    let hi := min (b + w) (8 * a + 8)
    { addr := a, mask := BitVec.ofNat 8 ((2 ^ (hi - lo) - 1) * 2 ^ (lo - 8 * a)),
      val := BitVec.ofNat 8 (v / 2 ^ (lo - b) * 2 ^ (lo - 8 * a)) })

/-- Fields (bit address, width, value) are stored by the strand: each touched line is one access that changes the bits of its fields
alone, whenever it is performed (R131, R178). -/
def State.putBits (s : State) (l : List (Nat × Nat × Nat)) : State :=
  if s.direct then
    s.setHere (l.foldl (fun (y : Tile) f => y.storeBytes s.supervisor (f.1 / 8) (y.bitsBytes f.1 f.2.1 f.2.2)) s.here)
  else s.storeParts (partsOf s.curStrand s.cycle 64 (l.flatMap (fun f => fieldCells f.1 f.2.1 f.2.2)))

/-- STBITS (R130, R131): other bits of the touched bytes are unchanged. -/
def execStbits (d a w : BitVec 6) (s : State) : Host.Outcome State Fault Refusal :=
  let b := s.getS a
  let n := w.toNat + 1
  let p := bitSpan b.toNat n
  s.finishSeq (.stbits d a w) (match s.checkBits b n .store with
    | .error e => .error e
    | .ok _ => (s.andThen (s.readLines b (linesOf p.1 p.2)) (fun t => t.preRead b (linesOf p.1 p.2))).map (fun t =>
        (t.putBits [(b.toNat, n, (s.getS d).toNat)]).note false true p.1 p.2))

/-! ### Atomics -/

/-- An atomic on n bytes at s[a] (R132, R133), a release and acquire point (R349): new gives what is written from the old value; s[d] receives the old value. -/
def State.atomic (s : State) (i : Instr) (d a : BitVec 6) (n : Nat) (new : Nat → Nat) : Host.Outcome State Fault Refusal :=
  let adr := s.getS a
  s.finishSeq i (match s.checkLocal adr n .store with
    | .error e => .error e
    | .ok _ => (s.andThen (s.release.preRead adr (linesOf adr.toNat n)) (fun t => t.loadNum adr.toNat n adr)).map
        (fun r => (r.1.storeNow adr.toNat n (new r.2)).setS d (sext n r.2)))

/-- The operand of an atomic, on n bytes. -/
def State.amoArg (s : State) (b : BitVec 6) (n : Nat) : Nat := (s.getS b).toNat % 2 ^ (8 * n)


/-- AMOADD on 32 bits (R132). -/
def execAmoadd32 (d a b : BitVec 6) (s : State) : Host.Outcome State Fault Refusal :=
  s.atomic (.amoadd32 d a b) d a 4 (fun o => (o + s.amoArg b 4) % 2 ^ 32)

/-- AMOAND on 32 bits (R132). -/
def execAmoand32 (d a b : BitVec 6) (s : State) : Host.Outcome State Fault Refusal :=
  s.atomic (.amoand32 d a b) d a 4 (fun o => o &&& s.amoArg b 4)

/-- AMOOR on 32 bits (R132). -/
def execAmoor32 (d a b : BitVec 6) (s : State) : Host.Outcome State Fault Refusal :=
  s.atomic (.amoor32 d a b) d a 4 (fun o => o ||| s.amoArg b 4)

/-- AMOXOR on 32 bits (R132). -/
def execAmoxor32 (d a b : BitVec 6) (s : State) : Host.Outcome State Fault Refusal :=
  s.atomic (.amoxor32 d a b) d a 4 (fun o => o ^^^ s.amoArg b 4)

/-- AMOMIN on 32 bits (R132). -/
def execAmomin32 (d a b : BitVec 6) (s : State) : Host.Outcome State Fault Refusal :=
  s.atomic (.amomin32 d a b) d a 4 (fun o => if intVal true 32 o ≤ intVal true 32 (s.amoArg b 4) then o else s.amoArg b 4)

/-- AMOMAX on 32 bits (R132). -/
def execAmomax32 (d a b : BitVec 6) (s : State) : Host.Outcome State Fault Refusal :=
  s.atomic (.amomax32 d a b) d a 4 (fun o => if intVal true 32 o ≤ intVal true 32 (s.amoArg b 4) then s.amoArg b 4 else o)

/-- AMOSWP on 32 bits (R132). -/
def execAmoswp32 (d a b : BitVec 6) (s : State) : Host.Outcome State Fault Refusal :=
  s.atomic (.amoswp32 d a b) d a 4 (fun _ => s.amoArg b 4)

/-- AMOADD on 64 bits (R132). -/
def execAmoadd64 (d a b : BitVec 6) (s : State) : Host.Outcome State Fault Refusal :=
  s.atomic (.amoadd64 d a b) d a 8 (fun o => (o + s.amoArg b 8) % 2 ^ 64)

/-- AMOAND on 64 bits (R132). -/
def execAmoand64 (d a b : BitVec 6) (s : State) : Host.Outcome State Fault Refusal :=
  s.atomic (.amoand64 d a b) d a 8 (fun o => o &&& s.amoArg b 8)

/-- AMOOR on 64 bits (R132). -/
def execAmoor64 (d a b : BitVec 6) (s : State) : Host.Outcome State Fault Refusal :=
  s.atomic (.amoor64 d a b) d a 8 (fun o => o ||| s.amoArg b 8)

/-- AMOXOR on 64 bits (R132). -/
def execAmoxor64 (d a b : BitVec 6) (s : State) : Host.Outcome State Fault Refusal :=
  s.atomic (.amoxor64 d a b) d a 8 (fun o => o ^^^ s.amoArg b 8)

/-- AMOMIN on 64 bits (R132). -/
def execAmomin64 (d a b : BitVec 6) (s : State) : Host.Outcome State Fault Refusal :=
  s.atomic (.amomin64 d a b) d a 8 (fun o => if intVal true 64 o ≤ intVal true 64 (s.amoArg b 8) then o else s.amoArg b 8)

/-- AMOMAX on 64 bits (R132). -/
def execAmomax64 (d a b : BitVec 6) (s : State) : Host.Outcome State Fault Refusal :=
  s.atomic (.amomax64 d a b) d a 8 (fun o => if intVal true 64 o ≤ intVal true 64 (s.amoArg b 8) then s.amoArg b 8 else o)

/-- AMOSWP on 64 bits (R132). -/
def execAmoswp64 (d a b : BitVec 6) (s : State) : Host.Outcome State Fault Refusal :=
  s.atomic (.amoswp64 d a b) d a 8 (fun _ => s.amoArg b 8)

/-- AMOCAS (R133): the pre-image is taken even when the comparison fails. -/
def execAmocas (d a b : BitVec 6) (wide : BitVec 1) (n : BitVec 6) (s : State) : Host.Outcome State Fault Refusal :=
  let z := if wide = 1 then 8 else 4
  s.atomic (.amocas d a b wide n) d a z (fun o => if o = s.amoArg b z then s.amoArg n z else o)

/-! ### Full/empty words -/

/-- The tag of the word at a (R18): true is full. -/
def Tile.full (x : Tile) (a : Nat) : Bool := (x.bandAt (a / 64)).getLsbD (a / 4 % 16)

/-- The tag of the word at a is set or cleared. -/
def Tile.setFull (x : Tile) (a : Nat) (v : Bool) : Tile :=
  let b := x.bandAt (a / 64)
  let m : BitVec 32 := 1#32 <<< (a / 4 % 16)
  x.setBand (a / 64) (if v then b ||| m else b &&& ~~~m)

/-- What LDFE does when the tag is full (R246): the checks run again as part of the action. -/
def State.ldfeMet (s : State) (d a : BitVec 6) (keep : Bool) : Except Stop State :=
  let adr := s.getS a
  match s.checkLocal adr 4 (if keep then .ldfeKeep else .ldfe) with
  | .error e => .error e
  | .ok _ => (s.andThen (s.readSide (adr.toNat / 64) adr) (fun t => t.andThen (t.readLines adr (linesOf adr.toNat 4)) (fun u =>
      if keep then .ok u else u.preRead adr (linesOf adr.toNat 4)))).map (fun t =>
      let v := t.view.lm adr.toNat 4
      let x := if keep then t.here else (t.here.touch s.supervisor (adr.toNat / 64) 0).setFull adr.toNat false
      ((((t.setHere x).note false false adr.toNat 4).note false true adr.toNat (if keep then 0 else 4)).setS d (BitVec.ofNat 64 v)).setWst 0 s.me.pc.toNat)

/-- What STFE does when the tag is empty (R247): a release point (R349). -/
def State.stfeMet (s : State) (d a : BitVec 6) : Except Stop State :=
  let adr := s.getS a
  match s.checkLocal adr 4 .store with
  | .error e => .error e
  | .ok _ => (s.andThen (s.release.readSide (adr.toNat / 64) adr) (fun t => t.preRead adr (linesOf adr.toNat 4))).map (fun t =>
    let t := t.storeNow adr.toNat 4 (s.getS d).toNat
    (t.setHere ((t.here.touch s.supervisor (adr.toNat / 64) 0).setFull adr.toNat true)).setWst 0 s.me.pc.toNat)

/-- A waiting LDFE or STFE of the word at a: 0 LDFE with KEEP, 1 LDFE, 2 STFE. -/
def Strand.feWaits (r : Strand) (a : Nat) : Option Nat :=
  let reg := fun (x : BitVec 6) => if x = 0 then 0 else (r.s[x.toNat]'(x.isLt)).toNat
  match r.st, r.wait with
  | .wait, some w =>
    match w.instr with
    | .ldfeKeep _ b _ => if reg b = a then some 0 else none
    | .ldfe _ b _ => if reg b = a then some 1 else none
    | .stfe _ b _ => if reg b = a then some 2 else none
    | _ => none
  | _, _ => none

/-- The strand of the tile that is served next at the word (R248): with the tag full, first every LDFE with KEEP, then the
first LDFE; with the tag empty, the first STFE; the first by the cycle in which the wait began, then by strand index. -/
def Tile.nextServed (x : Tile) (a : Nat) : Option (BitVec 2) :=
  let kinds := if x.full a then [0, 1] else [2]
  kinds.findSome? (fun k =>
    (strandIx.filter (fun n => (x.strand n).feWaits a == some k)).foldl (fun best n =>
      match best with
      | none => some n
      | some b =>
        let since : BitVec 2 → Nat := fun m => match (x.strand m).wait with | some w => w.since | none => 0
        if since n < since b then some n else some b) none)

/-- The instructions waiting at the word a of the current tile are served (R248), at most n of them. -/
def State.serve (a : Nat) : Nat → State → State
  | 0, s => s
  | f + 1, s =>
    match s.here.nextServed a with
    | none => s
    | some n =>
      let u := { s with curStrand := n }
      match u.me.wait with
      | none => s
      | some w =>
        let u := u.setMe { u.me with st := .run, pfx := w.pfx }
        let r := match w.instr with
          | .ldfe d b _ => u.finishSeq w.instr (u.ldfeMet d b false)
          | .ldfeKeep d b _ => u.finishSeq w.instr (u.ldfeMet d b true)
          | .stfe d b _ => u.finishSeq w.instr (u.stfeMet d b)
          | _ => .next u
        match r with
        | .next v => State.serve a f { v with curStrand := s.curStrand }
        | _ => s

/-- The waiting instructions at a word are served after an instruction or an event that may have changed its tag. -/
def serveAfter (a : Nat) : Host.Outcome State Fault Refusal → Host.Outcome State Fault Refusal
  | .next s => .next (State.serve a 4 s)
  | r => r

/-- LDFE and STFE (R135, R246, R247): the checks of R129 at issue, then the wait on the tag, then its action. Instructions
already waiting on the word are met before one that is just issuing (R248). -/
def State.fullEmpty (s : State) (i : Instr) (a : BitVec 6) (l : BitVec 3) (acc : Access) (wantFull : Bool)
    (met : State → Except Stop State) : Host.Outcome State Fault Refusal :=
  let adr := s.getS a
  let go : Eff :=
    match s.checkLocal adr 4 acc with
    | .error e => .error e
    | .ok _ =>
      s.andThen (s.readSide (adr.toNat / 64) adr) (fun t =>
        match t.waitTest l (t.here.full adr.toNat == wantFull) with
        | .met => (met t).map (fun u => (u, .seq))
        | .notMet => .ok (t.setWst 4 t.me.pc.toNat, .seq)
        | .timeout => .ok (t.setWst 1 t.me.pc.toNat, .seq)
        | .on k => .error (.wait k))
  serveAfter adr.toNat (s.finish i go)

/-- LDFE (R135, R246). -/
def execLdfe (d a : BitVec 6) (l : BitVec 3) (s : State) : Host.Outcome State Fault Refusal :=
  s.fullEmpty (.ldfe d a l) a l .ldfe true (fun t => t.ldfeMet d a false)

/-- LDFE with KEEP (R135, R246). -/
def execLdfeKeep (d a : BitVec 6) (l : BitVec 3) (s : State) : Host.Outcome State Fault Refusal :=
  s.fullEmpty (.ldfeKeep d a l) a l .ldfeKeep true (fun t => t.ldfeMet d a true)

/-- STFE (R135, R247). -/
def execStfe (d a : BitVec 6) (l : BitVec 3) (s : State) : Host.Outcome State Fault Refusal :=
  s.fullEmpty (.stfe d a l) a l .store false (fun t => t.stfeMet d a)

/-! ### FETAG -/

/-- The checks of FETAG on the line at a (R136): changes says that the side band changes. -/
def State.checkTag (s : State) (a : Word) (acc : Access) (changes : Bool) : Except Stop Unit :=
  if 2 ^ 18 ≤ a.toNat then raise cBOUND 0 a
  else if a.toNat % 64 ≠ 0 then raise cMISAL 0 a
  else if s.here.locked a.toNat 64 acc then raise cLOCK 0 a
  else if changes && !s.here.retentionOk s.supervisor [a.toNat / 64] then raise cRETFULL 0 a
  else .ok ()

/-- FETAG (R136), with SETF and SETE a release point (R349): f gives the new side band; s[d] receives the old one, and waiting instructions of the line are served. -/
def State.fetag (s : State) (i : Instr) (d a : BitVec 6) (acc : Access) (f : BitVec 32 → BitVec 32) :
    Host.Outcome State Fault Refusal :=
  let adr := s.getS a
  let k := adr.toNat / 64
  let s := if acc = .store then s.release else s
  let old := s.view.bandAt k
  let changes := f old != old
  let r := s.finishSeq i (match s.checkTag adr acc changes with
    | .error e => .error e
    | .ok _ => (s.andThen (s.readSide k adr) (fun t => if changes then t.preRead adr [k] else .ok t)).map (fun t =>
        let t := if changes then t.setHere ((t.here.touch s.supervisor k 0).setBand k (f old)) else t
        ((t.note false false adr.toNat 64).note false true adr.toNat (if acc == .store then 64 else 0)).setS d (old.setWidth 64)))
  if changes then (span 0 16).foldl (fun o w => serveAfter (adr.toNat + 4 * w) o) r else r

/-- The side band with the descriptor that s[b] supplies when its bit 32 is 1 (R136). -/
def bandDesc (old : BitVec 32) (b : Word) : BitVec 32 :=
  if b.getLsbD 32 then (old &&& 0xFFFF) ||| (b.setWidth 32 &&& 0xFFFF0000) else old

/-- FETAG.SETF (R136). -/
def execFetagSetf (d a b : BitVec 6) (s : State) : Host.Outcome State Fault Refusal :=
  s.fetag (.fetagSetf d a b) d a .store (fun o => bandDesc (o ||| ((s.getS b).setWidth 32 &&& 0xFFFF)) (s.getS b))

/-- FETAG.SETE (R136). -/
def execFetagSete (d a b : BitVec 6) (s : State) : Host.Outcome State Fault Refusal :=
  s.fetag (.fetagSete d a b) d a .store (fun o => bandDesc (o &&& ~~~((s.getS b).setWidth 32 &&& 0xFFFF)) (s.getS b))

/-- FETAG.PEEK (R136). -/
def execFetagPeek (d a : BitVec 6) (s : State) : Host.Outcome State Fault Refusal :=
  s.fetag (.fetagPeek d a) d a .peek (fun o => o)

/-! ### A posted record arrives -/

/-- A record posted in a superstep or an attempt that its tile has left behind: the decision that the tile has run discarded it (R265). -/
def PostRec.stale (r : PostRec) (x : Tile) : Bool := decide (r.num < x.num) || (r.num == x.num && decide (r.att < x.att))

/-- PONE_RECORD_ARRIVAL (R261, R262): message State.ev.i reaches its tile's post queue; a record for a RETIRED strand is
discarded, and so is one of an attempt that the tile has left (R265). The waiting PONE unit takes it when it is tried again (R263). The spec
gives records no order in flight: DESIGN CHOICE, two records that one strand has posted may overtake each other (log entry 7). -/
def execPoneRecordArrival (s : State) : Host.Outcome State Fault Refusal :=
  match s.net[s.ev.i]? with
  | some (.post t n r) =>
    let s := { s with net := listDel s.net s.ev.i }
    let x := s.tile t
    if (x.strand n).st = .retired ∨ r.stale x = true then .next s
    else .next (s.setTile t { x with posts := x.posts.set n.toNat ((x.posts[n.toNat]'(n.isLt)) ++ [r]) n.isLt })
  | _ => .next s

end Sys2Proof.Machine
end

