-- ==== Sys2Proof/Machine/Vector.lean ====
section
/-! DEFINITION. The vector instructions that stay in registers (06_vector_isa.md R157 to R175) and the vector shadow units
(17_faults.md R425 to R427). -/
namespace Sys2Proof.Machine

/-- The floating result of operation op (the space-B OP of R162 to R165) before it is encoded (R100). -/
def floatOp (op mode : Nat) (x y z : Ext) : Ext × Flags :=
  match op with
  | 0x00 => extAdd x y mode
  | 0x01 => extAdd x y.neg mode
  | 0x02 => extMul x y
  | 0x03 => extFma x y z mode
  | 0x04 => extFma x y z.neg mode
  | 0x05 => extFma x.neg y z mode
  | 0x06 => extMinMax false x y
  | 0x07 => extMinMax true x y
  | 0x08 => (x.abs, 0)
  | 0x09 => (x.neg, 0)
  | 0x0A => extDiv x y
  | _ => extSqrt x

/-- The operation takes its rounding mode and saturation from PRND (R56, R59): VMIN, VMAX, VABS and VNEG do not. -/
def roundsFloat (op : Nat) : Bool := op ≤ 0x05 || op == 0x0A || op == 0x0B

/-- The integer result of operation op, exact before narrowing (R162 to R164). -/
def intOp (op : Nat) (x y z : Int) : Int :=
  match op with
  | 0x00 => x + y
  | 0x01 => x - y
  | 0x02 => x * y
  | 0x03 => x * y + z
  | 0x04 => x * y - z
  | 0x05 => -(x * y) + z
  | 0x06 => if x ≤ y then x else y
  | 0x07 => if x ≤ y then y else x
  | 0x08 => (x.natAbs : Int)
  | _ => -x

/-- Operation op on the encodings of one element (R162 to R167): the encoding and the flags. -/
def elemOp (op : Nat) (t : Ty) (mode : Nat) (sat : Bool) (x y z : Nat) : Nat × Flags :=
  if 0x0C ≤ op then
    let w := t.width
    let sh := y % 2 ^ w
    (match op with
      | 0x0C => x &&& y
      | 0x0D => x ||| y
      | 0x0E => x ^^^ y
      | 0x0F => x &&& (2 ^ w - 1 - y % 2 ^ w)
      | 0x10 => if sh < w then x * 2 ^ sh % 2 ^ w else 0
      | 0x11 => if sh < w then x / 2 ^ sh else 0
      | _ => if sh < w then wrapEnc (intVal true w x / 2 ^ sh) w else if x < 2 ^ (w - 1) then 0 else 2 ^ w - 1, 0)
  else match t with
    | .int sg w => (narrow (intOp op (intVal sg w x) (intVal sg w y) (intVal sg w z)) sg w sat, 0)
    | .flt _ _ _ _ _ =>
      let mode := if roundsFloat op then mode else 0
      let sat := roundsFloat op && sat
      let r := floatOp op mode (decodeTy t x) (decodeTy t y) (decodeTy t z)
      let e := encodeTy t r.1 mode sat
      (e.1, r.2 ||| e.2)

/-! ### Shadow units (R425, R426) -/

/-- A value shortened to 4 significand bits, to nearest with ties away from zero (R425). -/
def shorten (x : Ext) : Ext :=
  match x with
  | .fin n m k st =>
    if m = 0 then x
    else
      let q := (Nat.log2 m : Int) + k - 3
      .fin n (roundAt false m k q st 4).1.toNat q false
  | y => y

/-- Floor(Log2) of a finite value that is not zero. -/
def Ext.expo : Ext → Int
  | .fin _ m k _ => (Nat.log2 m : Int) + k
  | _ => 0

/-- The class of a value: 0 ZERO, 1 FINITE, 2 INF, 3 NAN (R425). -/
def Ext.cls : Ext → Nat
  | .nan _ => 3
  | .inf _ => 2
  | .fin _ m _ _ => if m = 0 then 0 else 1

/-- The largest exponent among the addends of operation op: those of a sum or the product estimate and the addend (R426). -/
def addendExpo (op : Nat) (x y z : Ext) : Option Int :=
  let e := fun (v : Ext) => if v.cls = 1 then some v.expo else none
  let big := fun (a b : Option Int) => match a, b with
    | some i, some j => some (max i j)
    | some i, none => some i
    | none, j => j
  if op ≤ 1 then big (e x) (e y) else if 3 ≤ op ∧ op ≤ 5 then big (e (extMul x y).1) (e z) else none

/-- The exponent of a shadow result, none for a magnitude of zero (R425). -/
def shadowExpo (est : Ext) : Option Int := if est.cls = 0 then none else some (shorten est).expo

/-- The main result with encoding r diverges from the shadow's (R426); est is the shadow's result, top the largest exponent
among its addends, ovf says that the main lane raised OF. -/
def diverges (t : Ty) (mode : Nat) (sat : Bool) (est : Ext) (top : Option Int) (ovf : Bool) (r : Nat) : Bool :=
  let es := shadowExpo est
  let sc := (decodeTy t (encodeTy t est mode sat).1).cls
  let main := decodeTy t r
  let big := match t with
    | .flt _ eb _ bias kind => ((if kind = 0 then 2 ^ eb - 2 else 2 ^ eb - 1 : Nat) : Int) - bias
    | _ => 0
  let cancel := match top, es with
    | some e, some k => decide (k + 3 < e)
    | some _, none => true
    | none, _ => false
  let huge := match es with | some k => decide (big ≤ k) | none => false
  let one := fun (c : Nat) => if (ovf || huge) && c == 2 then 1 else c
  let far := match es with | some k => decide (1 < (main.expo - k).natAbs) | none => false
  if cancel then (main.cls == 3) != (sc == 3) || (one main.cls == 2) != (one sc == 2)
  else one main.cls != one sc || (main.cls == 1 && sc == 1 && (main.isNeg != est.isNeg || far))

/-- The shadow lane of an element judges the result v, with flags f, that the main lane delivers for operation op on the encodings x, y
and z (R425, R426). -/
def elemDiverges (op : Nat) (t : Ty) (mode : Nat) (sat : Bool) (x y z : Nat) (f : Flags) (v : Nat) : Bool :=
  let mode := if roundsFloat op then mode else 0
  let sat := roundsFloat op && sat
  let sx := shorten (decodeTy t x)
  let sy := shorten (decodeTy t y)
  let sz := shorten (decodeTy t z)
  diverges t mode sat (floatOp op mode sx sy sz).1 (addendExpo op sx sy sz) (f &&& flOF != 0) v

/-- What a fault makes of the result of an element's main lane, if one does (R425). -/
def State.laneValue (s : State) (i : Nat) : Option Nat :=
  s.here.errs.findSome? (fun e => match e.loc with | .lane j v => if j = i then some v else none | _ => none)

/-- The state after an instruction of the vector unit has used the faults of its lanes. -/
def State.dropLanes (s : State) : State := if s.here.errs = [] then s else s.setHere s.here.dropLanes

/-! ### Element by element -/

/-- One element's turn: index, operands and the previous bits of the destination. -/
structure ElemIn where
  i : Nat
  x : Nat
  y : Nat
  z : Nat

/-- The elements of the operands of a three-register form. -/
def elemsIn (w : Nat) (a b d : Line) : List ElemIn :=
  ((span 0 (512 / w)).zip ((lineOf a w).zip ((lineOf b w).zip (lineOf d w)))).map
    (fun e => { i := e.1, x := e.2.1, y := e.2.2.1, z := e.2.2.2 })

/-- Operation op applied to the active elements of va and y, with the shadow check of floating types (R158 to R162, R427). -/
def State.vecOp (s : State) (i : Instr) (op : Nat) (d : BitVec 5) (a yv : Line) (p : BitVec 3) (y : BitVec 4) :
    Host.Outcome State Fault Refusal :=
  let t := tyOf y
  let w := t.width
  let pr := s.getP p
  let ins := elemsIn w a yv (s.getV d)
  let mode := s.mode
  let sat := s.sat
  let checked := t.isFloat && decide (op ≤ 0x0B)
  let res := ins.map (fun e =>
    if active pr w e.i then
      let r := elemOp op t mode sat e.x e.y e.z
      if checked then
        let v := match s.laneValue e.i with | some v => v % 2 ^ w | none => r.1
        (v, r.2, elemDiverges op t mode sat e.x e.y e.z r.2 v)
      else (r.1, r.2, false)
    else (e.z, 0, false))
  let bad := (ins.zip res).filterMap (fun e => if e.2.2.2 then some e.1.i else none)
  s.finishSeq i (match bad with
    | k :: _ => .error (.counted cSHADOW (BitVec.ofNat 8 k) (BitVec.ofNat 64 (bad.foldl (fun m j => m + 2 ^ j) 0)) false (k * w / 32))
    | [] => .ok (((s.dropLanes).setV d (ofElems w (res.map (fun e => e.1)))).orFlags (res.foldl (fun f e => f ||| e.2.1) 0)))

/-- VADD (R162). -/
def execVadd (d a b : BitVec 5) (p : BitVec 3) (y : BitVec 4) (s : State) : Host.Outcome State Fault Refusal :=
  s.vecOp (.vadd d a b p y) 0 d (s.getV a) (s.getV b) p y

/-- VSUB (R162). -/
def execVsub (d a b : BitVec 5) (p : BitVec 3) (y : BitVec 4) (s : State) : Host.Outcome State Fault Refusal :=
  s.vecOp (.vsub d a b p y) 1 d (s.getV a) (s.getV b) p y

/-- VMUL (R162). -/
def execVmul (d a b : BitVec 5) (p : BitVec 3) (y : BitVec 4) (s : State) : Host.Outcome State Fault Refusal :=
  s.vecOp (.vmul d a b p y) 2 d (s.getV a) (s.getV b) p y

/-- VFMA (R162): vd is the addend. -/
def execVfma (d a b : BitVec 5) (p : BitVec 3) (y : BitVec 4) (s : State) : Host.Outcome State Fault Refusal :=
  s.vecOp (.vfma d a b p y) 3 d (s.getV a) (s.getV b) p y

/-- VFMS (R162). -/
def execVfms (d a b : BitVec 5) (p : BitVec 3) (y : BitVec 4) (s : State) : Host.Outcome State Fault Refusal :=
  s.vecOp (.vfms d a b p y) 4 d (s.getV a) (s.getV b) p y

/-- VFNMA (R162). -/
def execVfnma (d a b : BitVec 5) (p : BitVec 3) (y : BitVec 4) (s : State) : Host.Outcome State Fault Refusal :=
  s.vecOp (.vfnma d a b p y) 5 d (s.getV a) (s.getV b) p y

/-- VMIN (R163). -/
def execVmin (d a b : BitVec 5) (p : BitVec 3) (y : BitVec 4) (s : State) : Host.Outcome State Fault Refusal :=
  s.vecOp (.vmin d a b p y) 6 d (s.getV a) (s.getV b) p y

/-- VMAX (R163). -/
def execVmax (d a b : BitVec 5) (p : BitVec 3) (y : BitVec 4) (s : State) : Host.Outcome State Fault Refusal :=
  s.vecOp (.vmax d a b p y) 7 d (s.getV a) (s.getV b) p y

/-- VABS (R164). -/
def execVabs (d a : BitVec 5) (p : BitVec 3) (y : BitVec 4) (s : State) : Host.Outcome State Fault Refusal :=
  s.vecOp (.vabs d a p y) 8 d (s.getV a) 0 p y

/-- VNEG (R164). -/
def execVneg (d a : BitVec 5) (p : BitVec 3) (y : BitVec 4) (s : State) : Host.Outcome State Fault Refusal :=
  s.vecOp (.vneg d a p y) 9 d (s.getV a) 0 p y

/-- VDIV (R165). -/
def execVdiv (d a b : BitVec 5) (p : BitVec 3) (y : BitVec 4) (s : State) : Host.Outcome State Fault Refusal :=
  s.vecOp (.vdiv d a b p y) 0x0A d (s.getV a) (s.getV b) p y

/-- VSQRT (R164). -/
def execVsqrt (d a : BitVec 5) (p : BitVec 3) (y : BitVec 4) (s : State) : Host.Outcome State Fault Refusal :=
  s.vecOp (.vsqrt d a p y) 11 d (s.getV a) 0 p y

/-- VAND (R166): bytewise. -/
def execVand (d a b : BitVec 5) (p : BitVec 3) (s : State) : Host.Outcome State Fault Refusal :=
  s.vecOp (.vand d a b p) 12 d (s.getV a) (s.getV b) p 0

/-- VOR (R166): bytewise. -/
def execVor (d a b : BitVec 5) (p : BitVec 3) (s : State) : Host.Outcome State Fault Refusal :=
  s.vecOp (.vor d a b p) 13 d (s.getV a) (s.getV b) p 0

/-- VXOR (R166): bytewise. -/
def execVxor (d a b : BitVec 5) (p : BitVec 3) (s : State) : Host.Outcome State Fault Refusal :=
  s.vecOp (.vxor d a b p) 14 d (s.getV a) (s.getV b) p 0

/-- VANDN (R166): bytewise. -/
def execVandn (d a b : BitVec 5) (p : BitVec 3) (s : State) : Host.Outcome State Fault Refusal :=
  s.vecOp (.vandn d a b p) 15 d (s.getV a) (s.getV b) p 0

/-- VSHL (R167). -/
def execVshl (d a b : BitVec 5) (p : BitVec 3) (y : BitVec 4) (s : State) : Host.Outcome State Fault Refusal :=
  s.vecOp (.vshl d a b p y) 16 d (s.getV a) (s.getV b) p y

/-- VSHR (R167). -/
def execVshr (d a b : BitVec 5) (p : BitVec 3) (y : BitVec 4) (s : State) : Host.Outcome State Fault Refusal :=
  s.vecOp (.vshr d a b p y) 17 d (s.getV a) (s.getV b) p y

/-- VSRA (R167). -/
def execVsra (d a b : BitVec 5) (p : BitVec 3) (y : BitVec 4) (s : State) : Host.Outcome State Fault Refusal :=
  s.vecOp (.vsra d a b p y) 18 d (s.getV a) (s.getV b) p y

/-- VOPS (R168): operation op as if vb held the low bits of s[n] in every element. -/
def execVops (d a : BitVec 5) (p : BitVec 3) (y : BitVec 4) (op : BitVec 7) (n : BitVec 6) (s : State) :
    Host.Outcome State Fault Refusal :=
  let w := (tyOf y).width
  s.vecOp (.vops d a p y op n) op.toNat d (s.getV a) (ofElems w (List.replicate (512 / w) ((s.getS n).toNat % 2 ^ w))) p y

/-! ### Compare, select, convert -/

/-- The condition of VCMP on one element (R169): its truth and the flags. -/
def cmpElem (c : Nat) (t : Ty) (x y : Nat) : Bool × Flags :=
  match t with
  | .int sg w =>
    let a := intVal sg w x
    let b := intVal sg w y
    (match c with
      | 0 => a == b
      | 1 => a != b
      | 2 => decide (a < b)
      | 3 => decide (a ≤ b)
      | 4 => decide (b < a)
      | _ => decide (b ≤ a), 0)
  | .flt _ _ _ _ _ =>
    let a := decodeTy t x
    let b := decodeTy t y
    let un := a.isNaN || b.isNaN
    let nv : Flags := if a.isSig || b.isSig || (un && decide (2 ≤ c ∧ c ≤ 5)) then flNV else 0
    let k := extCmp a b
    (match c with
      | 0 => !un && k == 0
      | 1 => un || k != 0
      | 2 => !un && decide (k < 0)
      | 3 => !un && decide (k ≤ 0)
      | 4 => !un && decide (0 < k)
      | 5 => !un && decide (0 ≤ k)
      | 6 => un
      | _ => !un, nv)

/-- VCMP (R169): every predicate bit of an element's bytes takes the truth of its condition. -/
def execVcmp (q : BitVec 3) (a b : BitVec 5) (c : BitVec 3) (y : BitVec 4) (s : State) : Host.Outcome State Fault Refusal :=
  let t := tyOf y
  let w := t.width
  let res := ((lineOf (s.getV a) w).zip (lineOf (s.getV b) w)).map (fun e => cmpElem c.toNat t e.1 e.2)
  let bits := BitVec.ofNat 64 (packElems (w / 8) (res.map (fun r => if r.1 then 2 ^ (w / 8) - 1 else 0)))
  s.finishSeq (.vcmp q a b c y) (.ok ((s.setP q bits).orFlags (res.foldl (fun f r => f ||| r.2) 0)))

/-- VSEL (R170): byte j from va where bit j of the predicate is 1, from vb otherwise. -/
def execVsel (d a b : BitVec 5) (p : BitVec 3) (s : State) : Host.Outcome State Fault Refusal :=
  s.finishSeq (.vsel d a b p) (.ok (s.setV d (blend (s.getP p) (s.getV a) (s.getV b))))

/-- The conversion of one element (R171). -/
def cvtElem (dst src : Ty) (mode : Nat) (sat : Bool) (x : Nat) : Nat × Flags :=
  match dst, src with
  | .int sg w, .int ss sw => (narrow (intVal ss sw x) sg w sat, 0)
  | d, sr => encodeTy d (decodeTy sr x) mode sat

/-- VCVT (R171). -/
def execVcvt (d a : BitVec 5) (src : BitVec 4) (p : BitVec 3) (y : BitVec 4) (s : State) : Host.Outcome State Fault Refusal :=
  let dt := tyOf y
  let st := tyOf src
  let w := dt.width
  let n := min dt.count st.count
  let xs := elemsOf (s.getV a).toNat st.width st.count
  let old := elemsOf (s.getV d).toNat w dt.count
  let res := ((span 0 dt.count).zip old).map (fun e =>
    if active (s.getP p) w e.1 then
      if n ≤ e.1 then (0, (0 : Flags)) else cvtElem dt st s.mode s.sat (xs.getD e.1 0)
    else (e.2, 0))
  s.finishSeq (.vcvt d a src p y)
    (.ok ((s.setV d (ofElems w (res.map (fun r => r.1)))).orFlags (res.foldl (fun f r => f ||| r.2) 0)))

/-! ### Moving elements -/

/-- The element width that a sz field selects. -/
def szWidth (z : BitVec 2) : Nat := 8 * 2 ^ z.toNat

/-- VBCAST (R172). -/
def execVbcast (x : BitVec 5) (b : BitVec 6) (p : BitVec 3) (z : BitVec 2) (s : State) : Host.Outcome State Fault Refusal :=
  let w := szWidth z
  s.finishSeq (.vbcast x b p z) (.ok (s.setV x (ofElems w (((span 0 (512 / w)).zip (lineOf (s.getV x) w)).map
    (fun e => if active (s.getP p) w e.1 then (s.getS b).toNat % 2 ^ w else e.2)))))

/-- VEXT (R173): element i of vx, zero-extended, to s[b]. -/
def execVext (x : BitVec 5) (b : BitVec 6) (z : BitVec 2) (i : BitVec 6) (s : State) : Host.Outcome State Fault Refusal :=
  s.finishSeq (.vext x b z i) (.ok (s.setS b (BitVec.ofNat 64 (lineElem (s.getV x).toNat (szWidth z) i.toNat))))

/-- VINS (R173): element i of vx takes the low bits of s[b]. -/
def execVins (x : BitVec 5) (b : BitVec 6) (z : BitVec 2) (i : BitVec 6) (s : State) : Host.Outcome State Fault Refusal :=
  let w := szWidth z
  s.finishSeq (.vins x b z i) (.ok (s.setV x (ofElems w (listSet (lineOf (s.getV x) w) i.toNat ((s.getS b).toNat % 2 ^ w)))))

/-- VPERM (R174). -/
def execVperm (d a b : BitVec 5) (p : BitVec 3) (y : BitVec 4) (s : State) : Host.Outcome State Fault Refusal :=
  let w := (tyOf y).width
  let xs := lineOf (s.getV a) w
  s.finishSeq (.vperm d a b p y) (.ok (s.setV d (ofElems w ((elemsIn w (s.getV a) (s.getV b) (s.getV d)).map
    (fun e => if active (s.getP p) w e.i then xs.getD e.y 0 else e.z)))))

/-! ### Reductions -/

/-- One level of a pairwise tree (R101). -/
def pairUp (f : Nat → Nat → Nat × Flags) : List Nat → List Nat × Flags
  | x :: y :: r =>
    let h := f x y
    let t := pairUp f r
    (h.1 :: t.1, h.2 ||| t.2)
  | l => (l, 0)

/-- TreeReduce (R101) in n levels. -/
def treeReduce (f : Nat → Nat → Nat × Flags) : Nat → List Nat → Nat × Flags
  | 0, l => (l.headD 0, 0)
  | n + 1, l =>
    let a := pairUp f l
    let b := treeReduce f n a.1
    (b.1, a.2 ||| b.2)

/-- The tree that the shadow of VREDSUM forms, each sum shortened (R101, R425). -/
def shadowTree (mode : Nat) : Nat → List Ext → Ext
  | 0, l => l.headD (.fin false 0 0 false)
  | n + 1, l => shadowTree mode n ((pairs l).map (fun e => shorten (extAdd e.1 e.2 mode).1))
where
  /-- The elements two by two. -/
  pairs : List Ext → List (Ext × Ext)
    | x :: y :: r => (x, y) :: pairs r
    | _ => []

/-- The shadow of VREDSUM judges the sum v, with flags f, of the elements xs (R425, R426). -/
def sumDiverges (t : Ty) (mode : Nat) (sat : Bool) (xs : List Nat) (f : Flags) (v : Nat) : Bool :=
  let ests := xs.map (fun x => shorten (decodeTy t x))
  let top := ests.foldl (fun (u : Option Int) v =>
    if v.cls = 1 then (match u with | some e => some (max e v.expo) | none => some v.expo) else u) none
  diverges t mode sat (shadowTree mode (Nat.log2 xs.length) ests) top (f &&& flOF != 0) v

/-- The identity that an inactive element enters as (R175): op 0 sum, 7 maximum, 6 minimum. -/
def redIdentity (op : Nat) (t : Ty) : Nat :=
  match t with
  | .int sg w =>
    if op = 0 then 0
    else if op = 7 then wrapEnc (intMin sg w) w
    else wrapEnc (intMax sg w) w
  | .flt _ eb mb bias kind =>
    if op = 0 then 2 ^ (eb + mb) else bigEnc eb mb bias kind (op == 7)

/-- VREDSUM, VREDMAX, VREDMIN (R175), with the shadow check of VREDSUM on its final result (R425). -/
def State.vecRed (s : State) (i : Instr) (op : Nat) (d a : BitVec 5) (p : BitVec 3) (y : BitVec 4) :
    Host.Outcome State Fault Refusal :=
  let t := tyOf y
  let w := t.width
  let xs := ((span 0 (512 / w)).zip (lineOf (s.getV a) w)).map
    (fun e => if active (s.getP p) w e.1 then e.2 else redIdentity op t)
  let mode := s.mode
  let sat := s.sat
  let r : Nat × Flags :=
    match t with
    | .int sg w =>
      if op = 0 then (narrow ((xs.map (intVal sg w)).foldl (fun u v => u + v) 0) sg w sat, 0)
      else treeReduce (fun u v => elemOp op t 0 false u v 0) 6 xs
    | .flt _ _ _ _ _ => treeReduce (fun u v => elemOp op t mode sat u v 0) 6 xs
  let put := fun (v : Nat) => Except.ok (((s.dropLanes).setV d (BitVec.ofNat 512 v)).orFlags r.2)
  s.finishSeq i (
    if t.isFloat && op == 0 then
      let v := match s.laneValue 0 with | some v => v % 2 ^ w | none => r.1
      if sumDiverges t mode sat xs r.2 v then .error (.counted cSHADOW 0 1 false 0) else put v
    else put r.1)

/-- VREDSUM (R175). -/
def execVredsum (d a : BitVec 5) (p : BitVec 3) (y : BitVec 4) (s : State) : Host.Outcome State Fault Refusal :=
  s.vecRed (.vredsum d a p y) 0 d a p y

/-- VREDMAX (R175). -/
def execVredmax (d a : BitVec 5) (p : BitVec 3) (y : BitVec 4) (s : State) : Host.Outcome State Fault Refusal :=
  s.vecRed (.vredmax d a p y) 7 d a p y

/-- VREDMIN (R175). -/
def execVredmin (d a : BitVec 5) (p : BitVec 3) (y : BitVec 4) (s : State) : Host.Outcome State Fault Refusal :=
  s.vecRed (.vredmin d a p y) 6 d a p y

/-! ### Predicates -/


/-- PLOG AND (R181). -/
def execPlogAnd (d a b : BitVec 3) (s : State) : Host.Outcome State Fault Refusal :=
  s.finishSeq (.plogAnd d a b) (.ok (s.setP d (s.getP a &&& s.getP b)))

/-- PLOG OR (R181). -/
def execPlogOr (d a b : BitVec 3) (s : State) : Host.Outcome State Fault Refusal :=
  s.finishSeq (.plogOr d a b) (.ok (s.setP d (s.getP a ||| s.getP b)))

/-- PLOG XOR (R181). -/
def execPlogXor (d a b : BitVec 3) (s : State) : Host.Outcome State Fault Refusal :=
  s.finishSeq (.plogXor d a b) (.ok (s.setP d (s.getP a ^^^ s.getP b)))

/-- PLOG AND NOT (R181). -/
def execPlogAndn (d a b : BitVec 3) (s : State) : Host.Outcome State Fault Refusal :=
  s.finishSeq (.plogAndn d a b) (.ok (s.setP d (s.getP a &&& ~~~(s.getP b))))

/-- PLOG NOT (R181). -/
def execPlogNot (d a : BitVec 3) (s : State) : Host.Outcome State Fault Refusal :=
  s.finishSeq (.plogNot d a) (.ok (s.setP d (~~~(s.getP a))))

/-- PMOV between predicates (R182). -/
def execPmov (d a : BitVec 3) (s : State) : Host.Outcome State Fault Refusal :=
  s.finishSeq (.pmov d a) (.ok (s.setP d (s.getP a)))

/-- PMOV from a scalar (R182). -/
def execPmovFrom (d : BitVec 3) (x : BitVec 6) (s : State) : Host.Outcome State Fault Refusal :=
  s.finishSeq (.pmovFrom d x) (.ok (s.setP d (s.getS x)))

/-- PMOV to a scalar (R182). -/
def execPmovTo (a : BitVec 3) (x : BitVec 6) (s : State) : Host.Outcome State Fault Refusal :=
  s.finishSeq (.pmovTo a x) (.ok (s.setS x (s.getP a)))

/-- PCNT (R183). -/
def execPcnt (a : BitVec 3) (x : BitVec 6) (s : State) : Host.Outcome State Fault Refusal :=
  s.finishSeq (.pcnt a x) (.ok (s.setS x (BitVec.ofNat 64 (((span 0 64).filter (fun i => (s.getP a).getLsbD i)).length))))

end Sys2Proof.Machine
end

