-- ==== Sys2Proof/Machine/VecMem.lean ====
section
/-! DEFINITION. The vector accesses to local memory (06_vector_isa.md R176 to R180): whole lines under a byte predicate, whole
described lines, fields of bits, gathers and scatters. -/
namespace Sys2Proof.Machine

/-- The bytes of a span of local memory that a predicate selects meet no lock that stops the access (R176). -/
def Tile.lanesLocked (x : Tile) (a : Nat) (lanes : List Nat) (acc : Access) : Bool := lanes.any (fun j => x.locked (a + j) 1 acc)

/-- The lowest lane and the length of the span of lanes accessed, for the watchpoints: each run counts by its bytes. -/
def State.noteLanes (s : State) (wr : Bool) (a : Nat) (lanes : List Nat) : State :=
  lanes.foldl (fun t j => t.note false wr (a + j) 1) s

/-- Bytes by address are stored by the strand, in parts of a size (R346). -/
def State.putCells (s : State) (part : Nat) (l : List (Nat × Byte)) : State :=
  if s.direct then s.setHere (s.here.storeCells s.supervisor l)
  else s.storeParts (partsOf s.curStrand s.cycle part (l.map (fun c => { addr := c.1, mask := 0xFF, val := c.2 })))

/-- A whole described line is stored by the strand in four parts, the descriptor with the first (R177, R206, R346). -/
def State.putLine (s : State) (line v : Nat) (d : BitVec 16) : State :=
  if s.direct then s.setHere ((s.here.storeBytes s.supervisor (64 * line) (toBytes 64 v)).setDesc line d)
  else s.storeParts ((partsOf s.curStrand s.cycle 16 (byteCells (64 * line) (toBytes 64 v))).mapIdx (fun i p =>
    if i = 0 then { p with desc := some d } else p))

/-- VLD (R176): the bytes whose predicate bit is 1; under PONE the committed bytes (R264). -/
def execVld (x : BitVec 5) (b : BitVec 6) (p : BitVec 3) (i : BitVec 8) (s : State) : Host.Outcome State Fault Refusal :=
  let a := s.address b i 64
  let lanes := lanesOn (s.getP p) 0 64
  let n := a.toNat
  s.finishPone (.vld x b p i) (fun t => t.getV x) (fun t v => t.setV x v) false
    (if 2 ^ 18 ≤ n then raise cBOUND 0 a
    else if n % 64 ≠ 0 then raise cMISAL 0 a
    else if s.pone && !s.supervisor && !lanes.isEmpty && !s.here.allVersioned n 64 then raise cPFXMIS 2 a
    else if s.here.lanesLocked n lanes .load then raise cLOCK 0 a
    else
      (if lanes.isEmpty then .ok s else s.readLines a [n / 64]).map (fun t =>
        let line := if s.pone then BitVec.ofNat 512 (s.here.committed n 64) else BitVec.ofNat 512 (t.view.lm n 64)
        (t.noteLanes false n lanes).setV x (blend (s.getP p) line (s.getV x))))

/-- VST (R176): the other bytes are not written at all. -/
def execVst (x : BitVec 5) (b : BitVec 6) (p : BitVec 3) (i : BitVec 8) (s : State) : Host.Outcome State Fault Refusal :=
  let a := s.address b i 64
  let lanes := lanesOn (s.getP p) 0 64
  let n := a.toNat
  let src := lineOf (s.getV x) 8
  s.finishSeq (.vst x b p i)
    (if 2 ^ 18 ≤ n then raise cBOUND 0 a
    else if n % 64 ≠ 0 then raise cMISAL 0 a
    else if s.here.lanesLocked n lanes .store then raise cLOCK 0 a
    else if !lanes.isEmpty && !s.here.retentionOk s.supervisor [n / 64] then raise cRETFULL 0 a
    else (if lanes.isEmpty then .ok s else s.preRead a [n / 64]).map (fun s => (s.putCells 16 (lanes.map (fun j => (n + j, BitVec.ofNat 8 (src.getD j 0))))).noteLanes true n lanes))

/-- VLDD (R177): the line, and its descriptor into p[p]. Where both the side band and the data of the line are uncorrectable the spec orders
the two for MMA only (R195): DESIGN CHOICE, the side band's error, SUB 1, is reported here too (log entry 50). -/
def execVldd (x : BitVec 5) (b : BitVec 6) (p : BitVec 3) (i : BitVec 8) (s : State) : Host.Outcome State Fault Refusal :=
  let a := s.address b i 64
  let n := a.toNat
  s.finishSeq (.vldd x b p i)
    (if 2 ^ 18 ≤ n then raise cBOUND 0 a
    else if n % 64 ≠ 0 then raise cMISAL 0 a
    else if s.here.locked n 64 .load then raise cLOCK 0 a
    else s.andThen (s.readSide (n / 64) a) (fun t => (t.readLines a [n / 64]).map (fun t =>
          let d := (t.view.bandAt (n / 64)).toNat / 2 ^ 16
          ((t.note false false n 64).setV x (BitVec.ofNat 512 (t.view.lm n 64))).setP p (BitVec.ofNat 64 d))))

/-- VSTD (R177): the line and the descriptor that p[p] holds; bits 511:480 of a 6-bit line are written as 0. -/
def execVstd (x : BitVec 5) (b : BitVec 6) (p : BitVec 3) (i : BitVec 8) (s : State) : Host.Outcome State Fault Refusal :=
  let a := s.address b i 64
  let n := a.toNat
  let d := (s.getP p).toNat % 2 ^ 16
  let six := d / 256 = 0x12 ∨ d / 256 = 0x13
  let v := if six then (s.getV x).toNat % 2 ^ 480 else (s.getV x).toNat
  s.finishSeq (.vstd x b p i)
    (if 2 ^ 18 ≤ n then raise cBOUND 0 a
    else if n % 64 ≠ 0 then raise cMISAL 0 a
    else if !fmtAssigned (d / 256) then raise cDESC 0 (BitVec.ofNat 64 d)
    else if s.here.locked n 64 .store then raise cLOCK 0 a
    else if !s.here.retentionOk s.supervisor [n / 64] then raise cRETFULL 0 a
    else (s.preRead a [n / 64]).map (fun s => (s.putLine (n / 64) v (BitVec.ofNat 16 d)).note false true n 64))

/-- The bytes that the active fields of VLDB or VSTB touch (R178). -/
def fieldBytes (p : Word) (b w fw : Nat) : List Nat :=
  ((span 0 (512 / w)).filter (fun i => active p w i)).flatMap (fun i =>
    span ((b + i * fw) / 8) ((b + i * fw + fw - 1) / 8 + 1 - (b + i * fw) / 8))

/-- The checks of VLDB and VSTB (R178): TVAL is the bit address. -/
def State.checkFields (s : State) (b : Word) (w fw : Nat) (bytes : List Nat) (acc : Access) : Except Stop Unit :=
  if 2 ^ 21 ≤ b.toNat ∨ 2 ^ 21 < b.toNat + 512 / w * fw then raise cBOUND 0 b
  else if s.here.lanesLocked 0 bytes acc then raise cLOCK 0 b
  else if acc = .store ∧ !s.here.retentionOk s.supervisor ((bytes.map (fun k => k / 64)).eraseDups) then raise cRETFULL 0 b
  else .ok ()

/-- VLDB (R178): a field of fw bits for each active lane, sign- or zero-extended. -/
def execVldb (x : BitVec 5) (b : BitVec 6) (p : BitVec 3) (z : BitVec 2) (e : BitVec 1) (f : BitVec 5) (s : State) :
    Host.Outcome State Fault Refusal :=
  let w := szWidth z
  let fw := f.toNat + 1
  let adr := s.getS b
  let bytes := fieldBytes (s.getP p) adr.toNat w fw
  s.finishSeq (.vldb x b p z e f) (match s.checkFields adr w fw bytes .load with
    | .error r => .error r
    | .ok _ => (s.readLines adr ((bytes.map (fun k => k / 64)).eraseDups)).map (fun t =>
        let new := ((span 0 (512 / w)).zip (lineOf (s.getV x) w)).map (fun c =>
          if active (s.getP p) w c.1 then
            let v := t.view.bits (adr.toNat + c.1 * fw) fw
            if e = 1 then wrapEnc (intVal true fw v) w else v
          else c.2)
        (t.noteLanes false 0 bytes).setV x (ofElems w new)))

/-- VSTB (R178): bits of touched bytes that belong to no active field are unchanged. -/
def execVstb (x : BitVec 5) (b : BitVec 6) (p : BitVec 3) (z : BitVec 2) (f : BitVec 5) (s : State) :
    Host.Outcome State Fault Refusal :=
  let w := szWidth z
  let fw := f.toNat + 1
  let adr := s.getS b
  let bytes := fieldBytes (s.getP p) adr.toNat w fw
  let src := lineOf (s.getV x) w
  s.finishSeq (.vstb x b p z f) (match s.checkFields adr w fw bytes .store with
    | .error r => .error r
    | .ok _ => (s.andThen (s.readLines adr ((bytes.map (fun k => k / 64)).eraseDups)) (fun t =>
        t.preRead adr ((bytes.map (fun k => k / 64)).eraseDups))).map (fun t =>
        (t.putBits (((span 0 (512 / w)).filter (fun i => active (s.getP p) w i)).map (fun i =>
          (adr.toNat + i * fw, fw, src.getD i 0)))).noteLanes true 0 bytes))

/-- The address of element i of a gather or a scatter (R179). -/
def State.elemAddr (s : State) (b : BitVec 6) (w idx : Nat) : Word := s.getS b + BitVec.ofNat 64 (idx * (w / 8))

/-- The first failing element of a gather or a scatter, in ascending order, by steps 1 to 3 of R129 (R179). -/
def State.checkElems (s : State) (w : Nat) (acc : Access) : List (Nat × Word) → Except Stop Unit
  | [] => .ok ()
  | (i, a) :: r =>
    let sub := BitVec.ofNat 8 (0x40 + i)
    if 2 ^ 18 ≤ a.toNat then raise cBOUND sub a
    else if a.toNat % (w / 8) ≠ 0 then raise cMISAL sub a
    else if s.here.locked a.toNat (w / 8) acc then raise cLOCK sub a
    else State.checkElems s w acc r

/-- The first element of a scatter whose line cannot receive a pre-image, with its address (R179). -/
def firstNoRetention (x : Tile) (mgmt : Bool) (lines : List Nat) : List (Nat × Word) → Option (Nat × Word)
  | [] => none
  | (i, a) :: r =>
    let ls := lines ++ [a.toNat / 64]
    if x.retentionOk mgmt ls then firstNoRetention x mgmt ls r else some (i, a)

/-- VGATH (R179). The parts are read in no stated order (R346): where lines of several active elements hold uncorrectable errors, DESIGN
CHOICE, the lowest element's is reported (log entry 50). -/
def execVgath (x : BitVec 5) (b : BitVec 6) (p : BitVec 3) (z : BitVec 2) (i : BitVec 5) (s : State) :
    Host.Outcome State Fault Refusal :=
  let w := szWidth z
  let idx := lineOf (s.getV i) w
  let els := ((span 0 (512 / w)).filter (fun k => active (s.getP p) w k)).map (fun k => (k, s.elemAddr b w (idx.getD k 0)))
  s.finishSeq (.vgath x b p z i) (match s.checkElems w .load els with
    | .error r => .error r
    | .ok _ =>
      match els.foldl (fun (t : Except Stop State) e =>
          match t with
          | .error r => .error r
          | .ok t => s.keepSoft t (t.readLines e.2 [e.2.toNat / 64])) (.ok s) with
      | .error r => .error r
      | .ok t =>
        let new := els.foldl (fun l e => listSet l e.1 (t.view.lm e.2.toNat (w / 8))) (lineOf (s.getV x) w)
        .ok ((els.foldl (fun t e => t.note false false e.2.toNat (w / 8)) t).setV x (ofElems w new)))

/-- VSCAT (R179): elements that share an address are written in ascending order. -/
def execVscat (x : BitVec 5) (b : BitVec 6) (p : BitVec 3) (z : BitVec 2) (i : BitVec 5) (s : State) :
    Host.Outcome State Fault Refusal :=
  let w := szWidth z
  let idx := lineOf (s.getV i) w
  let src := lineOf (s.getV x) w
  let els := ((span 0 (512 / w)).filter (fun k => active (s.getP p) w k)).map (fun k => (k, s.elemAddr b w (idx.getD k 0)))
  s.finishSeq (.vscat x b p z i) (match s.checkElems w .store els with
    | .error r => .error r
    | .ok _ =>
      match firstNoRetention s.here s.supervisor [] els with
      | some e => raise cRETFULL (BitVec.ofNat 8 (0x40 + e.1)) e.2
      | none =>
        let cells := els.flatMap (fun e => (toBytes (w / 8) (src.getD e.1 0)).mapIdx (fun j b => (e.2.toNat + j, b)))
        (els.foldl (fun (t : Except Stop State) e => t.bind (fun t => s.keepSoft t (t.preRead e.2 [e.2.toNat / 64]))) (.ok s)).map (fun t =>
          els.foldl (fun t e => t.note false true e.2.toNat (w / 8)) (t.putCells (w / 8) cells)))

end Sys2Proof.Machine
end

