-- ==== Sys2Proof/Machine/Matrix.lean ====
section
/-! DEFINITION. The matrix instructions, the matrix unit and the accumulators (07_matrix_isa.md), with the shadow check of a
k-block (17_faults.md R428). -/
namespace Sys2Proof.Machine

/-! ### Owners, held faults, pre-images -/

/-- The MMA of a strand that has issued and not ended (R192). -/
def Tile.mmaOf (x : Tile) (n : BitVec 2) : Option Mma := x.mmaq.find? (fun m => m.strand == n)

/-- What every reporting instruction meets first (R186, R198): its strand's running MMA stalls it, with SUB 2 when it names
that accumulator and SUB 3 otherwise; a held fault is reported; then an accumulator another strand owns. -/
def State.matrixEntry (s : State) (accs : List (BitVec 3)) : Except Stop Unit :=
  match s.here.mmaOf s.curStrand with
  | some m => .error (.stall (if accs.any (fun a => a == m.acc) then 2 else 3) (m.acc.setWidth 64))
  | none =>
    if s.me.held.isSome then .error .report
    else match accs.find? (fun a => s.here.mmaq.any (fun m => m.acc == a)) with
      | some a => raise cDESC 1 (a.setWidth 64)
      | none => .ok ()

/-- A write of the accumulator needs its pre-image (R187). -/
def Tile.needsAccPre (x : Tile) (mgmt : Bool) (c : BitVec 3) : Bool := !mgmt && !x.irv && (SMap.find x.accPre c.toNat).isNone

/-- The tile with the pre-image of the accumulator taken, when it needs one (R187). -/
def Tile.touchAcc (x : Tile) (mgmt : Bool) (c : BitVec 3) : Tile :=
  if x.needsAccPre mgmt c then { x with accPre := SMap.set x.accPre c.toNat (x.accAt c) } else x

/-- Retention can take the pre-image of an accumulator, beside those of the stores not yet performed (R187, R278). -/
def Tile.accRoom (x : Tile) (mgmt : Bool) : Bool :=
  decide (x.retu + 64 * ((x.sbuf.map Pend.line).eraseDups.filter (x.needsPre mgmt)).length + 2560 ≤ 65536)

/-- RETENTION_FULL for an accumulator (R187): TVAL its number, SUB 1. -/
def State.checkAccPre (s : State) (c : BitVec 3) : Except Stop Unit :=
  if s.here.needsAccPre s.supervisor c ∧ !s.here.accRoom s.supervisor then raise cRETFULL 1 (c.setWidth 64) else .ok ()

/-- A read of an accumulator meets no uncorrectable error (R431). -/
def State.readAcc (s : State) (c : BitVec 3) : Except Stop State :=
  s.readMark (.acc c.toNat) 2 (c.setWidth 64) ((SMap.find s.here.accPre c.toNat).isNone && !s.supervisor)

/-- The pre-image that a write of the accumulator needs is read (R187, R431). -/
def State.preAcc (s : State) (c : BitVec 3) : Except Stop State := if s.here.needsAccPre s.supervisor c then s.readAcc c else .ok s

/-- The accumulator is written by an instruction that has passed its checks. -/
def State.writeAcc (s : State) (c : BitVec 3) (a : Acc) : State :=
  s.setHere ((s.here.touchAcc s.supervisor c).setAcc c a)

/-- An accumulator from its elements in order. -/
def accOf (anc : BitVec 16) (l : List AccElem) : Acc :=
  { elems := (span 0 256).zip l, anc := anc }

/-- The 256 elements of an accumulator in order. -/
def Acc.all (a : Acc) : List AccElem := (span 0 256).map a.elem

/-- ZACC (R202). -/
def execZacc (c : BitVec 3) (x : BitVec 6) (s : State) : Host.Outcome State Fault Refusal :=
  s.finishSeq (.zacc c x) (do
    s.matrixEntry [c]
    s.checkAccPre c
    let s ← s.preAcc c
    .ok (s.writeAcc c { elems := [], anc := (s.getS x).setWidth 16 }))

/-- One element of ACCANCH (R203): the sum rescaled by 2^(old - new) and rounded once. -/
def rescale (sh : Int) (e : AccElem) : AccElem × Flags :=
  let v := e.sum.toInt
  let r := roundAt (decide (v < 0)) v.natAbs sh 0 false 0
  ({ e with sum := BitVec.ofInt 88 r.1, x := e.x || decide (r.1 < -(2 ^ 79)) || decide (2 ^ 79 ≤ r.1) },
   if r.2 then flAIX else 0)

/-- ACCANCH (R203). -/
def execAccanch (c : BitVec 3) (x : BitVec 6) (s : State) : Host.Outcome State Fault Refusal :=
  let new : BitVec 16 := (s.getS x).setWidth 16
  s.finishSeq (.accanch c x) (do
    s.matrixEntry [c]
    s.checkAccPre c
    s.andThen (s.readAcc c) fun t => do
    let a := t.here.accAt c
    let l := a.all.map (rescale (a.anc.toInt - new.toInt))
    .ok ((t.writeAcc c (accOf new (l.map Prod.fst))).orFlags (l.foldl (fun f e => f ||| e.2) 0)))

/-- ACCADD (R204): with equal operands every element is doubled. -/
def execAccadd (c a : BitVec 3) (s : State) : Host.Outcome State Fault Refusal :=
  s.finishSeq (.accadd c a) (do
    s.matrixEntry [c, a]
    let x := s.here.accAt c
    let y := s.here.accAt a
    if x.anc ≠ y.anc then raise cDESC 7 (BitVec.ofNat 64 (x.anc.toNat * 2 ^ 16 + y.anc.toNat))
    else
      s.checkAccPre c
      let t ← s.andThen (s.readAcc c) (fun t => t.readAcc a)
      .ok (t.writeAcc c (accOf x.anc ((x.all.zip y.all).map (fun e => accCombine e.1 e.2)))))

/-! ### MMA -/

/-- Fields of an operand descriptor (R189). -/
def dBase (d : Desc) : Nat := bitsOf d.toNat 17 0
def dStride (d : Desc) : Nat := bitsOf d.toNat 49 32
def dKlen (d : Desc) : Nat := bitsOf d.toNat 70 64
def dClass (d : Desc) : Nat := bitsOf d.toNat 87 80
def dNolock (d : Desc) : Bool := bitAt d.toNat 96
/-- The bits of an operand descriptor that R189 names. -/
def dNamed : Nat := (2 ^ 18 - 1) + (2 ^ 18 - 1) * 2 ^ 32 + 127 * 2 ^ 64 + 255 * 2 ^ 80 + 2 ^ 96
/-- The bytes of an operand's span (R193). -/
def dLen (d : Desc) : Nat := 15 * dStride d + 64 * dKlen d

/-- The checks 2 to 6 of R192 on one operand; klen is what KLEN must equal. -/
def checkOperand (d : Desc) (num : BitVec 3) (klen : Nat) : Except Stop Unit :=
  let tv := num.setWidth 64
  if d.toNat &&& dNamed ≠ d.toNat then raise cDESC 2 tv
  else if dBase d % 64 ≠ 0 ∨ dStride d % 64 ≠ 0 then raise cDESC 3 tv
  else if dKlen d = 0 ∨ 64 < dKlen d ∨ dKlen d ≠ klen then raise cDESC 4 tv
  else if 5 < dClass d then raise cDESC 5 tv
  else if 0x40000 < dBase d + dLen d then raise cDESC 6 tv
  else .ok ()

/-- The addresses at which an operand with NOLOCK = 0 meets WRITE or TAG locks (R368). -/
def Tile.operandClash (x : Tile) (d : Desc) : List Nat := if dNolock d then [] else x.clashes (dBase d) (dLen d) .load

/-- The read lock of an operand, if it takes one (R193). -/
def operandLock (d : Desc) (n : BitVec 2) (k : BitVec 4) : List Lock :=
  if dNolock d then [] else [{ lo := dBase d, len := dLen d, kind := .read, use := .mma, strand := n, tok := k }]

/-- Token k is taken by an operation (R239). -/
def takenToken (use : TokUse) (step : Nat) : Token := { st := .pending, status := 0, use := use, step := step }

/-- MMA (R191 to R193): it checks, takes its pre-image, its token and its locks, and enters the matrix unit's queue. -/
def execMma (c a b : BitVec 3) (k : BitVec 4) (s : State) : Host.Outcome State Fault Refusal :=
  let da := s.getD a
  let db := s.getD b
  let locks := operandLock da s.curStrand k ++ operandLock db s.curStrand k
  s.finishSeq (.mma c a b k) (do
    s.matrixEntry [c]
    checkOperand da a (dKlen da)
    checkOperand db b (dKlen da)
    if (s.getTok k).st = .pending then raise cTOKEN 0 (k.setWidth 64)
    else
      s.checkAccPre c
      match lowest (s.here.operandClash da ++ s.here.operandClash db) with
      | some clash => raise cLOCK 0 (BitVec.ofNat 64 clash)
      | none =>
      if 16 < s.here.locks.length + locks.length then .error (.stall 4 0)
      else
        let s ← s.settle.preAcc c
        let x := s.here.touchAcc s.supervisor c
        let m : Mma := { strand := s.curStrand, own := s.me.pc, acc := c, dA := da, dB := db, tok := k, mtm := s.me.mtm, before := x.accAt c }
        let t := s.setHere { x with locks := x.locks ++ locks, mmaq := x.mmaq ++ [m] }
        .ok (t.setTok k (takenToken .mma x.num)))

/-- The format class of an FMT value, 0 for none (R190). -/
def fmtClass (fmt : Nat) : Nat :=
  if fmt = 0x10 ∨ fmt = 0x11 ∨ fmt = 0x15 then 1
  else if fmt = 0x12 ∨ fmt = 0x13 then 2
  else if fmt = 0x14 then 3
  else if 0x20 ≤ fmt ∧ fmt ≤ 0x23 then 4
  else if fmt = 0x18 ∨ fmt = 0x19 then 5
  else 0

/-- The line number of row r, k-block j of an operand (R189). -/
def operandLine (d : Desc) (r j : Nat) : Nat := (dBase d + r * dStride d + 64 * j) / 64

/-- The 32 lines of k-block j in the order they are checked (R195). -/
def blockLines (m : Mma) (j : Nat) : List Nat :=
  (span 0 16).map (fun r => operandLine m.dA r j) ++ (span 0 16).map (fun r => operandLine m.dB r j)

/-- CheckBlock(j) (R195): the cause, SUB and the line concerned of the first failure. -/
def Tile.checkBlock (x : Tile) (m : Mma) (j : Nat) : Option (BitVec 8 × BitVec 8 × Option Nat) :=
  let lines := blockLines m j
  let bad := lines.findSome? (fun k =>
    if x.errs.any (fun e => e.loc == .side k && e.hard) then some (BitVec.ofNat 8 (0xC0 + j), k)
    else if x.errs.any (fun e => e.loc == .line k && e.hard) then some (BitVec.ofNat 8 (0x80 + j), k)
    else none)
  match bad with
  | some (sub, k) => some (cSRAM, sub, some k)
  | none =>
    let fmts := lines.map (fun k => (x.bandAt k).toNat / 2 ^ 24)
    let cls := fmts.map fmtClass
    let fa := fmts.take 16
    let fb := fmts.drop 16
    let wrong := fun (d : Desc) (l : List Nat) => dClass d != 0 && l.any (fun f => fmtClass f != dClass d)
    let c := cls.headD 0
    if cls.any (fun k => k == 0) || wrong m.dA fa || wrong m.dB fb || cls.any (fun k => k != c) ||
       (c == 4 && (fa.any (fun f => f != 0x20 + x.ta.toNat) || fb.any (fun f => f != 0x20 + x.tb.toNat)))
    then some (cFMT, BitVec.ofNat 8 j, none)
    else none

/-- The values of the row-r lines of an operand in k-block j, which CheckBlock has passed (R194). -/
def Tile.operandRow (x : Tile) (d : Desc) (r j : Nat) : List Ext :=
  let k := operandLine d r j
  (decodeLine (fun c => (x.cb.getD c 0).toNat) (x.lm (64 * k) 64) ((x.bandAt k).toNat / 2 ^ 16)).getD []

/-- The temporary element of a row of A and a row of B (R194): every product of a pair of elements. -/
def dotElem (anc : Int) (a b : List Ext) : AccElem × Flags :=
  (a.zip b).foldl (fun (t : AccElem × Flags) e =>
    let r := accumulate anc t.1 e.1 e.2
    (r.1, t.2 ||| r.2)) ({}, 0)

/-- A value rounded to a 12-bit significand, to nearest even (R428). -/
def round12 (x : Ext) : Ext :=
  match x with
  | .fin n m k st =>
    if m = 0 then x
    else
      let q := (Nat.log2 m : Int) + k - 11
      .fin n (roundAt false m k q st 0).1.toNat q false
  | y => y

/-- The sums E and S_abs of the matrix shadow over the products of one element (R428). -/
def shadowSums (a b : List Ext) : Ext × Ext :=
  (a.zip b).foldl (fun (t : Ext × Ext) e =>
    let p := (extMul (shorten e.1) (shorten e.2)).1
    (round12 (extAdd t.1 p 0).1, round12 (extAdd t.2 p.abs 0).1)) (.fin false 0 0 false, .fin false 0 0 false)

/-- Element T of a k-block diverges from the shadow (R428); cls is the class the products give. -/
def blockDiverges (anc : Int) (a b : List Ext) (t : AccElem) (cls : AccClass) : Bool :=
  if t.cls ≠ cls then true
  else if cls ≠ .fin then false
  else
    let s := shadowSums a b
    let diff := (extAdd ((Ext.ofInt t.sum.toInt).scale (anc - 56)) s.1.neg 0).1.abs
    let bound := (extAdd (s.2.scale (-2)) (.fin false 1 (anc - 40) false) 0).1
    decide (0 < extCmp diff bound)

/-- The locks of an operation's token are released. -/
def Tile.unlock (x : Tile) (n : BitVec 2) (k : BitVec 4) (uses : List LockUse) : Tile :=
  { x with locks := x.locks.filter (fun l => !(l.strand == n && l.tok == k && uses.any (fun u => u == l.use))) }

/-- The running MMA ends in a fault of k-block j, which is held for its strand (R197, R198, R428); part is the bank or the block of an
error that counts (R439, R440). -/
def State.mmaFault (s : State) (t : Nat) (m : Mma) (cause sub : BitVec 8) (lost : Bool) (part : Nat) : State :=
  let x := s.tile t
  let x := ({ x with mmaq := x.mmaq.filter (fun q => q.strand != m.strand) }).unlock m.strand m.tok [.mma]
  let tv := BitVec.ofNat 64 (m.own.toNat + m.acc.toNat * 2 ^ 16 + m.tok.toNat * 2 ^ 20)
  let r := { x.strand m.strand with held := some { cause := cause, sub := sub, tval := tv, tok := m.tok, lost := lost } }
  let s := s.setTile t (x.setStrand m.strand r)
  if cause = cFMT then s else s.countError t cause part

/-- Local memory as block j of the MMA reads it: the parts that it has already read keep the values they had (R196). -/
def Tile.mmaView (x : Tile) (m : Mma) (j : Nat) : Tile :=
  match SMap.find m.early j with
  | none => x
  | some e => x.under e

/-- The next block of an MMA, if one is left (R194, R199). -/
def Mma.next (m : Mma) : Option Nat := (span 0 (dKlen m.dA)).find? (fun j => !m.mtm.getLsbD j)

/-- Elements of a block as faults of the main unit leave them, from a list of threes: element, sum, class (R428). -/
def bend : List Nat → List AccElem → List AccElem
  | e :: v :: c :: r, l =>
    let cls : AccClass := match c % 4 with | 0 => .fin | 1 => .pinf | 2 => .ninf | _ => .nan
    bend r (listSet l (e % 256) { l.getD (e % 256) {} with sum := BitVec.ofNat 88 v, cls := cls })
  | _, l => l

/-- Some element of a k-block diverges from its shadow (R428): as and bs the rows of A and B, ts what fault-free sums would be, els what
the main unit gives. -/
def shadowFails (anc : Int) (as bs : List (List Ext)) (ts els : List AccElem) : Bool :=
  (span 0 256).any (fun e => blockDiverges anc (as.getD (e / 16) []) (bs.getD (e % 16) []) (els.getD e {}) (ts.getD e {}).cls)

/-- The lines that CheckBlock(j) reads in the order of R195, up to one it cannot read: their correctable errors are corrected and counted
(R429). -/
def State.blockReads (s : State) (t : Nat) (m : Mma) (j : Nat) : State :=
  let x := s.tile t
  if x.errs = [] then s
  else
    let stops := fun (k : Nat) => x.hardAt (.side k) || x.hardAt (.line k)
    let lines := (blockLines m j).eraseDups
    let s := (lines.takeWhile (fun k => !stops k)).foldl (fun u k => (u.correctAt t (.side k)).correctAt t (.line k)) s
    match lines.find? stops with
    | some k => if x.hardAt (.side k) then s else s.correctAt t (.side k)
    | none => s

/-- MMA_KBLOCK (R193 to R197): the matrix unit of tile State.ev.tile runs the next k-block of its running MMA, or ends it
when no block is left. State.ev.nums names the elements that faults of the main unit change (R428). An uncorrectable error of the
accumulator, which the block meets when it adds, ends the MMA as one of a line does (log entry 17). -/
def execMmaKblock (s : State) : Host.Outcome State Fault Refusal :=
  let t := s.ev.tile
  let x := s.tile t
  match x.mmaq with
  | [] => .next s
  | m :: _ =>
    let r := x.strand m.strand
    match m.next with
    | none =>
      let r := (r.setTok m.tok { r.tok m.tok with st := .set, status := 0 })
      let x := ({ x with mmaq := x.mmaq.drop 1 }).unlock m.strand m.tok [.mma]
      .next (s.setTile t (x.setStrand m.strand { r with mtm := 0 }))
    | some j =>
      match (x.mmaView m j).checkBlock m j with
      | some (cause, sub, line) =>
        .next ((s.blockReads t m j).mmaFault t m cause sub (match line with | some k => !x.restorable k && !isMgmt t | none => false)
          (match line with | some k => k % 16 | none => 0))
      | none =>
        let s := s.blockReads t m j
        let y := (s.tile t).mmaView m j
        let anc := (y.accAt m.acc).anc.toInt
        let as := (span 0 16).map (fun i => y.operandRow m.dA i j)
        let bs := (span 0 16).map (fun i => y.operandRow m.dB i j)
        let ts := (as.flatMap (fun a => bs.map (fun b => dotElem anc a b)))
        let els := bend s.ev.nums (ts.map Prod.fst)
        if shadowFails anc as bs (ts.map Prod.fst) els then .next (s.mmaFault t m cSHADOW (BitVec.ofNat 8 j) false j)
        else if x.hardAt (.acc m.acc.toNat) then
          .next (s.mmaFault t m cSRAM (BitVec.ofNat 8 (0x80 + j)) ((SMap.find x.accPre m.acc.toNat).isNone && !isMgmt t) m.acc.toNat)
        else
          let s := s.correctAt t (.acc m.acc.toNat)
          let x := s.tile t
          let acc := x.accAt m.acc
          let new := accOf acc.anc ((acc.all.zip els).map (fun e => accCombine e.1 e.2))
          let fl := ts.foldl (fun f e => f ||| e.2) 0
          let r := x.strand m.strand
          let r := { r with mtm := r.mtm ||| (1#64 <<< j), flg := r.flg ||| fl.setWidth 19 }
          let q := { m with mtm := m.mtm ||| (1#64 <<< j), early := SMap.del m.early j } :: x.mmaq.drop 1
          .next (s.setTile t ({ x.setAcc m.acc new with mmaq := q }.setStrand m.strand r))

/-! ### Reading out, saving, restoring -/

/-- The overflow of AccQ over the elements of rows (R113, R205). -/
def rowOverflows (a : Acc) (row : Nat) : Bool := (span (16 * row) 16).any (fun e => (accQ (a.elem e)).2)

/-- ACCRD (R205). -/
def execAccrd (c : BitVec 3) (d : BitVec 5) (r : BitVec 4) (o : BitVec 1) (s : State) : Host.Outcome State Fault Refusal :=
  s.finishSeq (.accrd c d r o) (do
    s.matrixEntry [c]
    s.andThen (s.readAcc c) fun t => do
    let a := t.here.accAt c
    let ovf := rowOverflows a r.toNat
    if ovf && o == 1 then raise cACCOVF (r.setWidth 8) (c.setWidth 64)
    else
      let l := (span (16 * r.toNat) 16).map (fun e => encodeTy tF32 (accExt a.anc.toInt (a.elem e)) s.mode s.sat)
      let fl := l.foldl (fun f e => f ||| e.2) 0
      .ok ((t.setV d (ofElems 32 (l.map Prod.fst))).orFlags (if ovf then fl ||| flAOV else fl)))

/-- The FMT that the ty field of ACCST selects (R206). -/
def accstFmt (y : BitVec 4) : Nat :=
  match y.toNat with
  | 0 => 0x15 | 8 => 0x1A | 9 => 0x19 | 10 => 0x18 | 11 => 0x10 | 12 => 0x11 | 13 => 0x12 | 14 => 0x13 | _ => 0x14

/-- LOCAL_BOUND on the last byte, MISALIGNED and RANGE_LOCK for n bytes at b (R207, R208, R210, R211). -/
def State.checkBlockAt (s : State) (b : Word) (n align : Nat) (acc : Access) : Except Stop Unit :=
  if 2 ^ 18 < b.toNat + n then raise cBOUND 0 b
  else if b.toNat % align ≠ 0 then raise cMISAL 0 b
  else if s.here.locked b.toNat n acc then raise cLOCK 0 b
  else .ok ()

/-- RETENTION_FULL for the lines of n bytes at b. -/
def State.checkRetention (s : State) (b : Word) (n : Nat) : Except Stop Unit :=
  if s.here.retentionOk s.supervisor (linesOf b.toNat n) then .ok () else raise cRETFULL 0 b

/-- ACCST (R206, R207): n + 1 rows from row0, one described line each. -/
def execAccst (c : BitVec 3) (b : BitVec 6) (y r n : BitVec 4) (o : BitVec 1) (s : State) : Host.Outcome State Fault Refusal :=
  let adr := s.getS b
  let k := n.toNat + 1
  s.finishSeq (.accst c b y r n o) (do
    s.matrixEntry [c]
    s.checkBlockAt adr (64 * k) 64 .store
    s.andThen (s.readAcc c) fun t => do
    let a := t.here.accAt c
    let bad := (span r.toNat k).find? (rowOverflows a)
    match bad, o == 1 with
    | some row, true => raise cACCOVF (BitVec.ofNat 8 row) (c.setWidth 64)
    | _, _ =>
      t.checkRetention adr (64 * k)
      let t ← t.preRead adr (linesOf adr.toNat (64 * k))
      let q := (span r.toNat k).map (fun row =>
        quantizeLine (accstFmt y) ((span (16 * row) 16).map (fun e => accExt a.anc.toInt (a.elem e))))
      let u := ((span 0 k).zip q).foldl (fun (u : State) e => u.putLine (adr.toNat / 64 + e.1) e.2.1 (BitVec.ofNat 16 e.2.2.1)) t
      let fl := q.foldl (fun f e => f ||| e.2.2) 0
      .ok ((u.note false true adr.toNat (64 * k)).orFlags (if bad.isSome then fl ||| flAOV else fl)))

/-- ACCSV (R208): ToRaw of every element. -/
def execAccsv (c : BitVec 3) (b : BitVec 6) (o : BitVec 1) (s : State) : Host.Outcome State Fault Refusal :=
  let adr := s.getS b
  s.finishSeq (.accsv c b o) (do
    s.matrixEntry [c]
    s.checkBlockAt adr 4096 64 .store
    s.andThen (s.readAcc c) fun t => do
    let a := t.here.accAt c
    let ovf := a.all.any (fun e => (accQ e).2)
    if ovf && o == 1 then raise cACCOVF 0 (c.setWidth 64)
    else
      t.checkRetention adr 4096
      let t ← t.preRead adr (linesOf adr.toNat 4096)
      let u := (t.putBytes 16 adr.toNat (a.all.flatMap (rawElem a.anc))).note false true adr.toNat 4096
      .ok (if ovf then u.orFlags flAOV else u))

/-- ACCLD (R208, R209). -/
def execAccld (c : BitVec 3) (b : BitVec 6) (s : State) : Host.Outcome State Fault Refusal :=
  let adr := s.getS b
  s.finishSeq (.accld c b) (do
    s.matrixEntry [c]
    s.checkBlockAt adr 4096 64 .load
    s.andThen (s.readLines adr (linesOf adr.toNat 4096)) fun t => do
    let raw := chunksOf 16 256 (t.view.bytes adr.toNat 4096)
    let anc := fun (l : List Byte) => ofBytes ((l.drop 12).take 2)
    let first := anc (raw.headD [])
    match (span 0 256).find? (fun e => !(rawValid (raw.getD e [])) || anc (raw.getD e []) != first) with
    | some e => raise cDESC 8 (adr + BitVec.ofNat 64 (16 * e))
    | none =>
      t.checkAccPre c
      let t ← t.preAcc c
      .ok ((t.note false false adr.toNat 4096).writeAcc c (accOf (BitVec.ofNat 16 first) (raw.map ofRaw))))

/-- CBLD (R210): it waits until the matrix unit is empty. -/
def execCbld (c : BitVec 2) (b : BitVec 6) (ta tb : BitVec 2) (s : State) : Host.Outcome State Fault Refusal :=
  let adr := s.getS b
  s.finishSeq (.cbld c b ta tb) (do
    s.matrixEntry []
    if s.here.mmaq ≠ [] then .error (.stall 5 0)
    else
      s.checkBlockAt adr 32 32 .load
      let t ← s.readLines adr (linesOf adr.toNat 32)
      let x := t.here
      .ok ((t.setHere { x with cb := x.cb.set c.toNat (BitVec.ofNat 256 (t.view.lm adr.toNat 32)) c.isLt, ta := ta, tb := tb }).note
        false false adr.toNat 32))

/-! ### Descriptor registers -/

/-- LDD (R211): imm8 is unsigned. -/
def execLdd (d : BitVec 3) (b : BitVec 6) (i : BitVec 8) (s : State) : Host.Outcome State Fault Refusal :=
  let adr := s.getS b + BitVec.ofNat 64 (i.toNat * 64)
  s.finishSeq (.ldd d b i) (do
    s.checkBlockAt adr 32 32 .load
    let t ← s.readLines adr (linesOf adr.toNat 32)
    .ok ((t.note false false adr.toNat 32).setD d (BitVec.ofNat 256 (t.view.lm adr.toNat 32))))

/-- SETD (R212): quarter n of the descriptor. -/
def execSetd (d : BitVec 3) (a : BitVec 6) (n : BitVec 4) (s : State) : Host.Outcome State Fault Refusal :=
  let old := elemsOf (s.getD d).toNat 64 4
  s.finishSeq (.setd d a n) (.ok (s.setD d (BitVec.ofNat 256 (packElems 64 (listSet old n.toNat (s.getS a).toNat)))))

end Sys2Proof.Machine
end

