-- ==== Sys2Proof/Machine/Control.lean ====
section
/-! DEFINITION. Branches, jumps, hardware loops, traps, markers and the end of a strand (05_scalar_isa.md R137 to R156, with
01_strand_machine.md R29, R30, R41), and the prefix words (02_encoding.md R55 to R58). -/
namespace Sys2Proof.Machine

/-! ### Prefixes -/

/-- A prefix word has no effect of its own: it modifies the instruction of its unit (R55). -/
def State.addPfx (s : State) (p : Pfx) : Host.Outcome State Fault Refusal := .next (s.setMe { s.me with pfx := s.me.pfx ++ [p] })

/-- PRND (R56). -/
def execPrnd (sa : BitVec 1) (rm : BitVec 3) (s : State) : Host.Outcome State Fault Refusal := s.addPfx (.prnd (sa == 1) rm)

/-- PEXT (R57). -/
def execPext (x : BitVec 22) (s : State) : Host.Outcome State Fault Refusal := s.addPfx (.pext x)

/-- PONE (R58). -/
def execPone (s : State) : Host.Outcome State Fault Refusal := s.addPfx .pone

/-! ### Branches and jumps -/

/-- A PC-relative branch by off words from the own address (R137): its target is checked only when it is taken. -/
def State.branch (s : State) (i : Instr) (taken : Bool) (off : Int) : Host.Outcome State Fault Refusal :=
  s.finish i (if taken then (s.relTarget ((s.own : Int) + 4 * off)).map (fun a => (s, .jump a)) else .ok (s, .seq))

/-- BZ (R137). -/
def execBz (x : BitVec 6) (i : BitVec 16) (s : State) : Host.Outcome State Fault Refusal :=
  s.branch (.bz x i) (s.getS x == 0) (s.imm i)

/-- BNZ (R137). -/
def execBnz (x : BitVec 6) (i : BitVec 16) (s : State) : Host.Outcome State Fault Refusal :=
  s.branch (.bnz x i) (s.getS x != 0) (s.imm i)

/-- BLTZ (R137). -/
def execBltz (x : BitVec 6) (i : BitVec 16) (s : State) : Host.Outcome State Fault Refusal :=
  s.branch (.bltz x i) (decide ((s.getS x).toInt < 0)) (s.imm i)

/-- BGEZ (R137). -/
def execBgez (x : BitVec 6) (i : BitVec 16) (s : State) : Host.Outcome State Fault Refusal :=
  s.branch (.bgez x i) (decide (0 ≤ (s.getS x).toInt)) (s.imm i)

/-- BGTZ (R137). -/
def execBgtz (x : BitVec 6) (i : BitVec 16) (s : State) : Host.Outcome State Fault Refusal :=
  s.branch (.bgtz x i) (decide (0 < (s.getS x).toInt)) (s.imm i)

/-- BLEZ (R137). -/
def execBlez (x : BitVec 6) (i : BitVec 16) (s : State) : Host.Outcome State Fault Refusal :=
  s.branch (.blez x i) (decide ((s.getS x).toInt ≤ 0)) (s.imm i)

/-- The condition of BCMP (R138). -/
def bcmpHolds (c : BitVec 4) (a b : Word) : Bool :=
  match c.toNat with
  | 0 => a == b
  | 1 => a != b
  | 2 => decide (a.toInt < b.toInt)
  | 3 => decide (b.toInt ≤ a.toInt)
  | 4 => decide (a.toNat < b.toNat)
  | 5 => decide (b.toNat ≤ a.toNat)
  | _ => false

/-- BCMP (R138). -/
def execBcmp (a b : BitVec 6) (c : BitVec 4) (off : BitVec 32) (s : State) : Host.Outcome State Fault Refusal :=
  s.branch (.bcmp a b c off) (bcmpHolds c (s.getS a) (s.getS b)) off.toInt

/-- J (R139). -/
def execJ (i : BitVec 22) (s : State) : Host.Outcome State Fault Refusal := s.branch (.j i) true (s.imm i)

/-- JAL (R139): the link is the next sequential address (R45). -/
def execJal (i : BitVec 22) (s : State) : Host.Outcome State Fault Refusal :=
  s.finish (.jal i) ((s.relTarget ((s.own : Int) + 4 * s.imm i)).map
    (fun a => (s.setS 63 (BitVec.ofNat 64 (s.own + 4)), .jump a)))

/-- JR (R140). -/
def execJr (a : BitVec 6) (s : State) : Host.Outcome State Fault Refusal :=
  s.finish (.jr a) ((s.regTarget (s.getS a)).map (fun t => (s, .jump t)))

/-- JALR (R140): the target is read before the link is written. -/
def execJalr (d a : BitVec 6) (s : State) : Host.Outcome State Fault Refusal :=
  s.finish (.jalr d a) ((s.regTarget (s.getS a)).map (fun t => (s.setS d (BitVec.ofNat 64 (s.own + 4)), .jump t)))

/-- BWS (R141). -/
def execBws (c : BitVec 6) (i : BitVec 16) (s : State) : Host.Outcome State Fault Refusal :=
  s.branch (.bws c i) (s.me.wst == c.setWidth 8) (s.imm i)

/-- The condition of BP (R142). -/
def bpHolds (n : BitVec 3) (p : Word) : Bool :=
  match n.toNat with
  | 0 => p != 0
  | 1 => p == BitVec.allOnes 64
  | 2 => p == 0
  | 3 => p != BitVec.allOnes 64
  | _ => false

/-- BP (R142). -/
def execBp (p n : BitVec 3) (i : BitVec 16) (s : State) : Host.Outcome State Fault Refusal :=
  s.branch (.bp p n i) (bpHolds n (s.getP p)) (s.imm i)

/-! ### Hardware loops -/

/-- The checks of a loop instruction with the given END (R145): FETCH_BOUND, then COUNT, OVERFLOW and NEST; TVAL is the own
address. NEST asks whether the new END lies beyond that of "an entry" that is active; where MTS has written a stack whose ENDs do not nest, the
spec does not say of which: DESIGN CHOICE, of the innermost alone (log entry 56). -/
def State.loopChecks (s : State) (fin : Nat) (count : Bool) : Except Stop Unit :=
  let own := BitVec.ofNat 64 s.own
  if 0xFFFC < fin then raise cFETCH 0 (BitVec.ofNat 64 fin)
  else if count then raise cLOOP 3 own
  else if entV s.me.lstk[3] then raise cLOOP 1 own
  else match innermost s.me.lstk with
    | some i => if entEnd (lstkAt s.me.lstk i) < fin then raise cLOOP 4 own else .ok ()
    | none => .ok ()

/-- A push writes the entry above the innermost, or LSTK0 (R144). -/
def State.pushLoop (s : State) (e : Word) : State :=
  let i := match innermost s.me.lstk with
    | some i => i + 1
    | none => 0
  s.setMe { s.me with lstk := setAt s.me.lstk i e }

/-- A counted loop (R146, R147): a count of 0 skips the body, without a back edge. -/
def State.countedLoop (s : State) (i : Instr) (fin cnt : Nat) (bad : Bool) : Host.Outcome State Fault Refusal :=
  s.finish i (do
    s.loopChecks fin bad
    if cnt = 0 then .ok (s, .skip (fin + 4))
    else .ok (s.pushLoop (entPack false (s.own + 4 * wordsOf i) fin cnt), .seq))

/-- LOOP (R146). -/
def execLoop (x : BitVec 6) (e : BitVec 16) (s : State) : Host.Outcome State Fault Refusal :=
  s.countedLoop (.loop x e) (s.own + 4 * e.toNat) ((s.getS x).toNat % 2 ^ 32) (decide (2 ^ 32 ≤ (s.getS x).toNat))

/-- LOOPI (R147). -/
def execLoopi (e count : BitVec 16) (s : State) : Host.Outcome State Fault Refusal :=
  s.countedLoop (.loopi e count) (s.own + 4 * e.toNat) count.toNat false

/-- LOOPS (R148): the checks, the queue, then the push and the first examination. -/
def execLoops (q : BitVec 2) (l : BitVec 3) (e : BitVec 16) (s : State) : Host.Outcome State Fault Refusal :=
  let fin := s.own + 4 * e.toNat
  let checks : Except Stop Unit := do
    s.loopChecks fin false
    if s.here.ringExists s.supervisor q then .ok () else raise cDESC 10 (q.setWidth 64)
  match checks with
  | .error r => s.finish (.loops q l e) (.error r)
  | .ok _ =>
    let t := (s.pushLoop (entPack true (s.own + 4) fin (q.toNat + 4 * l.toNat))).arriveAt s.me.pc.toNat
    .next (State.examine 5 t none).afterRetire

/-- LBRK (R150): no back edge is taken, not even one of an outer entry with the same END that its pop leaves innermost, which
R149 could be read to include (log entry 56). -/
def execLbrk (s : State) : Host.Outcome State Fault Refusal :=
  s.finish .lbrk (match innermost s.me.lstk with
    | none => raise cLOOP 2 (BitVec.ofNat 64 s.own)
    | some i => .ok (s.popLoop, .skip (entEnd (lstkAt s.me.lstk i) + 4)))

/-! ### Traps, markers, the end of a strand -/

/-- TRAP (R152). -/
def execTrap (c : BitVec 7) (s : State) : Host.Outcome State Fault Refusal := s.finish (.trap c) (raise (c.setWidth 8) 0 0)

/-- SVC (R153): TVAL is s16. -/
def execSvc (c : BitVec 8) (s : State) : Host.Outcome State Fault Refusal := s.finish (.svc c) (raise c 0 (s.getS 16))

/-- RTT (R41). -/
def execRtt (s : State) : Host.Outcome State Fault Refusal := s.finish .rtt s.returnFromTrap

/-- NOP (R154). -/
def execNop (s : State) : Host.Outcome State Fault Refusal := s.finishSeq .nop (.ok s)

/-- BRK (R154). -/
def execBrk (s : State) : Host.Outcome State Fault Refusal := s.finish .brk (raise cBREAK 1 (BitVec.ofNat 64 s.own))

/-- TMARK (R155): a record of the branch trace (R516); the issue trace takes the value with the issue (R517). -/
def execTmark (v : BitVec 22) (s : State) : Host.Outcome State Fault Refusal :=
  s.finishSeq (.tmark v) (.ok (s.branchRecord s.curTile s.curStrand 4 (v.toNat / 64) (v.toNat % 64 * 1024)))

/-- The token belongs to a next fetch that the strand issued in the open superstep (R156, R383). -/
def Token.nextHere (k : Token) (num : Nat) : Bool := k.st == .pending && k.use == .fetchNext && k.step == num

/-- The numbers of the tokens RETIRE waits for (R156). -/
def State.retireTokens (s : State) : List Nat :=
  (span 0 16).filter (fun k =>
    let x := s.me.tok (BitVec.ofNat 4 k)
    x.st == .pending && !x.nextHere s.here.num)

/-- An engine operation is cancelled (R383, R384): its slot and its locks are freed and its token is CLEAR. -/
def Tile.cancelEng (x : Tile) (n : BitVec 2) (k : BitVec 4) : Tile :=
  let y := ({ x with eng := x.eng.filter (fun e => !(e.strand == n && e.tok == k)) }).unlock n k [.list, .span, .source]
  y.setStrand n ((y.strand n).setTok k {})

/-- The span of a FETCHL or WBL descriptor (R369): its local address and length in bytes. -/
def fetchSpan (d : Desc) : Nat × Nat := (bitsOf d.toNat 49 32, 64 * bitsOf d.toNat 76 64)

/-- The next fetches that the strand issued in the open superstep are cancelled, and their spans hold values the
architecture does not fix (R383). -/
def State.cancelNext (s : State) : State :=
  let mine := s.here.eng.filter (fun e => e.strand == s.curStrand && e.next && ((s.me.tok e.tok).nextHere s.here.num))
  mine.foldl (fun u e =>
    (u.setHere (u.here.cancelEng e.strand e.tok)).forget u.curTile (fetchSpan e.desc).1 (fetchSpan e.desc).2) s

/-- RETIRE (R156). -/
def execRetire (s : State) : Host.Outcome State Fault Refusal :=
  let e : Eff := do
    s.matrixEntry []
    match s.retireTokens with
    | k :: _ => .error (.stall 6 (BitVec.ofNat 64 k))
    | [] =>
      let t := s.cancelNext
      .ok (t.setMe { t.me with st := .retired, retiredNow := true, doneFlg := t.me.flg.setWidth 10, doneVal := (t.getS 16).setWidth 16 }, .stop)
  match s.finish .retire e with
  | .next u => .next (u.formArrival u.curTile)
  | r => r

end Sys2Proof.Machine
end

