-- ==== Sys2Proof/Machine/Wait.lean ====
section
/-! DEFINITION. The waiting instructions on tokens, counts, fences, realignment and rings: KWAIT, KWANY, WAITC, FENCE, REALIGN
(09_strands_and_deadlines.md R241 to R250, 10_clusters_launch.md R259) and MRECV (11_supersteps.md R297). -/
namespace Sys2Proof.Machine

/-- How a waiting instruction ends without MET: WST and nothing else (R233), or the wait goes on. -/
def State.endUnmet (s : State) (w : WaitEnd) : Except Stop State :=
  match w with
  | .on k => .error (.wait k)
  | .timeout => .ok (s.setWst 1 s.me.pc.toNat)
  | _ => .ok (s.setWst 4 s.me.pc.toNat)

/-- The held fault of the strand's MMA concerns a token of the mask (R198). -/
def State.heldIn (s : State) (mask : Nat) : Bool :=
  match s.me.held with
  | some h => bitAt mask h.tok.toNat
  | none => false

/-- OK, or FAULT for a status that is not 0 (R241). -/
def okOrFault (status : BitVec 8) : BitVec 8 := if status = 0 then 0 else 6

/-- KWAIT (R241, R243). -/
def execKwait (d : BitVec 6) (l : BitVec 3) (k : BitVec 4) (s : State) : Host.Outcome State Fault Refusal :=
  s.finishSeq (.kwait d l k)
    (if s.heldIn (2 ^ k.toNat) then .error .report
    else match s.waitTest l ((s.getTok k).st != .pending) with
      | .met => .ok ((s.setS d ((s.getTok k).status.setWidth 64)).setWst (okOrFault (s.getTok k).status) s.me.pc.toNat)
      | w => s.endUnmet w)

/-- The lowest token of the mask that is not PENDING (R242). -/
def State.lowestReady (s : State) (mask : Nat) : Option Nat :=
  (span 0 16).find? (fun k => bitAt mask k && (s.getTok (BitVec.ofNat 4 k)).st != .pending)

/-- KWANY (R242, R243). A token of the mask that is not PENDING ends it at once (R242 step 3), whatever MMA the mask names
besides (log entry 56). -/
def execKwany (d a : BitVec 6) (l : BitVec 3) (s : State) : Host.Outcome State Fault Refusal :=
  let mask := (s.getS a).toNat % 2 ^ 16
  s.finishSeq (.kwany d a l)
    (if mask = 0 then .ok ((s.setS d 16).setWst 4 s.me.pc.toNat)
    else if s.heldIn mask then .error .report
    else match s.waitTest l (s.lowestReady mask).isSome, s.lowestReady mask with
      | .met, some k =>
        .ok ((s.setS d (BitVec.ofNat 64 k)).setWst (okOrFault (s.getTok (BitVec.ofNat 4 k)).status) s.me.pc.toNat)
      | w, _ => s.endUnmet w)

/-- How many of the strand's tokens are PENDING in an operation of one of the uses (R245). -/
def Strand.pendingOf (r : Strand) (uses : List TokUse) : Nat :=
  (r.k.toList.filter (fun t => t.st == .pending && uses.contains t.use)).length

/-- WAITC (R245): a held fault ends it before any test. -/
def execWaitc (l : BitVec 3) (nt nc ns nl : BitVec 8) (s : State) : Host.Outcome State Fault Refusal :=
  let r := s.me
  let cond := decide (r.pendingOf [.fetchl, .fetchNext] ≤ nl.toNat ∧ r.pendingOf [.wbl] ≤ ns.toNat ∧
    r.pendingOf [.copy] ≤ nc.toNat ∧ r.pendingOf [.mma] ≤ nt.toNat)
  s.finishSeq (.waitc l nt nc ns nl)
    (if r.held.isSome then .ok (s.setWst 6 s.me.pc.toNat)
    else match s.waitTest l cond with
      | .met => .ok (s.setWst 0 s.me.pc.toNat)
      | w => s.endUnmet w)

/-- The strand's local stores not yet performed, counted by the instruction that issued them (R250). -/
def Tile.unperformed (x : Tile) (n : BitVec 2) : Nat :=
  (((x.sbuf.filter (fun e => e.strand == n)).map (fun e => e.since)).eraseDups).length

/-- The outstanding count of a scope (R250): 0 tile, 1 context, 2 system. -/
def State.outstanding (s : State) (scope : BitVec 2) : Nat :=
  s.here.unperformed s.curStrand +
    (if 1 ≤ scope.toNat then s.me.oakTile.toNat + s.me.oakCtx.toNat else 0) +
    (if 2 ≤ scope.toNat then s.me.oakSys.toNat else 0)

/-- FENCE (R250). -/
def execFence (d : BitVec 6) (l : BitVec 3) (scope : BitVec 2) (s : State) : Host.Outcome State Fault Refusal :=
  let n := s.outstanding scope
  let out := s.setS d (BitVec.ofNat 64 n)
  s.finishSeq (.fence d l scope)
    (if scope ≠ 0 ∧ s.me.refusal ∧ s.me.wait.isNone then .ok (out.setWst 6 s.me.pc.toNat)
    else match s.waitTest l (n == 0) with
      | .met => .ok ((s.setS d 0).setWst 0 s.me.pc.toNat)
      | .on k => .error (.wait k)
      | _ => .ok (out.setWst 2 s.me.pc.toNat))

/-! ### REALIGN -/

/-- The strand waits in a REALIGN at unit address pc. -/
def Strand.realignsAt (r : Strand) (pc : BitVec 16) : Bool :=
  r.st == .wait && r.pc == pc && (match r.wait with
    | some w => (match w.instr with | .realign _ _ _ => true | _ => false)
    | none => false)

/-- The strand is present at pc (R259). -/
def Strand.presentAt (r : Strand) (pc : BitVec 16) : Bool := r.st == .retired || r.st == .idle || r.realignsAt pc

/-- The strands that the mask of strand n of tile t names and that are not present at its address, as a mask (R259): the presence of a
cycle in which several strands issue is that of State.present. -/
def State.absent (s : State) (t : Nat) (n : BitVec 2) (mask : Nat) : Nat :=
  let k := clusterOf t
  (span 0 64).foldl (fun acc b =>
    let u := 16 * k + b / 4
    let m := BitVec.ofNat 2 (b % 4)
    if bitAt mask b ∧ !(u == t && m == n) ∧ !(s.strand u m).presentAt (s.strand t n).pc ∧ !s.present.contains (u, m, (s.strand t n).pc) then acc + 2 ^ b else acc) 0

/-- The mask operand of a REALIGN in which a strand waits. -/
def Strand.realignMask (r : Strand) : Nat :=
  match r.wait with
  | some w => (match w.instr with
    | .realign _ a _ => if a = 0 then 0 else (r.s[a.toNat]'(a.isLt)).toNat
    | _ => 0)
  | none => 0

/-- The strands of the cluster of tile t waiting in a REALIGN at pc whose condition is met (R259). -/
def State.realigned (s : State) (t : Nat) (pc : BitVec 16) : List (Nat × BitVec 2) :=
  (tilesOf (clusterOf t)).flatMap (fun u => strandIx.filterMap (fun n =>
    if (s.strand u n).realignsAt pc ∧ s.absent u n (s.strand u n).realignMask = 0 then some (u, n) else none))

/-- A strand waiting in a REALIGN ends it with OK (R259). -/
def State.endRealign (s : State) (t : Nat) (n : BitVec 2) : State :=
  match (s.strand t n).wait with
  | none => s
  | some w =>
    let u := { s with curTile := t, curStrand := n }
    let u := u.setMe { u.me with st := .run, pfx := w.pfx }
    match w.instr with
    | .realign d a l =>
      (match u.finishSeq (.realign d a l) (.ok ((u.setS d 0).setWst 0 u.me.pc.toNat)) with
      | .next v => { v with curTile := s.curTile, curStrand := s.curStrand }
      | _ => s)
    | _ => s

/-- Every REALIGN at pc in the cluster of tile t whose condition is met ends in the same cycle (R259). -/
def State.realignServe (s : State) (t : Nat) (pc : BitVec 16) : State :=
  (s.realigned t pc).foldl (fun u e => u.endRealign e.1 e.2) s

/-- REALIGN (R259): the strand is present while it issues, so that those waiting for it are met with it. -/
def execRealign (d a : BitVec 6) (l : BitVec 3) (s : State) : Host.Outcome State Fault Refusal :=
  let i : Instr := .realign d a l
  let pc := s.me.pc
  let waiting := s.enterWait i (.named l 0)
  let missing := waiting.absent s.curTile s.curStrand (s.getS a).toNat
  let own := s.finishSeq i (match s.waitTest l (missing == 0) with
    | .met => .ok ((s.setS d 0).setWst 0 s.me.pc.toNat)
    | .on k => .error (.wait k)
    | .timeout => .ok ((s.setS d (BitVec.ofNat 64 missing)).setWst 1 s.me.pc.toNat)
    | .notMet => .ok ((s.setS d (BitVec.ofNat 64 missing)).setWst 4 s.me.pc.toNat))
  match own with
  | .next t => .next ((waiting.realigned s.curTile pc).foldl (fun u e =>
      if e.1 = s.curTile ∧ e.2 = s.curStrand then u else u.endRealign e.1 e.2) t)
  | r => r

/-! ### MRECV -/

/-- MRECV (R297): PAD records at the head are skipped; the queue is looked at again at every test. -/
def execMrecv (d : BitVec 6) (l : BitVec 3) (q : BitVec 2) (s : State) : Host.Outcome State Fault Refusal :=
  s.finishSeq (.mrecv d l q)
    (if !s.here.ringExists s.supervisor q then raise cDESC 10 (q.setWidth 64)
    else
      let r := s.ringRead (s.view.headLines q)
      let u := r.1
      s.keepSoft u (match r.2 with
      | some k => .error (.counted cSRAM 0 (BitVec.ofNat 64 (64 * k)) (!u.here.restorable k && !isMgmt u.curTile) (k % 16))
      | none =>
        match u.view.headRec q with
        | .malformed => raise cDESC 9 (q.setWidth 64)
        | .record eos p z =>
          let c := u.here.qcfgAt q
          let t := (u.setHere (u.here.consume q p z)).setS d (BitVec.ofNat 64 (qBase c + p % qSize c))
          .ok (t.setWst (if eos then 5 else 0) u.me.pc.toNat)
        | .empty => u.endUnmet (u.waitTest l false)))

end Sys2Proof.Machine
end

