-- ==== Sys2Proof/Machine/Deltas.lean ====
section
/-! DEFINITION. Deltas: the addresses of remote instructions, the sending of a delta and its OAK count, RST, VRST, RRED,
VRRED, MSEND and MSENDG (11_supersteps.md R281 to R292, R296), and a delta's arrival at a tile, its acknowledgement and its
refusal (R283 to R285), with the latency accounts (22_debug.md R519, R520). -/
namespace Sys2Proof.Machine

/-! ### OAK and sending -/

def Strand.oakOf (r : Strand) (c : OakCls) : BitVec 16 :=
  match c with
  | .tile => r.oakTile
  | .ctx => r.oakCtx
  | .sys => r.oakSys

def Strand.setOak (r : Strand) (c : OakCls) (v : BitVec 16) : Strand :=
  match c with
  | .tile => { r with oakTile := v }
  | .ctx => { r with oakCtx := v }
  | .sys => { r with oakSys := v }

/-- The OAK stall (R285): SUB 9 when a count would pass 65,535. -/
def State.oakRoom (s : State) (l : List OakCls) : Except Stop Unit :=
  if [OakCls.tile, .ctx, .sys].any (fun c => decide (65535 < (s.me.oakOf c).toNat + (l.filter (fun d => d == c)).length))
  then .error (.stall 9 0) else .ok ()

/-- Which OAK field counts a delta to a tile (R285). -/
def State.tileCls (s : State) (t : Nat) : OakCls :=
  if t = s.curTile then .tile else if modOf t = modOf s.curTile then .ctx else .sys

/-- The latency account of a delta to a tile, whose local address is a (R520); a message, which names no address, counts as one to 0 (log
entry 56). -/
def tileAcct (t a : Nat) : Nat := 4 * (t % 2 ^ 18 / 2 ^ 14) + bitsOf a 9 8

/-- The latency account of what goes to Axlos (R520). -/
def axlosAcct (t : Nat) : Nat := 4 * (t % 2 ^ 18 / 2 ^ 14) + 3

/-- A delta to be sent: its lane, destination, OAK field, account, kind and whether it is a whole line. -/
structure Outgoing where
  lane : Nat
  dest : DeltaDest
  cls  : OakCls
  acct : Nat
  body : DeltaBody
  wide : Bool
  kslot : Nat := 0
deriving DecidableEq, Repr

/-- A delta of the current strand with an issue sequence (R281). -/
def State.delta (s : State) (seq : Nat) (o : Outgoing) : Delta :=
  { ctx := (s.ctxOf s.curTile).getD 0, srcVt := s.here.vtid.toNat, srcTile := s.curTile, strand := s.curStrand, num := s.here.num,
    att := s.here.att, seq := seq, lane := o.lane, dest := o.dest, body := o.body, cls := o.cls, acct := o.acct, wide := o.wide, kslot := o.kslot }

/-- Deltas of one instruction are sent under the next issue sequence (R282) and counted in OAK (R285); none takes none. -/
def State.sendAll (s : State) (l : List Outgoing) : State :=
  if l = [] then s
  else
    let seq := s.here.iseq
    let t := s.setHere { s.here with iseq := seq + 1 }
    l.foldl (fun u o =>
      (u.setMe (u.me.setOak o.cls (u.me.oakOf o.cls + 1))).send (.delta (s.delta seq.toNat o))) t

/-! ### Remote addresses -/

/-- The tile a virtual tile is mapped to (R2, R484). -/
def Ctx.tileOf (c : Ctx) (v : Nat) : Option Nat := (SMap.find c.tmap (v / 16)).map (fun k => 16 * k + v % 16)

/-- What a remote or group address names (R288). -/
inductive Remote where
  | tile (t : Nat)
  | group (g : Nat) (members : List Nat)
deriving DecidableEq, Repr

/-- Steps 1 to 3 of R288. -/
def State.checkRemote (s : State) (a : Word) (tile group whole : Bool) : Except Stop Remote :=
  let n := a.toNat
  let c := s.myCtx
  let lowBad := whole && n % 2 ^ 18 != 0
  if tile ∧ n < 2 ^ 45 ∧ !lowBad then
    if c.tiles ≤ n / 2 ^ 18 then raise cBOUND 2 a
    else match c.tileOf (n / 2 ^ 18) with
      | some t => .ok (.tile t)
      | none => raise cBOUND 2 a
  else if group ∧ bitAt n 63 ∧ bitsOf n 54 18 = 0 ∧ !lowBad then
    match SMap.get [] c.groups (bitsOf n 62 55) with
    | [] => raise cBOUND 3 a
    | l => .ok (.group (bitsOf n 62 55) l)
  else raise cBOUND 1 a

/-- Step 4 of R288. -/
def checkAlign (a : Word) (n : Nat) : Except Stop Unit :=
  if a.toNat % 2 ^ 18 % n ≠ 0 then raise cMISAL 0 a else .ok ()

/-- A delta to a tile, or a push delta to a group of the context (R413). -/
def State.outgoing (s : State) (r : Remote) (loc : Nat) (body : DeltaBody) (wide : Bool) : Outgoing :=
  match r with
  | .tile t => { lane := 0, dest := .tile t, cls := s.tileCls t, acct := tileAcct t loc, body := body, wide := wide }
  | .group g _ =>
    { lane := 0, dest := .axlos (modOf s.curTile) (BitVec.ofNat 8 g), cls := .ctx, acct := axlosAcct s.curTile, body := body, wide := wide }

/-- One delta is sent after its checks. -/
def State.sendOne (s : State) (o : Outgoing) : Except Stop State := do
  s.oakRoom [o.cls]
  .ok (s.sendAll [o])

/-! ### The instructions -/

/-- The n low bytes of a value as the store of a delta. -/
def storeBody (addr n : Nat) (v : Word) : DeltaBody := .store addr (BitVec.ofNat 64 (2 ^ n - 1)) (BitVec.ofNat 512 (v.toNat % 2 ^ (8 * n)))

/-- The access size of an operator of R291. -/
def redSize (op : BitVec 4) : Nat :=
  match op.toNat with
  | 0 | 2 | 4 | 6 | 8 | 13 | 14 | 15 => 4
  | _ => 8

/-- One reduced element (R291): the operator's number, the address and the operand narrowed to its size. -/
def redBody (addr : Nat) (op : BitVec 4) (v : Word) : DeltaBody :=
  .reduce addr op (BitVec.ofNat 64 (2 ^ redSize op - 1)) (BitVec.ofNat 512 (v.toNat % 2 ^ (8 * redSize op)))

/-- RST (R289). -/
def execRst (d a : BitVec 6) (n : BitVec 2) (s : State) : Host.Outcome State Fault Refusal :=
  let adr := s.getS a
  let k := 2 ^ n.toNat
  s.finishSeq (.rst d a n) (do
    s.notMgmt
    let r ← s.checkRemote adr true false false
    checkAlign adr k
    s.sendOne (s.outgoing r adr.toNat (storeBody (adr.toNat % 2 ^ 18) k (s.getS d)) false))

/-- VRST (R290): TVAL of a misaligned local part is the address with it in place. -/
def execVrst (x : BitVec 5) (b : BitVec 6) (p : BitVec 3) (i : BitVec 8) (s : State) : Host.Outcome State Fault Refusal :=
  let adr := s.getS b
  let loc : Int := ((adr.toNat % 2 ^ 18 : Nat) : Int) + 64 * i.toInt
  s.finishSeq (.vrst x b p i) (do
    s.notMgmt
    let r ← s.checkRemote adr true false false
    if loc < 0 ∨ 2 ^ 18 ≤ loc then raise cBOUND 1 adr
    else if loc % 64 ≠ 0 then raise cMISAL 0 (BitVec.ofNat 64 (adr.toNat / 2 ^ 18 * 2 ^ 18 + loc.toNat))
    else if s.getP p = 0 then .ok s
    else s.sendOne (s.outgoing r loc.toNat (.store loc.toNat (s.getP p) (s.getV x)) true))

/-- RRED (R291). -/
def execRred (d a : BitVec 6) (f : BitVec 4) (s : State) : Host.Outcome State Fault Refusal :=
  let adr := s.getS a
  s.finishSeq (.rred d a f) (do
    s.notMgmt
    let r ← s.checkRemote adr true true false
    checkAlign adr (redSize f)
    s.sendOne (s.outgoing r adr.toNat (redBody (adr.toNat % 2 ^ 18) f (s.getS d)) false))

/-- The R291 number of the operator of VRRED with op and ty (R292). -/
def vrredOp (op : BitVec 3) (ty : BitVec 4) : BitVec 4 :=
  let wide := ty = 3 ∨ ty = 7
  let uns := ty = 6 ∨ ty = 7
  match op.toNat with
  | 0 => if ty = 8 then 13 else if wide then 1 else 0
  | 1 => if ty = 8 then 14 else if uns then (if wide then 7 else 6) else (if wide then 3 else 2)
  | 2 => if ty = 8 then 15 else if uns then (if wide then 9 else 8) else (if wide then 5 else 4)
  | 3 => 10
  | 4 => 11
  | _ => 12

/-- The bytes of the active elements of width w, as a mask (R158). -/
def activeMask (p : Word) (w : Nat) : BitVec 64 :=
  BitVec.ofNat 64 ((span 0 64).foldl (fun m j => if active p w (8 * j / w) then m + 2 ^ j else m) 0)

/-- VRRED (R292). -/
def execVrred (x : BitVec 5) (b : BitVec 6) (p : BitVec 3) (o : BitVec 3) (y : BitVec 4) (s : State) :
    Host.Outcome State Fault Refusal :=
  let adr := s.getS b
  let op := vrredOp o y
  let mask := activeMask (s.getP p) (8 * redSize op)
  s.finishSeq (.vrred x b p o y) (do
    s.notMgmt
    let r ← s.checkRemote adr true true false
    checkAlign adr 64
    if mask = 0 then .ok s
    else s.sendOne (s.outgoing r adr.toNat (.reduce (adr.toNat % 2 ^ 18) op mask (s.getV x)) true))

/-- The checks of MSEND and MSENDG after R288 (R296), and the payload. -/
def State.payload (s : State) (b len : Word) : Except Stop (State × List Byte) :=
  let n := len.toNat
  if 2048 < n then raise cBOUND 4 len
  else if 2 ^ 18 ≤ b.toNat then raise cBOUND 0 b
  else if n ≠ 0 ∧ 2 ^ 18 < b.toNat + n then raise cBOUND 0 (b + BitVec.ofNat 64 (n - 1))
  else if b.toNat % 16 ≠ 0 then raise cMISAL 0 b
  else if s.here.locked b.toNat n .load then raise cLOCK 0 b
  else (s.readLines b (linesOf b.toNat n)).map (fun t => (t.note false false b.toNat n, t.view.bytes b.toNat n))

/-- A message to a list of tiles (R296). -/
def State.message (s : State) (q : BitVec 2) (eos : Bool) (tiles : List Nat) (l : List Byte) : Except Stop State := do
  let out := tiles.map (fun t =>
    ({ lane := 0, dest := .tile t, cls := s.tileCls t, acct := tileAcct t 0, body := .message q eos l, wide := false } : Outgoing))
  s.oakRoom (out.map (fun o => o.cls))
  .ok (s.sendAll out)

/-- The tiles a destination names (R296): MSENDG sends to each member, the sender included. -/
def State.destTiles (s : State) (r : Remote) : List Nat :=
  match r with
  | .tile t => [t]
  | .group _ l => l.filterMap (fun v => s.myCtx.tileOf v)

/-- MSEND (R296). -/
def execMsend (d a b : BitVec 6) (q : BitVec 2) (s : State) : Host.Outcome State Fault Refusal :=
  s.finishSeq (.msend d a b q) (do
    s.notMgmt
    let r ← s.checkRemote (s.getS a) true false true
    let t ← s.payload (s.getS b) (s.getS d)
    s.keepSoft t.1 (t.1.message q false (s.destTiles r) t.2))

/-- MSEND.EOS (R296). -/
def execMsendEos (a : BitVec 6) (q : BitVec 2) (s : State) : Host.Outcome State Fault Refusal :=
  s.finishSeq (.msendEos a q) (do
    s.notMgmt
    let r ← s.checkRemote (s.getS a) true false true
    s.message q true (s.destTiles r) [])

/-- MSENDG (R296). -/
def execMsendg (d a b : BitVec 6) (q : BitVec 2) (s : State) : Host.Outcome State Fault Refusal :=
  s.finishSeq (.msendg d a b q) (do
    s.notMgmt
    let r ← s.checkRemote (s.getS a) false true true
    let t ← s.payload (s.getS b) (s.getS d)
    s.keepSoft t.1 (t.1.message q false (s.destTiles r) t.2))

/-- MSENDG.EOS (R296). -/
def execMsendgEos (a : BitVec 6) (q : BitVec 2) (s : State) : Host.Outcome State Fault Refusal :=
  s.finishSeq (.msendgEos a q) (do
    s.notMgmt
    let r ← s.checkRemote (s.getS a) false true true
    s.message q true (s.destTiles r) [])

/-! ### Arrival at a tile -/

/-- A payload rounded up to whole 16 bytes. -/
def pad16 (n : Nat) : Nat := (n + 15) / 16 * 16

/-- The bytes a delta occupies (R284). -/
def Delta.size (d : Delta) : Nat :=
  match d.body with
  | .message _ _ l => 32 + pad16 l.length
  | _ => if d.wide then 96 else 32

/-- The record size a message reserves in the spill area (R284), 0 for any other delta. -/
def Delta.reserve (d : Delta) : Nat :=
  match d.body with
  | .message _ _ l => 16 + pad16 l.length
  | _ => 0

/-- The bytes of the inbox in use (R281). -/
def Tile.inboxUsed (x : Tile) : Nat := ((x.inbox.filter (fun d => !d.spilled)).map Delta.size).foldl (· + ·) 0

/-- The bytes of the spill area in use or reserved (R284, R298). -/
def Tile.spillUsed (x : Tile) : Nat :=
  ((x.inbox.filter (fun d => d.spilled)).map Delta.size).foldl (· + ·) 0 +
    (x.inbox.map Delta.reserve).foldl (· + ·) 0 +
    (x.overflow.toList.flatMap (fun l => l.map List.length)).foldl (· + ·) 0

/-- A message's queue exists and its ring can hold the record (R298). -/
def Tile.fitsRing (x : Tile) (d : Delta) : Bool :=
  match d.body with
  | .message q _ _ => x.ringExists false q && decide (d.reserve ≤ qSize (x.qcfgAt q))
  | _ => true

/-- Whether and where a delta is placed (R284): in the inbox, in the spill area, or not at all. -/
def Tile.placement (x : Tile) (d : Delta) : Option Delta :=
  let spill := x.spillUsed + d.reserve
  if !x.fitsRing d ∨ 262144 < spill then none
  else if x.inboxUsed + d.size ≤ 16384 then some { d with spilled := false }
  else if spill + d.size ≤ 262144 then some { d with spilled := true }
  else none

/-- A delta is wanted at number n, attempt m (R283). -/
def Delta.current (d : Delta) (n m : Nat) : Bool := (d.num == n && d.att == m) || (d.num == n + 1 && d.att == 0)

/-- A saturating 32-bit count. -/
def sat32 (v : BitVec 32) : BitVec 32 := if v = BitVec.allOnes 32 then v else v + 1

/-- A delta reaches a tile of its context: it is dropped as stale, placed, withheld at a halted tile, or refused (R283 to
R285, R508). -/
def State.arriveDelta (s : State) (t : Nat) (d : Delta) : State :=
  let x := s.tile t
  if s.ctxOf t ≠ some d.ctx ∨ !d.current x.num x.att then
    (s.setTile t { x with dbg := { x.dbg with stale := sat32 x.dbg.stale } }).send (.ack d)
  else match x.placement d with
    | some e => (s.setTile t { x with inbox := x.inbox ++ [e] }).send (.ack d)
    | none =>
      if x.dbg.halted ∧ x.fitsRing d then s.setTile t { x with dbg := { x.dbg with withheld := x.dbg.withheld ++ [d] } }
      else
        let q := match d.body with
          | .message q _ _ => if x.refusedQ.contains (d.num, q.toNat) then x.refusedQ else x.refusedQ ++ [(d.num, q.toNat)]
          | _ => x.refusedQ
        (s.setTile t { x with refusedQ := q }).send (.refusal d)

/-- A running tile places the deltas that it withheld while halted, as far as there is room now (R508). -/
def State.placeWithheld (s : State) (t : Nat) : State :=
  let l := (s.tile t).dbg.withheld
  if l = [] then s
  else
    let x := s.tile t
    l.foldl (fun (u : State) d =>
      let y := u.tile t
      if u.ctxOf t = some d.ctx ∧ d.current y.num y.att ∧ (y.placement d).isNone ∧ y.fitsRing d then
        u.setTile t { y with dbg := { y.dbg with withheld := y.dbg.withheld ++ [d] } }
      else u.arriveDelta t d) (s.setTile t { x with dbg := { x.dbg with withheld := [] } })

/-- DELTA_ARRIVAL (R283): the delta at place State.ev.i of the messages in flight reaches its tile; a lost tile answers nothing
(R499). -/
def execDeltaArrival (s : State) : Host.Outcome State Fault Refusal :=
  match s.net[s.ev.i]? with
  | some (.delta d) =>
    match d.dest with
    | .tile t =>
      let u : State := { s with net := listDel s.net s.ev.i }
      if (u.cluster (clusterOf t)).lost then .next u else .next (u.arriveDelta t d)
    | _ => .next s
  | _ => .next s

/-- DELAY is added to a latency account (R520). -/
def Tile.account (x : Tile) (i : Nat) (delay : BitVec 16) : Tile :=
  let v := (SMap.get 0 x.latacc i).toNat
  let n := min (v / 2 ^ 40 + 1) (2 ^ 24 - 1)
  let sum := min (v % 2 ^ 40 + delay.toNat) (2 ^ 40 - 1)
  { x with latacc := SMap.set x.latacc i (BitVec.ofNat 64 (n * 2 ^ 40 + sum)) }

/-- One delta of a WBL has been acknowledged (R378). -/
def Tile.engAck (x : Tile) (d : Delta) : Tile :=
  match d.eng with
  | some k => { x with eng := x.eng.map (fun e => if e.strand == d.strand && e.tok == k && e.step == d.num && e.seq.toNat == d.seq then { e with out := e.out - 1 } else e) }
  | none => x

/-- The count of a delta of the open attempt falls by one (R285); a count that FATAL has set to 0 stays 0 (R304). -/
def State.answered (s : State) (d : Delta) : State :=
  let x := s.tile d.srcTile
  let x := x.account d.acct s.ev.delay
  if isMgmt d.srcTile ∨ (s.ctxOf d.srcTile = some d.ctx ∧ x.num = d.num ∧ x.att = d.att) then
    let r := x.strand d.strand
    s.setTile d.srcTile ((x.setStrand d.strand (r.setOak d.cls (if r.oakOf d.cls = 0 then 0 else r.oakOf d.cls - 1))).engAck d)
  else s.setTile d.srcTile x

/-- DELTA_ACKNOWLEDGEMENT (R285): it reaches the sender with a DELAY (R519). A tile whose strands have all retired may now
arrive (R307). -/
def execDeltaAcknowledgement (s : State) : Host.Outcome State Fault Refusal :=
  match s.net[s.ev.i]? with
  | some (.ack d) => .next ((({ s with net := listDel s.net s.ev.i } : State).answered d).formArrival d.srcTile)
  | _ => .next s

/-- A delta of a WBL has been refused (R379). -/
def Tile.engRefused (x : Tile) (d : Delta) : Tile :=
  match d.eng with
  | none => x
  | some k => { x with eng := x.eng.map (fun e =>
      if e.kind = .wbl ∧ e.strand = d.strand ∧ e.tok = k ∧ e.seq.toNat = d.seq then { e with refused := some (e.refused.getD d.lane) } else e) }

/-- DELTA_REFUSAL (R285): the refusal becomes pending for the strand and the tile votes abort. -/
def execDeltaRefusal (s : State) : Host.Outcome State Fault Refusal :=
  match s.net[s.ev.i]? with
  | some (.refusal d) =>
    let u := ({ s with net := listDel s.net s.ev.i } : State).answered d
    let x := u.tile d.srcTile
    if u.ctxOf d.srcTile = some d.ctx ∧ x.num = d.num ∧ x.att = d.att then
      let v := u.setTile d.srcTile ((x.setStrand d.strand { x.strand d.strand with refusal := true }).engRefused d)
      let cause := match d.body with | .message _ _ _ => cQOVER | _ => cREMOTE
      .next ((v.voteAbort d.srcTile cause).formArrival d.srcTile)
    else .next u
  | _ => .next s

end Sys2Proof.Machine
end

