-- ==== Sys2Proof/Machine/Image.lean ====
section
/-! DEFINITION. The image of a tile (18_preemption.md R451 to R456): the header, the strand records, the tile record, the
carry-over records, the accumulators, the side band and the local memory, as they are written to global memory and read back
from it; and the capture of a checkpoint image (R463). -/
namespace Sys2Proof.Machine

/-- The bytes of an image (R451). -/
def imageSize : Nat := 0x54000

/-- A module's memory with bytes written from an address. -/
def State.poke (s : State) (m a : Nat) (l : List Byte) : State :=
  s.setMod m { s.mod m with mem := Memory.writeBytes (s.mod m).mem a l }

/-- The module and the offset of a physical address in the form of R478. -/
def physModule (a : Nat) : Nat := bitsOf a 57 48
def physOffset (a : Nat) : Nat := bitsOf a 47 0

/-- The spill area of the context's virtual tile v (R284, R486). -/
def Ctx.spillAt (c : Ctx) (v : Nat) : Nat := c.spill + 262144 * v

/-- The done-word part of the strands of a tile that have retired (R316, R452). -/
def Tile.doneWord (x : Tile) : BitVec 26 :=
  let l := (x.strands.toList.filter (fun r => r.st == .retired)).map (fun r => (r.doneVal.toNat, r.doneFlg.toNat))
  let old := x.donePart.toNat
  BitVec.ofNat 26 ((l.map Prod.fst).foldl max (old % 2 ^ 16) + (l.map Prod.snd).foldl (· ||| ·) (old / 2 ^ 16) * 2 ^ 16)

/-- The header (R452): kind 0 pre-emption, 1 checkpoint, 2 dump. -/
def State.imageHeader (s : State) (t kind ckpt : Nat) : List Byte :=
  let x := s.tile t
  toBytes 2 1 ++ toBytes 2 kind ++ toBytes 4 x.vtid.toNat ++ toBytes 8 (x.num * 65536 + x.att % 65536) ++
    toBytes 8 (s.tick t).toNat ++ toBytes 8 ckpt ++ toBytes 8 x.doneWord.toNat ++ toBytes 4 (ptidOf t)

/-- A strand record (R453). -/
def Strand.record (r : Strand) : List Byte :=
  (span 1 15).flatMap (fun i => toBytes 8 (r.s.getD i 0).toNat) ++ (r.dt.toList.flatMap (fun d => toBytes 8 d.toNat)) ++
    toBytes 8 r.dla.toNat ++ toBytes 2 r.sen.toNat ++ [if r.restored.getD r.st = .retired then 5 else 1]

/-- The bytes held by an overflow list. -/
def overflowBytes (l : List (List Byte)) : Nat := (l.map List.length).foldl (· + ·) 0

/-- The offset of queue q's overflow list in the spill area of an image: the lists stand one behind the other (log entry 12). -/
def Tile.overflowOffset (x : Tile) (q : Nat) : Nat :=
  ((x.overflow.toList.take q).map overflowBytes).foldl (· + ·) 0

/-- Where in the spill area of its tile an image's overflow lists begin: checkpoint images of slot 0 take the lower end and those of slot 1
the upper one, so that the lists of the standing checkpoint stay; a pre-emption image takes the end that the standing checkpoint leaves
(log entry 12). -/
def State.listBase (s : State) (t : Nat) : Nat :=
  match s.ctxOf t with
  | some c => if (s.ctx c).durSlot = 0 then 262144 - ((s.tile t).overflow.toList.map overflowBytes).foldl (· + ·) 0 else 0
  | none => 0

/-- The tile record (R454), the overflow lists beginning at an offset of the spill area. -/
def Tile.record (x : Tile) (lists : Nat) : List Byte :=
  toBytes 8 x.rega0.toNat ++ toBytes 8 x.rega1.toNat ++ (x.qcfg.toList.flatMap (fun v => toBytes 8 v.toNat)) ++
    (span 0 4).flatMap (fun q =>
      let l := x.overflow.toList.getD q []
      toBytes 4 (if l = [] then 0 else lists + x.overflowOffset q) ++ toBytes 4 (overflowBytes l) ++ toBytes 4 l.length ++ toBytes 4 0)

/-- The instance that holds the COLL of a token of a strand, with its request (R394). -/
def State.collOf (s : State) (t : Nat) (n : BitVec 2) (k : BitVec 4) : Option (Inst × CollReq) :=
  s.insts.findSome? (fun i =>
    if some i.ctx = s.ctxOf t ∧ i.st ≠ .exposed then
      (i.reqs.find? (fun r => r.vt == (s.tile t).vtid.toNat && r.strand == n && r.tok == k)).map (fun r => (i, r))
    else none)

/-- The carry-over record of a token, empty for a token whose operation does not carry over (R455). -/
def State.carryRecord (s : State) (t : Nat) (n : BitVec 2) (k : BitVec 4) : List Byte :=
  let x := s.tile t
  let tok := (x.strand n).tok k
  if tok.st ≠ .pending then []
  else match tok.use with
    | .fetchNext =>
      match x.eng.find? (fun e => e.strand == n && e.tok == k) with
      | some e =>
        [1, n.setWidth 8, k.setWidth 8, if e.tag then 1 else 0] ++ toBytes 4 0 ++ toBytes 8 e.step ++ toBytes 16 0 ++
          toBytes 32 e.desc.toNat
      | none => []
    | .coll =>
      match s.collOf t n k with
      | some (i, r) =>
        [2, n.setWidth 8, k.setWidth 8, 0] ++ toBytes 4 0 ++ toBytes 8 i.num ++ toBytes 8 i.due ++ toBytes 4 i.idx ++ toBytes 4 0 ++
          toBytes 32 r.desc.toNat ++ toBytes 128 r.pblk.toNat ++ (r.dts.flatMap (fun d => toBytes 8 d.toNat)) ++ toBytes 8 r.dla.toNat
      | none => []
    | _ => []

/-- The class code of an element (R407). -/
def classCode : AccClass → Byte
  | .fin => 0
  | .pinf => 1
  | .ninf => 2
  | .nan => 3

/-- An element in the buffer form (R407). -/
def elemBuffer (anc : BitVec 16) (e : AccElem) : List Byte :=
  toBytes 11 e.sum.toNat ++ [classCode e.cls] ++ toBytes 2 anc.toNat ++ [if e.x then 1 else 0, 0]

/-- An element from its buffer form (R407). -/
def elemOfBuffer (l : List Byte) : AccElem :=
  { sum := BitVec.ofNat 88 (ofBytes (l.take 11)), x := l.getD 14 0 == (1 : Byte), cls := rawClass (l.getD 11 (0 : Byte)).toNat }

/-- An accumulator in the buffer form (R407). -/
def Acc.buffer (a : Acc) : List Byte :=
  a.all.flatMap (elemBuffer a.anc)

/-- The bytes of local lines that an image holds: the pre-image of a line that has one (R463), else the line. -/
def Tile.imageLocal (x : Tile) (all : Bool) : Memory :=
  let kept := x.mem.filter (fun c => all || x.attr c.1 != 1)
  let open_ := x.undef.foldl (fun m u => (span u.lo u.len).foldl (fun m a =>
    if all || x.attr a != 1 then Memory.write m a (x.byte a) else m) m) kept
  if all then open_ else x.pre.foldl (fun m e => if x.attr (64 * e.1) = 1 then m else Memory.writeBytes m (64 * e.1) (toBytes 64 e.2.bytes.toNat)) open_

/-- The side band of the saved lines. -/
def Tile.imageBand (x : Tile) (all : Bool) : Memory :=
  let now := x.band.foldl (fun m e => if all || x.attr (64 * e.1) != 1 then Memory.setNum m (4 * e.1) 4 e.2.toNat else m) []
  if all then now else x.pre.foldl (fun m e => if x.attr (64 * e.1) = 1 then m else Memory.setNum m (4 * e.1) 4 e.2.band.toNat) now

/-- The storage that an image of a tile is read from: lines, side bands and accumulators, in a dump those of SCRATCH regions too. -/
def Tile.inImage (x : Tile) (all : Bool) (e : ErrAt) : Bool :=
  match e with
  | .line k => all || x.attr (64 * k) != 1
  | .side k => all || x.attr (64 * k) != 1
  | .acc _ => true
  | _ => false

/-- The reads that an image takes correct the soft errors that they find, and count them (R429). -/
def State.imageReads (s : State) (t : Nat) (all : Bool) : State :=
  (((s.tile t).errs.map (fun e => e.loc)).filter ((s.tile t).inImage all)).foldl (fun (u : State) e => u.correctAt t e) s

/-- The image of a tile in memory at base of module m, all regions included in a dump (R451, R522). -/
def State.writeImage (s : State) (t kind ckpt m base : Nat) : State :=
  let x := s.tile t
  let all := kind = 2
  let mem := (s.mod m).mem
  let mem := Memory.blit mem base 0x14000 []
  let mem := Memory.writeBytes mem base (s.imageHeader t kind ckpt)
  let mem := strandIx.foldl (fun mem n => Memory.writeBytes mem (base + 0x100 + 256 * n.toNat) (x.strand n).record) mem
  let mem := Memory.writeBytes mem (base + 0x500) (x.record (s.listBase t))
  let mem := strandIx.foldl (fun mem n => (span 0 16).foldl (fun mem k =>
    Memory.writeBytes mem (base + 0x1000 + 256 * (16 * n.toNat + k)) (s.carryRecord t n (BitVec.ofNat 4 k))) mem) mem
  let acc := fun (a : Nat) => if all then x.accAt (BitVec.ofNat 3 a) else SMap.get (x.accAt (BitVec.ofNat 3 a)) x.accPre a
  let mem := (span 0 8).foldl (fun mem a => Memory.writeBytes mem (base + 0x8000 + 4096 * a) (acc a).buffer) mem
  let mem := Memory.blit mem (base + 0x10000) 0x4000 (x.imageBand all)
  let loc := x.imageLocal all
  let mem :=
    if all then Memory.blit mem (base + 0x14000) 0x40000 loc
    else (span 0 64).foldl (fun mem r =>
      if x.attr (4096 * r) = 1 then mem else Memory.blit mem (base + 0x14000 + 4096 * r) 4096 (Memory.slice loc (4096 * r) 4096)) mem
  s.setMod m { s.mod m with mem := mem }

/-- The overflow lists of a tile stand in its spill area (R298, R454). -/
def State.writeOverflow (s : State) (t : Nat) : State :=
  match s.ctxOf t with
  | none => s
  | some c =>
    let x := s.tile t
    let a := (s.ctx c).spillAt x.vtid.toNat
    s.poke (physModule a) (physOffset a + s.listBase t) (x.overflow.toList.flatMap (fun l => l.flatMap id))

/-! ### Reading an image back -/

/-- The records of an overflow list whose bytes are given, at most f of them. -/
def splitRecords : Nat → List Byte → List (List Byte)
  | 0, _ => []
  | f + 1, l =>
    match l with
    | a :: b :: _ =>
      let z := 16 + pad16 (a.toNat + 256 * b.toNat)
      l.take z :: splitRecords f (l.drop z)
    | _ => []

/-- An accumulator from its buffer form (R407). -/
def accOfBuffer (l : List Byte) : Acc :=
  let es := chunksOf 16 256 l
  accOf (BitVec.ofNat 16 (ofBytes (((es.headD []).drop 12).take 2))) (es.map elemOfBuffer)

/-- A strand from its record: the carried state of R280, every other register at its START value. It stays in the state it is in; what the
record names it enters at START.resume (R34, R457). -/
def strandOfRecord (r : Strand) (l : List Byte) : Strand :=
  let w := fun (i : Nat) => ofBytes ((l.drop (8 * i)).take 8)
  let sen := BitVec.ofNat 16 (ofBytes ((l.drop 184).take 2))
  { ({ } : Strand) with
    s := Vector.ofFn (fun i => if 1 ≤ i.val ∧ i.val ≤ 15 then BitVec.ofNat 64 (w (i.val - 1)) else 0)
    dt := Vector.ofFn (fun i => BitVec.ofNat 32 (w (15 + i.val)))
    dla := BitVec.ofNat 48 (w 22), sen := sen &&& 0xFFFC, pc := sen &&& 0xFFFC, schcBase := r.schcBase, schcLen := r.schcLen, cur := 1,
    raised := r.raised, st := r.st, before := r.before, restored := some (if (l.getD 186 0) = 5 then .retired else .run) }

/-- A tile with the contents of an image (R457 step 2): memory, side band, accumulators, registers and ring state; reserved bits of QCFG read
zero (R10, R294). The bytes
of SCRATCH regions are free values from base on (R456), and what an image does not write keeps its errors. An image has no
field for the apply flags of the last commit: they are gone (aflags 0, log entry 56). -/
def Tile.ofImage (x : Tile) (mem : Memory) (base free : Nat) : Tile :=
  let at_ := fun (o n : Nat) => Memory.bytes mem (base + o) n
  let num := fun (o n : Nat) => Memory.num mem (base + o) n
  let q := Vector.ofFn (n := 4) (fun i =>
    let v := BitVec.ofNat 64 (num (0x510 + 8 * i.val) 8)
    qPack (qHead v) (qTail v) (qEn v) (qLog v) (qBase v))
  let ring := fun (i : Fin 4) => BitVec.ofNat 16 (bitsOf (num (0x510 + 8 * i.val) 8) 63 48)
  let y : Tile :=
    { ({ } : Tile) with
      strands := Vector.ofFn (fun i => strandOfRecord (x.strands[i.val]) (at_ (0x100 + 256 * i.val) 256))
      mem := Memory.slice mem (base + 0x14000) 0x40000
      band := (span 0 4096).filterMap (fun k => let b := num (0x10000 + 4 * k) 4; if b = 0 then none else some (k, BitVec.ofNat 32 b))
      acc := Vector.ofFn (fun i => accOfBuffer (at_ (0x8000 + 4096 * i.val) 4096))
      rega0 := BitVec.ofNat 64 (num 0x500 8), rega1 := BitVec.ofNat 64 (num 0x508 8)
      qcfg := q, chead := Vector.ofFn ring
      num := num 10 6, att := num 8 2, donePart := BitVec.ofNat 26 (num 32 8)
      grpm := x.grpm, vtid := x.vtid, ewin := x.ewin, ethr := x.ethr, ecnt := x.ecnt, winAt := x.winAt, latacc := x.latacc, dbg := x.dbg }
  let y := (span 0 64).foldl (fun (y : Tile) r =>
    if y.attr (4096 * r) = 1 then y.forget (4096 * r) 4096 (free + 4096 * r) else y) y
  let stays : ErrMark → Bool := fun e => match e.loc with
    | .line k => y.attr (64 * k) == 1
    | .side k => y.attr (64 * k) == 1
    | .lane _ _ => true
    | _ => false
  { y with errs := x.errs.filter stays, snapRega0 := y.rega0, snapRega1 := y.rega1,
           snap := y.strands.map (fun r => ({ s := (r.s.toList.drop 1).take 15, dt := r.dt, dla := r.dla } : SnapStrand)) }

end Sys2Proof.Machine
end

