-- ==== Sys2Proof/Machine/Collective.lean ====
section
/-! DEFINITION. Collectives between the tiles and Axlos: the operators of reductions (11_supersteps.md R287), COLL
(16_collectives.md R389 to R393), the arrival of a request, the forming, triggering and exposing of instances (R394 to R397),
and push deltas (R412 to R414). -/
namespace Sys2Proof.Machine

/-! ### Reductions -/

/-- x ⊕ y for the operator numbered as R291 numbers it, with the flags that count as apply flags (R287). -/
def reduceElem (op : BitVec 4) (x y : Nat) : Nat × Flags :=
  let sx := fun (w n : Nat) => intVal true w n
  match op.toNat with
  | 0 => ((x + y) % 2 ^ 32, 0)
  | 1 => ((x + y) % 2 ^ 64, 0)
  | 2 => (if sx 32 y < sx 32 x then y else x, 0)
  | 3 => (if sx 64 y < sx 64 x then y else x, 0)
  | 4 => (if sx 32 x < sx 32 y then y else x, 0)
  | 5 => (if sx 64 x < sx 64 y then y else x, 0)
  | 6 => (min x y, 0)
  | 7 => (min x y, 0)
  | 8 => (max x y, 0)
  | 9 => (max x y, 0)
  | 10 => (x ||| y, 0)
  | 11 => (x &&& y, 0)
  | 12 => (x ^^^ y, 0)
  | 13 =>
    let r := extAdd (decodeTy tF32 x) (decodeTy tF32 y) 0
    let e := encodeTy tF32 r.1 0 false
    (e.1, r.2 ||| e.2)
  | 14 =>
    let r := extMinMax false (decodeTy tF32 x) (decodeTy tF32 y)
    ((encodeTy tF32 r.1 0 false).1, r.2)
  | _ =>
    let r := extMinMax true (decodeTy tF32 x) (decodeTy tF32 y)
    ((encodeTy tF32 r.1 0 false).1, r.2)

/-- The elements a reduction carries: their byte offsets and values. -/
def redElems (op : BitVec 4) (mask : BitVec 64) (data : BitVec 512) : List (Nat × Nat) :=
  let w := redSize op
  ((span 0 (64 / w)).filter (fun k => mask.getLsbD (w * k))).map (fun k => (w * k, data.toNat / 2 ^ (8 * w * k) % 2 ^ (8 * w)))

/-- The bytes a store carries: their offsets and values. -/
def storeElems (mask : BitVec 64) (data : BitVec 512) : List (Nat × Byte) :=
  ((span 0 64).filter (fun k => mask.getLsbD k)).map (fun k => (k, BitVec.ofNat 8 (data.toNat / 2 ^ (8 * k))))

/-! ### COLL -/

def cdDue (d : Desc) : Nat := bitsOf d.toNat 127 112
def cdGroup (d : Desc) : Nat := bitsOf d.toNat 103 96
def cdHandle (d : Desc) : Nat := bitsOf d.toNat 89 80
def cdNland (d : Desc) : Nat := bitsOf d.toNat 74 72
def cdNcon (d : Desc) : Nat := bitsOf d.toNat 70 68
def cdNarg (d : Desc) : Nat := bitsOf d.toNat 67 64
def cdPblk (d : Desc) : Nat := bitsOf d.toNat 17 0
/-- The bits of a COLL descriptor that R390 names. -/
def cdNamed : Nat :=
  (2 ^ 18 - 1) + 15 * 2 ^ 64 + 7 * 2 ^ 68 + 7 * 2 ^ 72 + 1023 * 2 ^ 80 + 255 * 2 ^ 96 + 65535 * 2 ^ 112

/-- Word i of a parameter block (R391): arguments 0 to 7, contribution ranges 8 to 11, landing ranges 12 to 15. -/
def pbWord (p : BitVec 1024) (i : Nat) : Nat := p.toNat / 2 ^ (64 * i) % 2 ^ 64

/-- A range entry: its address and length (R391). -/
def rangeOf (w : Nat) : Nat × Nat := (bitsOf w 17 0, bitsOf w 42 24)

/-- The used contribution ranges and landing ranges of a request. -/
def conRanges (d : Desc) (p : BitVec 1024) : List Nat := (span 8 (cdNcon d)).map (pbWord p)
def landRanges (d : Desc) (p : BitVec 1024) : List Nat := (span 12 (cdNland d)).map (pbWord p)

/-- A range entry is ill-formed (R392 check 4). -/
def badRange (w : Nat) : Bool :=
  let r := rangeOf w
  decide (w / 2 ^ 43 ≠ 0 ∨ bitsOf w 23 18 ≠ 0 ∨ r.1 % 64 ≠ 0 ∨ r.2 % 64 ≠ 0 ∨ r.2 = 0 ∨ 0x40000 < r.1 + r.2)

/-- Two spans share a byte. -/
def overlaps (a b : Nat × Nat) : Bool := decide (a.1 < b.1 + b.2) && decide (b.1 < a.1 + a.2)

/-- A landing range overlaps another range of the request (R392 check 5). -/
def landClash (con land : List (Nat × Nat)) : Bool :=
  land.any (fun l => con.any (overlaps l)) ||
    (span 0 land.length).any (fun i => (span 0 land.length).any (fun j =>
      decide (i < j) && overlaps (land.getD i (0, 0)) (land.getD j (0, 0))))

/-- The attributes of a span's lines satisfy a condition. -/
def Tile.spanAttr (x : Tile) (r : Nat × Nat) (f : Nat → Bool) : Bool := (linesOf r.1 r.2).all (fun k => f (x.attr (64 * k)))

/-- A valid group of the tile (R293). -/
def Tile.inGroup (x : Tile) (g : Nat) : Bool :=
  (span 0 4).any (fun i => bitAt x.grpm.toNat (32 + i) && bitsOf x.grpm.toNat (8 * i + 7) (8 * i) == g)

/-- COLL (R392, R393): every local store that a strand of the tile issued before is performed before the parameter block is read (R374). -/
def execColl (a : BitVec 3) (k : BitVec 4) (s : State) : Host.Outcome State Fault Refusal :=
  s.finishSeq (.coll a k) (do
    let s := s.settle
    let d := s.getD a
    let tv := a.setWidth 64
    let x := s.here
    let p : BitVec 1024 := BitVec.ofNat 1024 (x.lm (cdPblk d) 128)
    let con := (conRanges d p).map rangeOf
    let land := (landRanges d p).map rangeOf
    s.notMgmt
    if (s.getTok k).st = .pending then raise cTOKEN 0 (k.setWidth 64)
    else if d.toNat &&& cdNamed ≠ d.toNat ∨ 8 < cdNarg d ∨ 4 < cdNcon d ∨ 4 < cdNland d ∨ cdDue d < 2 ∨ cdPblk d % 64 ≠ 0 ∨
      0x40000 ≤ cdPblk d + 127 then raise cDESC 16 tv
    else if !x.inGroup (cdGroup d) then raise cDESC 17 tv
    else if (conRanges d p ++ landRanges d p).any badRange then raise cDESC 18 tv
    else if con.any (fun r => !x.spanAttr r (fun t => t == 0 || t == 2)) || land.any (fun r => !x.spanAttr r (fun t => t == 2)) ||
      landClash con land then raise cDESC 19 tv
    else if 16 < x.locks.length + con.length + land.length then .error (.stall 4 0)
    else match lowest (x.clashes (cdPblk d) 128 .load ++ con.flatMap (fun r => x.clashes r.1 r.2 .load) ++
        land.flatMap (fun r => x.clashes r.1 r.2 .store)) with
    | some clash => raise cLOCK 0 (BitVec.ofNat 64 clash)
    | none =>
      s.oakRoom [.ctx]
      let t ← s.readLines (BitVec.ofNat 64 (cdPblk d)) (linesOf (cdPblk d) 128)
      let lock := fun (kind : LockKind) (r : Nat × Nat) =>
        ({ lo := r.1, len := r.2, kind := kind, use := .coll, strand := s.curStrand, tok := k } : Lock)
      let y := t.here
      let t := t.setHere { y with locks := y.locks ++ con.map (lock .read) ++ land.map (lock .write) }
      let t := t.setTok k (takenToken .coll x.num)
      .ok (t.sendAll [{ lane := 0, dest := .axlos (modOf s.curTile) (BitVec.ofNat 8 (cdGroup d)), cls := .ctx,
                        acct := axlosAcct s.curTile, wide := false,
                        body := .request d p (s.me.dt.toList) s.me.dla k }]))

/-! ### Requests at Axlos -/

/-- The program-table entry of a handle (R388). -/
def Module.entry (m : Module) (h : Nat) : PtabEntry := SMap.get {} m.ptab h

/-- The handle is valid for the context (R388). -/
def Module.handleOk (m : Module) (h c : Nat) : Bool :=
  let e := m.entry h
  let owner := bitsOf e.w1.toNat 39 32
  bitAt e.w0.toNat 63 && (owner == c || owner == 255)

/-- COLL_REQUEST_ARRIVAL (R393): the request at place State.ev.i of the messages is placed in Axlos, dropped or refused. -/
def execCollRequestArrival (s : State) : Host.Outcome State Fault Refusal :=
  match s.net[s.ev.i]? with
  | some (.delta d) =>
    match d.dest, d.body with
    | .axlos m _, .request desc p dts dla tok =>
      let u : State := { s with net := listDel s.net s.ev.i }
      let c := u.ctx d.ctx
      if !d.current c.num c.att then .next (u.send (.ack d))
      else if !(u.mod m).handleOk (cdHandle desc) d.ctx then .next (u.send (.refusal d))
      else
        let r : CollReq := { vt := d.srcVt, tile := d.srcTile, strand := d.strand, tok := tok, seq := d.seq, desc := desc, pblk := p,
                             dts := dts, dla := dla }
        .next ((u.setCtx d.ctx { c with reqs := c.reqs ++ [(d.num, r)] }).send (.ack d))
    | _, _ => .next s
  | _ => .next s

/-! ### Instances -/

/-- The modules that hold members, rising (R396). -/
def ranksOf (c : Ctx) (members : List Nat) : List Nat :=
  sortBy (fun a b => decide (a ≤ b)) ((members.filterMap (fun v => (c.tileOf v).map modOf)).eraseDups)

/-- The members of a group in ascending order of rank, then of virtual tile (R396). -/
def membersOf (c : Ctx) (g : Nat) : List Nat :=
  sortBy (fun a b =>
    let ma := ((c.tileOf a).map modOf).getD 0
    let mb := ((c.tileOf b).map modOf).getD 0
    decide (ma < mb ∨ (ma = mb ∧ a ≤ b))) (SMap.get [] c.groups g)

/-- The requests of a virtual tile on a group in superstep n, in the order of their issue (R394). -/
def Ctx.requestsOf (c : Ctx) (n g v : Nat) : List CollReq :=
  sortBy (fun a b => decide (a.seq ≤ b.seq))
    ((c.reqs.filter (fun e => e.1 == n && e.2.vt == v && cdGroup e.2.desc == g)).map Prod.snd)

/-- Two requests agree as R394 asks. -/
def agrees (a b : CollReq) : Bool :=
  cdHandle a.desc == cdHandle b.desc && cdDue a.desc == cdDue b.desc && cdNarg a.desc == cdNarg b.desc &&
    cdNcon a.desc == cdNcon b.desc && cdNland a.desc == cdNland b.desc &&
    (span 0 (cdNarg a.desc)).all (fun i => pbWord a.pblk i == pbWord b.pblk i) &&
    (conRanges a.desc a.pblk).map (fun w => (rangeOf w).2) == (conRanges b.desc b.pblk).map (fun w => (rangeOf w).2) &&
    (landRanges a.desc a.pblk).map (fun w => (rangeOf w).2) == (landRanges b.desc b.pblk).map (fun w => (rangeOf w).2)

/-- The i-th requests of the members of a group (R394): all of them when the instance is valid, else the offender. -/
def Ctx.instanceAt (c : Ctx) (n g i : Nat) : Except Nat (List CollReq) :=
  let ms := membersOf c g
  let get := fun v => (c.requestsOf n g v)[i]?
  match ms with
  | [] => .ok []
  | m0 :: _ =>
    match get m0 with
    | none => .error m0
    | some r0 =>
      let bad := ms.filter (fun v => match get v with | some r => !agrees r r0 | none => true)
      match lowest bad with
      | some v => .error v
      | none => .ok (ms.filterMap get)

/-- The groups on which superstep n has requests, and how many instances each has. -/
def Ctx.instanceCount (c : Ctx) (n : Nat) : List (Nat × Nat) :=
  (((c.reqs.filter (fun e => e.1 == n)).map (fun e => cdGroup e.2.desc)).eraseDups).map (fun g =>
    (g, ((membersOf c g).map (fun v => (c.requestsOf n g v).length)).foldl max 0))

/-- Every instance of superstep n: group, index, and its requests or the offender. -/
def Ctx.instancesOf (c : Ctx) (n : Nat) : List (Nat × Nat × Except Nat (List CollReq)) :=
  (c.instanceCount n).flatMap (fun e => (span 0 e.2).map (fun i => (e.1, i, c.instanceAt n e.1 i)))

/-- The lowest offender of an invalid instance of superstep n (R394). -/
def Ctx.instanceFault (c : Ctx) (n : Nat) : Option Nat :=
  lowest ((c.instancesOf n).filterMap (fun e => match e.2.2 with | .error v => some v | .ok _ => none))

/-- The event of a faulted instance (R411, R536). -/
def State.collFault (s : State) (i : Inst) (rank m pc code abortc : Nat) : State :=
  s.emit m { ctx := BitVec.ofNat 32 i.ctx, ext := BitVec.ofNat 64 (i.num % 2 ^ 48 + code * 2 ^ 48), code := 0x000C, strand := 0,
             unit := BitVec.ofNat 32 (i.handle + i.group * 2 ^ 10 + rank * 2 ^ 18),
             value := BitVec.ofNat 64 (pc % 2 ^ 17 + i.idx % 2 ^ 15 * 2 ^ 17 + abortc * 2 ^ 32 + m % 2 ^ 10 * 2 ^ 48) }

/-- The threads of an instance stop (R411, R467). -/
def State.stopThreads (s : State) (id : Nat) : State :=
  { s with mods := s.mods.map (fun e => (e.1, { e.2 with threads := e.2.threads.map (fun t =>
      (t.1, if t.2.inst = id then { t.2 with st := .stopped, wait := none } else t.2)) })) }

/-- The instance stops and faults (R411). -/
def State.faultInst (s : State) (i : Inst) : State :=
  { s.stopThreads i.id with insts := s.insts.map (fun j => if j.id = i.id then { j with st := .faulted } else j) }

/-- An instance that begins checks its ranks (R396): one whose program table no longer holds the handle faults it with HANDLE, and the
demand of R411 decides the superstep that opens next (R538). -/
def State.checkRanks (s : State) (c : Nat) (i : Inst) (members : List Nat) : State :=
  match (span 0 i.ranks.length).find? (fun k => !(s.mod (i.ranks.getD k 0)).handleOk i.handle c) with
  | none => s
  | some k =>
    let u := (s.faultInst i).collFault i k (i.ranks.getD k 0) 0 0x11 0
    u.setCtx c { u.ctx c with demand := some (.fatal cREMOTE (members.headD 0)) }

/-- An instance begins at the commit of n (R395, R396). -/
def State.trigger (s : State) (c n g i : Nat) (reqs : List CollReq) : State :=
  match reqs with
  | [] => s
  | r0 :: _ =>
    let x := s.ctx c
    let members := membersOf x g
    let ranks := ranksOf x members
    let new : Inst :=
      { id := (s.insts.map (fun j => j.id + 1)).foldl max 0, ctx := c, group := g, num := n, idx := i, handle := cdHandle r0.desc,
        due := n + cdDue r0.desc, reqs := reqs, ranks := ranks, toStart := ranks, clock := 0, st := .running }
    ({ s with insts := s.insts ++ [new] } : State).checkRanks c new members

/-- The commit of superstep n triggers its instances and forgets their requests (R395). -/
def State.triggerAll (s : State) (c n : Nat) : State :=
  let l := (s.ctx c).instancesOf n
  let s := l.foldl (fun u e => match e.2.2 with | .ok reqs => u.trigger c n e.1 e.2.1 reqs | .error _ => u) s
  s.setCtx c { s.ctx c with reqs := (s.ctx c).reqs.filter (fun e => e.1 != n) }

/-- Every thread of the instance has halted (R397). -/
def State.instDone (s : State) (i : Inst) : Bool :=
  i.toStart.isEmpty && i.st == .running &&
    s.mods.all (fun e => e.2.threads.all (fun t => t.2.inst != i.id || t.2.st == .halted))

/-- Every instance of the context due at superstep d is complete (R397). -/
def State.dueComplete (s : State) (c d : Nat) : Bool :=
  s.insts.all (fun i => i.ctx != c || i.due != d || i.st == .exposed || s.instDone i)

/-- The instances due at d are exposed: their threads release their windows (R397, R410). -/
def State.expose (s : State) (c d : Nat) : State :=
  let ids := (s.insts.filter (fun i => i.ctx == c && i.due == d)).map (fun i => i.id)
  { s with
    insts := s.insts.map (fun i => if ids.contains i.id then { i with st := .exposed } else i)
    mods := s.mods.map (fun e => (e.1, { e.2 with threads := e.2.threads.filter (fun t => !ids.contains t.2.inst) })) }

/-- A COLL of the tile's strand n with token k ends: its locks are released and the token is as given. -/
def Tile.endColl (x : Tile) (n : BitVec 2) (k : BitVec 4) (tok : Token) : Tile :=
  let y := x.unlock n k [.coll]
  y.setStrand n ((y.strand n).setTok k tok)

/-- The requests of the tile's virtual tile that are exposed at d (R397). -/
def State.exposedAt (s : State) (c d vt : Nat) : List CollReq :=
  (s.insts.filter (fun i => i.ctx == c && i.due == d)).flatMap (fun i => i.reqs.filter (fun r => r.vt == vt))

/-! ### Push deltas -/

/-- The operator and type of a push slot agree with the delta's operator (R413). -/
def pushAgrees (op : BitVec 3) (ty : BitVec 4) (r : BitVec 4) : Bool :=
  let o := op.toNat
  let t := ty.toNat
  match r.toNat with
  | 0 => o == 0 && (t == 0 || t == 2)
  | 1 => o == 0 && (t == 1 || t == 3)
  | 2 => o == 1 && t == 0
  | 3 => o == 1 && t == 1
  | 4 => o == 2 && t == 0
  | 5 => o == 2 && t == 1
  | 6 => o == 1 && t == 2
  | 7 => o == 1 && t == 3
  | 8 => o == 2 && t == 2
  | 9 => o == 2 && t == 3
  | 10 => o == 3 && (t == 1 || t == 3)
  | 11 => o == 4 && (t == 1 || t == 3)
  | 12 => o == 5 && (t == 1 || t == 3)
  | 13 => o == 0 && t == 4
  | 14 => o == 1 && t == 4
  | _ => o == 2 && t == 4

/-- The group offsets a push delta's elements touch: the first byte and the byte after the last. -/
def pushExtent (addr : Nat) (op : BitVec 4) (mask : BitVec 64) : Nat × Nat :=
  let es := (redElems op mask 0).map (fun e => addr + e.1)
  ((lowest es).getD addr, es.foldl (fun m a => max m (a + redSize op)) addr)

/-- The slot covers every byte of the delta. -/
def PushSlot.covers (p : PushSlot) (e : Nat × Nat) : Bool := decide (p.lo ≤ e.1) && decide (e.2 ≤ p.lo + p.len)

/-- The armed slots of the context's instances on a group: module, thread, slot number and slot. -/
def State.slotsOf (s : State) (c g : Nat) : List (Nat × Nat × Nat × PushSlot) :=
  let ids := (s.insts.filter (fun i => i.ctx == c && i.group == g && i.st == .running)).map (fun i => i.id)
  s.mods.flatMap (fun e => e.2.threads.flatMap (fun t =>
    if ids.contains t.2.inst then
      (span 0 8).filterMap (fun k => match t.2.slots.getD k none with | some p => some (e.1, t.1, k, p) | none => none)
    else []))

/-- A push delta that a slot matches is counted there and acknowledged, or refused past the expected count (R413). -/
def State.placePush (s : State) (d : Delta) (m th k : Nat) (p : PushSlot) : State :=
  if p.expect ≤ p.placed then s.send (.refusal d)
  else
    let md := s.mod m
    match SMap.find md.threads th with
    | none => s
    | some t =>
      let t := { t with slots := setAt t.slots k (some { p with placed := p.placed + 1 }) }
      let c := s.ctx d.ctx
      (((s.setMod m { md with threads := SMap.set md.threads th t }).setCtx d.ctx
        { c with pushes := c.pushes ++ [(d, some (m, th, k))] }).send (.ack d))

/-- What becomes of a push delta at Axlos (R413). -/
def State.arrivePush (s : State) (d : Delta) (g addr : Nat) (op : BitVec 4) (mask : BitVec 64) : State :=
  let e := pushExtent addr op mask
  let cover := (s.slotsOf d.ctx g).filter (fun q => q.2.2.2.covers e)
  match cover.find? (fun q => pushAgrees q.2.2.2.op q.2.2.2.ty op) with
  | some (m, th, k, p) => s.placePush d m th k p
  | none =>
    let alive := s.insts.any (fun i => i.ctx == d.ctx && i.group == g && i.st == .running && !s.instDone i)
    if !cover.isEmpty || !alive then s.send (.refusal d)
    else
      let c := s.ctx d.ctx
      s.setCtx d.ctx { c with pushes := c.pushes ++ [(d, none)] }

/-- PUSH_DELTA_ARRIVAL (R413): the push delta at place State.ev.i of the messages reaches the rank that holds the slot. -/
def execPushDeltaArrival (s : State) : Host.Outcome State Fault Refusal :=
  match s.net[s.ev.i]? with
  | some (.delta d) =>
    match d.dest, d.body with
    | .axlos _ g, .reduce addr op mask _ =>
      let u : State := { s with net := listDel s.net s.ev.i }
      let c := u.ctx d.ctx
      if !d.current c.num c.att then .next (u.send (.ack d)) else .next (u.arrivePush d g.toNat addr op mask)
    | _, _ => .next s
  | _ => .next s

/-- The push deltas that wait unplaced are looked at again after a change of the slots or the instances (R413). -/
def State.retryPushes (s : State) (c : Nat) : State :=
  let waiting := (s.ctx c).pushes.filter (fun e => e.2.isNone)
  let s := s.setCtx c { s.ctx c with pushes := (s.ctx c).pushes.filter (fun e => e.2.isSome) }
  waiting.foldl (fun u e =>
    match e.1.dest, e.1.body with
    | .axlos _ g, .reduce addr op mask _ => u.arrivePush e.1 g.toNat addr op mask
    | _, _ => u) s

/-- The order in which deltas of one commit apply (R286): source virtual tile, issue sequence, lane. -/
def Delta.before (a b : Delta) : Bool :=
  decide (a.srcVt < b.srcVt ∨ (a.srcVt = b.srcVt ∧ (a.seq < b.seq ∨ (a.seq = b.seq ∧ a.lane ≤ b.lane))))

/-- One placed push delta applies to its slot's bytes (R414). -/
def State.applyPush (s : State) (d : Delta) (m th k : Nat) : State :=
  let md := s.mod m
  match SMap.find md.threads th, d.body with
  | some t, .reduce addr op mask data =>
    match t.slots.getD k none with
    | some p =>
      let w := redSize op
      let win := (redElems op mask data).foldl (fun (win : Memory) e =>
        let a := p.off + (addr + e.1 - p.lo)
        Memory.setNum win a w (reduceElem op (Memory.num win a w) e.2).1) t.win
      let t := { t with win := win, slots := setAt t.slots k (some { p with applied := p.applied + 1 }) }
      s.setMod m { md with threads := SMap.set md.threads th t }
    | none => s
  | _, _ => s

/-- The placed push deltas of superstep n apply at its commit, in the order of R286 (R414). -/
def State.applyPushes (s : State) (c n : Nat) : State :=
  let due := sortBy (fun (a b : Delta × Option (Nat × Nat × Nat)) => a.1.before b.1)
    ((s.ctx c).pushes.filter (fun e => e.1.num == n && e.2.isSome))
  let s := s.setCtx c { s.ctx c with pushes := (s.ctx c).pushes.filter (fun e => !(e.1.num == n && e.2.isSome)) }
  due.foldl (fun u e => match e.2 with | some (m, th, k) => u.applyPush e.1 m th k | none => u) s

/-- An abort of superstep n discards its push deltas and its requests (R395, R414); a slot counts its placements anew. -/
def State.dropPushes (s : State) (c n : Nat) : State :=
  let gone := (s.ctx c).pushes.filter (fun e => e.1.num == n)
  let s := s.setCtx c { s.ctx c with
    pushes := (s.ctx c).pushes.filter (fun e => e.1.num != n), reqs := (s.ctx c).reqs.filter (fun e => e.1 != n) }
  gone.foldl (fun u e =>
    match e.2 with
    | some (m, th, k) =>
      let md := u.mod m
      match SMap.find md.threads th with
      | some t =>
        (match t.slots.getD k none with
        | some p =>
          u.setMod m { md with threads := SMap.set md.threads th { t with slots := setAt t.slots k (some { p with placed := p.placed - 1 }) } }
        | none => u)
      | none => u
    | none => u) s

end Sys2Proof.Machine
end

