-- ==== Sys2Proof/Machine/EngineOps.lean ====
section
/-! DEFINITION. What the staging engine's operations share with the barrier: the entries of a list (15_staging_engines.md R369
to R371), the writing of a local line (R376), the end of an operation (R379, R380), cancellation (R383, R384), and errors found
outside any instruction (17_faults.md R433). -/
namespace Sys2Proof.Machine

/-! ### Descriptors and entries -/

def fdList (d : Desc) : Nat := bitsOf d.toNat 17 0
def fdNent (d : Desc) : Nat := bitsOf d.toNat 26 18
def fdSlo (d : Desc) : Nat := bitsOf d.toNat 49 32
def fdSpan (d : Desc) : Nat := bitsOf d.toNat 76 64
/-- The bits of a FETCHL or WBL descriptor that R369 names. -/
def fdNamed : Nat := (2 ^ 18 - 1) + 511 * 2 ^ 18 + (2 ^ 18 - 1) * 2 ^ 32 + 8191 * 2 ^ 64

def cpSrc (d : Desc) : Nat := bitsOf d.toNat 47 0
def cpDst (d : Desc) : Nat := bitsOf d.toNat 81 64
def cpLen (d : Desc) : Nat := bitsOf d.toNat 108 96
/-- The bits of a COPY descriptor that R371 names. -/
def cpNamed : Nat := (2 ^ 48 - 1) + (2 ^ 18 - 1) * 2 ^ 64 + 8191 * 2 ^ 96

def enGva (e : BitVec 128) : Nat := bitsOf e.toNat 47 0
def enLoc (e : BitVec 128) : Nat := bitsOf e.toNat 81 64
def enLines (e : BitVec 128) : Nat := bitsOf e.toNat 95 88 + 1
def enRows (e : BitVec 128) : Nat := bitsOf e.toNat 103 96 + 1
def enGstr (e : BitVec 128) : Nat := bitsOf e.toNat 127 104
/-- The bits of a list entry that R370 names. -/
def enNamed : Nat := (2 ^ 48 - 1) + (2 ^ 18 - 1) * 2 ^ 64 + 255 * 2 ^ 88 + 255 * 2 ^ 96 + (2 ^ 24 - 1) * 2 ^ 104

/-- The lines of an entry. -/
def enCount (e : BitVec 128) : Nat := enRows e * enLines e
/-- The global address paired with line q of an entry (R370). -/
def enGlobal (e : BitVec 128) (q : Nat) : Nat := enGva e + 64 * (q / enLines e * enGstr e + q % enLines e)
/-- The local address of line q of an entry. -/
def enLocal (e : BitVec 128) (q : Nat) : Nat := enLoc e + 64 * q

/-- The entry is one that Fault 15 of R375 names: span the operation's span. -/
def enBad (e : BitVec 128) (lo lines : Nat) : Bool :=
  decide (e.toNat &&& enNamed ≠ e.toNat ∨ 2 ^ 47 ≤ enGva e ∨ enGva e % 64 ≠ 0 ∨ enLoc e % 64 ≠ 0 ∨ enLoc e < lo ∨
    lo + 64 * lines < enLoc e + 64 * enCount e)

/-- The entries of the operation's list as local memory holds them. -/
def Tile.listOf (x : Tile) (d : Desc) : List (BitVec 128) :=
  (span 0 (fdNent d)).map (fun j => BitVec.ofNat 128 (x.lm (fdList d + 16 * j) 16))

/-- The entries of an operation's list: those it has read, and the others as local memory holds them. -/
def Tile.entriesOf (x : Tile) (e : EngOp) : List (BitVec 128) := e.ents ++ (x.listOf e.desc).drop e.ents.length

/-- The local lines that an operation writes or may write. -/
def Tile.destLines (x : Tile) (e : EngOp) : List Nat :=
  match e.kind with
  | .wbl => []
  | .copy => span (cpDst e.desc / 64) (cpLen e.desc)
  | .fetchl =>
    ((x.entriesOf e).filter (fun n => !enBad n (fdSlo e.desc) (fdSpan e.desc))).flatMap (fun n => span (enLoc n / 64) (enCount n))

/-! ### Errors outside an instruction -/

/-- A tile event (R433): the tile votes abort with the cause; under ESCALATE of strand 0's REL the supervisor hears of it and
the decision holds the context; a lost error marks the arrival and has the policy ABORT, whatever REL holds (R432). -/
def State.tileError (s : State) (t : Nat) (cause sub : BitVec 8) (value part : Nat) (lost : Bool) : State :=
  let s := s.countError t cause part
  let esc := !lost && policyOf (s.strand t 0).tpol cause == 2
  let x := s.tile t
  let s := s.setTile t { x with lost := x.lost || lost, hold := x.hold || esc }
  let s := if esc then s.tileEvent t 0x0016 0 (BitVec.ofNat 64 (cause.toNat + sub.toNat * 256 + value % 2 ^ 48 * 65536)) 0 else s
  s.voteAbort t cause

/-- The engine reads local lines: an uncorrectable error is a tile event (R379, R433) and is answered by its line. -/
def State.engineReads (s : State) (t : Nat) : List Nat → State × Option Nat
  | [] => (s, none)
  | k :: r =>
    if (s.tile t).hardAt (.line k) then (s.tileError t cSRAM 0 (64 * k) (k % 16) (!(s.tile t).restorable k), some k)
    else State.engineReads (s.correctAt t (.line k)) t r

/-! ### The capture of a checkpoint image -/

/-- The image of the tile's virtual tile in the checkpoint slot being written: module and offset. -/
def Ctx.slotAt (c : Ctx) (slot v : Nat) : Nat := (if slot = 0 then c.slot0 else c.slot1) + imageSize * v

/-- Bytes go to a page with MIRROR: the module and the partner module take them alike (R336, R464). -/
def State.pokeBoth (s : State) (c a : Nat) (l : List Byte) : State :=
  let s := s.poke (physModule a) (physOffset a) l
  if (s.ctx c).partner = physModule a then s else s.poke (s.ctx c).partner (physOffset a) l

/-- A line not yet captured is captured before it changes (R463). -/
def State.captureLine (s : State) (t k : Nat) : State :=
  let x := s.tile t
  match x.capture, s.ctxOf t with
  | some p, some c =>
    if p.lines.contains k then
      let a := (s.ctx c).slotAt p.slot x.vtid.toNat
      let v := match SMap.find x.pre k with | some e => e.bytes.toNat | none => x.lm (64 * k) 64
      let b := match SMap.find x.pre k with | some e => e.band.toNat | none => (x.bandAt k).toNat
      let s := (s.pokeBoth c (a + 0x14000 + 64 * k) (toBytes 64 v)).pokeBoth c (a + 0x10000 + 4 * k) (toBytes 4 b)
      s.setTile t { x with capture := some { p with lines := p.lines.filter (fun j => j != k) } }
    else s
  | _, _ => s

/-! ### Writing and ending -/

/-- The waiting full/empty instructions of a tile's line are served after its tags have become full (R248). -/
def State.serveLine (s : State) (t k : Nat) : State :=
  let u := { s with curTile := t }
  let v := (span 0 16).foldl (fun u w => State.serve (64 * k + 4 * w) 4 u) u
  { v with curTile := s.curTile }

/-- The tags of a line become full (R376). -/
def State.fillTags (s : State) (t k : Nat) : State :=
  let x := s.tile t
  (s.setTile t (x.setBand k (x.bandAt k ||| 0xFFFF))).serveLine t k

/-- The engine writes a local line with the source's descriptor, if it has one, and fills its tags when full says so (R376);
no pre-image is taken (R374). -/
def State.engineWrite (s : State) (t k : Nat) (data : List Byte) (desc : Option (BitVec 16)) (full : Bool) : State :=
  let s := s.captureLine t k
  let x := (s.tile t).writeBytes (64 * k) data
  let x := match desc with
    | some d => x.setBand k ((x.bandAt k &&& 0xFFFF) ||| (d.setWidth 32 <<< 16))
    | none => x
  let s := s.setTile t x
  if full then s.fillTags t k else s

/-- The token of an operation that ends, also as an abort of a later superstep would find it (R384). -/
def Tile.putToken (x : Tile) (e : EngOp) (k : Token) : Tile :=
  let y := x.setStrand e.strand ((x.strand e.strand).setTok e.tok k)
  if e.step < x.num then
    let p := y.snap[e.strand.toNat]'(e.strand.isLt)
    { y with snap := y.snap.set e.strand.toNat { p with k := p.k.set e.tok.toNat k e.tok.isLt } e.strand.isLt }
  else y

/-- The operation ends (R379): its locks are released, then its token is set. -/
def State.endEng (s : State) (t : Nat) (e : EngOp) (cause sub : BitVec 8) (faddr : Word) : State :=
  let x := s.tile t
  let y := { x with eng := x.eng.filter (fun f => !(f.strand == e.strand && f.tok == e.tok)),
                    landed := if e.step = x.num then x.landed ++ x.destLines e else x.landed }
  let y := y.unlock e.strand e.tok [.list, .span, .source]
  let old := (x.strand e.strand).tok e.tok
  let k : Token := { old with st := .set, status := cause, done := BitVec.ofNat 9 e.j, cause := cause, sub := sub, faddr := faddr }
  let s := s.setTile t (y.putToken e k)
  if cause = 0 ∧ e.next ∧ e.tag then (x.destLines e).foldl (fun u k => u.fillTags t k) s else s

/-- The commit of the superstep in which a next fetch was issued is still on its way to a base die, or a report of a line to
be read again is on its way to the tile (R381). -/
def State.refetchOpen (s : State) (t : Nat) (e : EngOp) : Bool :=
  s.net.any (fun m => match m with
    | .baseCommit c _ _ n => some c == s.ctxOf t && n == e.step
    | .refetch u _ => u == t
    | _ => false)

/-- The next fetches of a tile whose commit has passed, whose lines have all arrived and which no refetch holds back set
their tokens (R380). -/
def State.finishNext (s : State) (t : Nat) : State :=
  (s.tile t).eng.foldl (fun u e =>
    if e.next && e.closed && e.moved && e.again.isEmpty && !u.refetchOpen t e then u.endEng t e 0 0 0 else u) s

end Sys2Proof.Machine
end

