-- ==== Sys2Proof/Machine/Global.lean ====
section
/-! DEFINITION. Global memory: the place of a physical address, errors and poison (13_global_memory.md R322 to R325), the page
tables and Translate (R326 to R333), the global access instructions LDG, VLDG, STG, REDG, VSTG and VREDG (R338 to R343), and
the application of a commit in a base die (R335, R465). -/
namespace Sys2Proof.Machine

/-! ### Physical memory -/

/-- The end of the usable physical address space (R322). -/
def memTop : Nat := 0x38000000000

/-- Where a physical address lies: its stack, its stripe row, its channel, its address in the stack, and the stack that holds the parity
of its stripe (R322). -/
structure Place where
  stack   : Nat
  row     : Nat
  channel : Nat
  localAt : Nat
  parity  : Nat
deriving DecidableEq, Repr

/-- The bytes of a quadrant (R322). -/
def quadrantSize : Nat := 0xE000000000

/-- PhysLocate (R322). -/
def placeOf (pa : Nat) : Place :=
  let q := pa / quadrantSize
  let o := pa % quadrantSize
  let n := o / 256 / 7
  let j := o / 256 % 7
  let p := n % 8
  { stack := 8 * q + (if j < p then j else j + 1), row := n, channel := n % 32, localAt := n / 32 * 256 + o % 256, parity := 8 * q + p }

/-- The seven addresses that stand in the stripe of a physical address, at its place in the block: the parity byte is their XOR (R322). -/
def stripeOf (pa : Nat) : List Nat :=
  let q := pa / quadrantSize
  let o := pa % quadrantSize
  (span 0 7).map (fun j => quadrantSize * q + 256 * (o / 256 / 7 * 7 + j) + o % 256)

/-- The XOR of the bytes at some addresses. -/
def xorBytes (mem : Memory) (l : List Nat) : Byte := l.foldr (fun a b => Memory.read mem a ^^^ b) 0

/-- The byte that the parity block of the stripe of a physical address holds (R322): what the base dies keep in one action with every
write of a data block (R323) follows the data, so it is computed from them and stored nowhere. -/
def parityByte (mem : Memory) (pa : Nat) : Byte := xorBytes mem (stripeOf pa)

/-- The byte that a rebuild gives (R324): the XOR of the parity and of the six other data blocks. -/
def rebuiltByte (mem : Memory) (pa : Nat) : Byte := parityByte mem pa ^^^ xorBytes mem ((stripeOf pa).filter (fun a => a != pa))

/-- The latency account of the base die that owns a physical address (R520). -/
def baseAcct (pa : Nat) : Nat :=
  let p := placeOf pa
  4 * (p.stack / 2) + 2 * (p.stack % 2) + (if 16 ≤ p.channel then 1 else 0)

/-- Stack k of a module. -/
def Module.stackAt (md : Module) (k : Nat) : Stack := SMap.get {} md.stk k
def State.stackAt (s : State) (m k : Nat) : Stack := (s.mod m).stackAt k
def State.setStack (s : State) (m k : Nat) (x : Stack) : State :=
  s.setMod m { s.mod m with stk := SMap.set (s.mod m).stk k x }

/-- The line of a physical address is poisoned (R324). -/
def State.poisoned (s : State) (m pa : Nat) : Bool := (s.stackAt m (placeOf pa).stack).poison.contains (pa / 64)

/-- An entry of a base die's error log (R324, R325), in the payload form of R479; what stands in its code the spec does not
state (log entry 4). -/
def State.logStack (s : State) (m k : Nat) (value : Nat) : State :=
  let x := s.stackAt m k
  let w := (Config.freeWord s.free).toNat % 2 ^ 16 + k % 2 ^ 32 * 2 ^ 32 + value % 2 ^ 64 * 2 ^ 64
  { s.setStack m k { x with log := x.log ++ [BitVec.ofNat 256 (w * 2 ^ 128)] } with free := s.free + 1 }

/-- A supervisor event of a module that names no context. -/
def State.moduleEvent (s : State) (m : Nat) (code : BitVec 16) (unit value : Nat) : State :=
  s.emit m { ctx := 0xFFFFFFFF, ext := 0, code := code, strand := 0, unit := BitVec.ofNat 32 unit, value := BitVec.ofNat 64 value }

/-- A line becomes poisoned (R324, R434): it enters the poison table, whose last place sends POISON_TABLE_FULL. -/
def State.poisonLine (s : State) (m k line : Nat) : State :=
  let x := s.stackAt m k
  if x.poison.contains line ∨ 4096 ≤ x.poison.length then s
  else
    let s := s.setStack m k { x with poison := x.poison ++ [line], full := decide (x.poison.length + 1 = 4096) }
    if x.poison.length + 1 = 4096 then s.moduleEvent m 0x000A k 0 else s

/-- Self-test has quarantined a stack or its base die: KIND 5 and 6 of the location codes (R527). -/
def Module.stackOut (md : Module) (k : Nat) : Bool :=
  md.parts.any (fun c => (bitsOf c 31 28 == 5 || bitsOf c 31 28 == 6) && bitsOf c 27 23 == k)

/-- A stack serves no more: it has failed to train, or is quarantined (R525, R527). -/
def State.stackFailed (s : State) (m k : Nat) : Bool := (s.stackAt m k).failed || (s.mod m).stackOut k

/-- The block of a stripe row in a stack cannot be read (R324), every block of a failed stack among them (R525). -/
def State.spoilt (s : State) (m k row : Nat) : Bool := s.stackFailed m k || (s.stackAt m k).bad.contains row

/-- A line of the block at an address is poisoned. -/
def State.blockPoison (s : State) (m block : Nat) : Bool := (span 0 4).any (fun i => s.poisoned m (block + 64 * i))

/-- Another block of the stripe is lost, so that the block of a physical address cannot be rebuilt from it (R324). -/
def State.stripeLost (s : State) (m pa : Nat) : Bool :=
  let p := placeOf pa
  let block := pa / 256 * 256
  (span (p.stack / 8 * 8) 8).any (fun k => k != p.stack && s.spoilt m k p.row) ||
    (stripeOf block).any (fun a => a != block && s.blockPoison m a)

/-- A block that has been read after a rebuild: written back in place, and counted in the error log of its base die (R324). -/
def State.healBlock (s : State) (m pa : Nat) (bytes : List Byte) : State :=
  let p := placeOf pa
  let block := pa / 256 * 256
  let s := s.setMod m { s.mod m with mem := Memory.writeBytes (s.mod m).mem block bytes }
  let x := s.stackAt m p.stack
  (s.setStack m p.stack { x with bad := x.bad.filter (fun r => r != p.row), count := x.count + 1 }).logStack m p.stack block

/-- The block of a physical address is read from its stack, or rebuilt from its stripe and written back (R324); false when neither gives
it. -/
def State.rebuildBlock (s : State) (m pa : Nat) : State × Bool :=
  let p := placeOf pa
  let block := pa / 256 * 256
  if !s.spoilt m p.stack p.row then (s, true)
  else if s.stripeLost m pa then (s, false)
  else (s.healBlock m pa ((span block 256).map (rebuiltByte (s.mod m).mem)), true)

/-- Every line of a block for which no source remains becomes poisoned, with one event (R324); while a line finds no place in a full
table, the block stays one that cannot be read (R434). -/
def State.loseBlock (s : State) (m pa : Nat) : State :=
  let p := placeOf pa
  let block := pa / 256 * 256
  if (s.stackAt m p.stack).full then s
  else
    let s := (span 0 4).foldl (fun u i => u.poisonLine m p.stack (block / 64 + i)) s
    let x := s.stackAt m p.stack
    let all := (span 0 4).all (fun i => s.poisoned m (block + 64 * i))
    (s.setStack m p.stack { x with bad := if all then x.bad.filter (fun r => r != p.row) else x.bad }).moduleEvent m 0x0009 p.stack block

/-- A read of the block that holds a physical address (R324): as it stands, rebuilt from its stripe, or copied from the partner module,
whose own block may be rebuilt from its stripe; with no source both are lost. The answer says whether a full poison table left the failure
unrecorded (R434). -/
def State.readBlock (s : State) (m pa : Nat) (partner : Option Nat) : State × Bool :=
  if s.poisoned m pa then (s, false)
  else
    let block := pa / 256 * 256
    let own := s.rebuildBlock m pa
    if own.2 then (own.1, false)
    else
      let lose := fun (u : State) (w : Nat) => u.loseBlock w pa
      let failed := fun (u : State) => (u, !u.poisoned m pa)
      match partner with
      | some w =>
        if w = m then failed (lose s m)
        else
          let other := s.rebuildBlock w pa
          if other.2 && !s.blockPoison w block then (other.1.healBlock m pa (Memory.bytes (other.1.mod w).mem block 256), false)
          else failed (lose (if other.2 then other.1 else lose s w) m)
      | none => failed (lose s m)

/-- The key in a slot of a module's base dies; a slot that is not loaded reads zero (R498). -/
def State.keyAt (s : State) (m kslot : Nat) : BitVec 512 :=
  match SMap.find (s.mod m).keys kslot with
  | some k => k.key
  | none => 0

/-- A line of a page with a key slot, as its base die stores it or with false as it reads it (R337): slot 0 is plaintext. -/
def State.cipher (s : State) (encrypt : Bool) (m kslot line v : Nat) : Nat :=
  if kslot = 0 then v else xtsLine encrypt (s.keyAt m kslot) line v

/-- The n bytes at a physical address within one line, as a page with a key slot gives them (R337). -/
def State.physNum (s : State) (m pa n kslot : Nat) : Nat :=
  if kslot = 0 then Memory.num (s.mod m).mem pa n
  else s.cipher false m kslot (pa / 64) (Memory.num (s.mod m).mem (pa / 64 * 64) 64) / 2 ^ (8 * (pa % 64)) % 2 ^ (8 * n)

/-- The n bytes at a physical address, within one line: the state after the read, the value, and whether it is poison. -/
def State.readPhys (s : State) (m pa n : Nat) (partner : Option Nat) (ctx : Option Nat) (vt : Nat) (kslot : Nat := 0) : State × Nat × Bool :=
  let r := s.readBlock m pa partner
  let t := match r.2, ctx with
    | true, some c => r.1.setCtx c { r.1.ctx c with demand := some (.fatal cDPOISON vt) }
    | _, _ => r.1
  (t, t.physNum m pa n kslot, r.2 || t.poisoned m pa)

/-! ### Page tables -/

def lfModule (e : Nat) : Nat := bitsOf e 63 54
def lfKslot (e : Nat) : Nat := bitsOf e 53 48
def lfPa (e : Nat) : Nat := bitsOf e 47 8 * 256
def lfHost (e : Nat) : Bool := bitAt e 6
def lfDesc (e : Nat) : Bool := bitAt e 5
def lfMirror (e : Nat) : Bool := bitAt e 4
def lfW (e : Nat) : Bool := bitAt e 3
def lfR (e : Nat) : Bool := bitAt e 2
def lfLeaf (e : Nat) : Bool := bitAt e 1
def lfV (e : Nat) : Bool := bitAt e 0

/-- The size of the page that a leaf of a level maps (R328). -/
def pageSize (lvl : Nat) : Nat :=
  match lvl with
  | 2 => 2 ^ 30
  | 3 => 2 ^ 21
  | _ => 2 ^ 16

/-- The index of a virtual address in a table of a level (R328). -/
def tableIndex (lvl va : Nat) : Nat :=
  match lvl with
  | 1 => bitsOf va 47 39
  | 2 => bitsOf va 38 30
  | 3 => bitsOf va 29 21
  | _ => bitsOf va 20 16

/-- A valid entry of a level is malformed (R329). -/
def malformed (lvl e : Nat) : Bool :=
  bitAt e 7 ||
    (if lfLeaf e then lfPa e % pageSize lvl != 0 || decide (memTop < lfPa e + pageSize lvl)
     else e / 2 ^ 48 != 0 || bitsOf e 6 2 != 0 || (decide (lvl ≤ 2) && lfPa e % 4096 != 0))

/-- The quadrant of a stack that holds a page (R322). -/
def quadrantOf (page : Nat) : Nat := page * 65536 / quadrantSize

/-- A page is quarantined: a scrub of it is listed (R497, R498), or its quadrant is out of service (R525). -/
def Module.pageQuar (md : Module) (page : Nat) : Bool :=
  md.scrubs.any (fun o => o.cluster.isNone && decide (o.page ≤ page) && decide (page < o.page + o.pages) && !o.done.contains page) ||
    SMap.get 3 md.service (quadrantOf page) == 2

/-- The checks of R330 on a leaf, with those of a quarantined page (R497). -/
def State.leafCheck (s : State) (c e va size : Nat) (write : Bool) : Option (BitVec 8 × BitVec 8) :=
  let md := s.mod (lfModule e)
  let keyed := match SMap.find md.keys (lfKslot e) with | some k => k.ctx == c | none => false
  if write && !lfW e then some (cPROT, 1)
  else if !write && !lfR e then some (cPROT, 0)
  else if lfKslot e != 0 && !keyed then some (cPROT, 3)
  else if md.pageQuar ((lfPa e + va % size) / 65536) then some (cPROT, 4)
  else none

/-- The page-fault cause of a read or a write. -/
def pageFault (write : Bool) : BitVec 8 := if write then cPFWRITE else cPFREAD

/-- The bytes of virtual space that an entry of a level covers (R328). -/
def levelSpan (lvl : Nat) : Nat :=
  match lvl with
  | 1 => 2 ^ 39
  | 2 => 2 ^ 30
  | 3 => 2 ^ 21
  | _ => 2 ^ 16

/-- A walk-cache entry covers a virtual address of a context (R331). -/
def WcEntry.covers (e : WcEntry) (c va : Nat) : Bool := e.ctx == c && va / levelSpan e.lvl == e.part

/-- The levels that a walk on a die still has to read, and the table it reads first: from the deepest entry of the die's walk cache, or
from the root (R331). A walk of the attach has no die. -/
def State.walkStart (s : State) (die : Option Nat) (c va : Nat) : List Nat × Nat :=
  let hit := match die with
    | some d => [3, 2, 1].findSome? (fun lvl => (s.die d).wcache.find? (fun (e : WcEntry) => e.lvl == lvl && e.covers c va))
    | none => none
  match hit with
  | some e => (span (e.lvl + 1) (4 - e.lvl), e.table)
  | none => ([1, 2, 3, 4], (s.ctx c).root)

/-- A non-leaf entry enters the walk cache of a die; the oldest of 64 entries makes room (R331). -/
def State.fillWalkCache (s : State) (die : Option Nat) (e : WcEntry) : State :=
  match die with
  | none => s
  | some d =>
    let x := s.die d
    let old := x.wcache.filter (fun f => !(f.ctx == e.ctx && f.lvl == e.lvl && f.part == e.part))
    s.setDie d { x with wcache := (if 64 ≤ old.length then old.drop 1 else old) ++ [e] }

/-- The tables of context c in module m are walked for va from table t, over the levels given (R330): the leaf and its page
size, or a cause and SUB; what a leaf allows is not looked at. A poisoned table line enters the registry (R333). -/
def State.walkTable (s : State) (die : Option Nat) (c m va : Nat) (write : Bool) :
    List Nat → Nat → State × Except (BitVec 8 × BitVec 8) (Nat × Nat)
  | [], _ => (s, .error (pageFault write, 6))
  | lvl :: r, t =>
    let pa := t + 8 * tableIndex lvl va
    let rd := s.readPhys m pa 8 none (some c) 0
    let s := rd.1
    let e := rd.2.1
    let sub := BitVec.ofNat 8 lvl
    let known := (s.mod m).registry.contains (pa / 64)
    if known || rd.2.2 then
      let s := if known then s
        else (s.setMod m { s.mod m with registry := (s.mod m).registry ++ [pa / 64] }).moduleEvent m 0x0008 0 (pa / 64 * 64)
      (s, .error (cTPOISON, sub))
    else if !lfV e then (s, .error (pageFault write, sub))
    else if lfLeaf e && lvl == 1 then (s, .error (pageFault write, 5))
    else if !lfLeaf e && lvl == 4 then (s, .error (pageFault write, 6))
    else if malformed lvl e then (s, .error (pageFault write, 7))
    else if lfLeaf e then (s, .ok (e, pageSize lvl))
    else State.walkTable (s.fillWalkCache die { ctx := c, lvl := lvl, part := va / levelSpan lvl, table := lfPa e }) die c m va write r (lfPa e)

/-- The walk of R330 in the tables of module m, on a die or by the attach. -/
def State.walkLeaf (s : State) (die : Option Nat) (c m va : Nat) (write : Bool) : State × Except (BitVec 8 × BitVec 8) (Nat × Nat) :=
  let w := s.walkStart die c va
  s.walkTable die c m va write w.1 w.2

/-- What the end of a walk gives one access that waits for it (R330, R331): the checks of the leaf, or the page fault of its own kind. -/
def State.walkEnd (s : State) (c va : Nat) (write : Bool) (r : Except (BitVec 8 × BitVec 8) (Nat × Nat)) :
    Except (BitVec 8 × BitVec 8) (Nat × Nat) :=
  match r with
  | .ok (leaf, size) => (match s.leafCheck c leaf va size write with
    | some f => .error f
    | none => .ok (leaf, size))
  | .error (cause, sub) => .error (if cause = cTPOISON then cause else pageFault write, sub)

/-- Translate (R330) in the tables of module m. -/
def State.walk (s : State) (die : Option Nat) (c m va : Nat) (write : Bool) : State × Except (BitVec 8 × BitVec 8) (Nat × Nat) :=
  let r := s.walkLeaf die c m va write
  (r.1, r.1.walkEnd c va write r.2)

/-- The walk of the attach or the supervisor, which looks at no page's R and W (R360, R489, R492). -/
def State.walkAny (s : State) (c m va : Nat) : State × Option (Nat × Nat) :=
  let r := s.walkLeaf none c m va false
  (r.1, match r.2 with
    | .ok (leaf, size) => (match s.leafCheck c (leaf ||| 12) va size false with
      | some _ => none
      | none => some (leaf, size))
    | .error _ => none)

/-- How a translation through the cluster's cache ends (R331). -/
inductive Xlate where
  | miss
  | bad (cause sub : BitVec 8)
  | ok (leaf pa : Nat)
deriving DecidableEq, Repr

/-- Translation of va for tile t of context c through its cluster's cache (R331, R332). -/
def State.lookup (s : State) (t c va : Nat) (write : Bool) : Xlate :=
  match (s.cluster (clusterOf t)).tcache.find? (fun e => e.ctx == c && va / e.size == e.page) with
  | none => .miss
  | some e =>
    match s.leafCheck c e.leaf.toNat va e.size write with
    | some f => .bad f.1 f.2
    | none => .ok e.leaf.toNat (lfPa e.leaf.toNat + va % e.size)

/-- A leaf enters the translation cache of a tile's cluster; the oldest of 256 entries makes room (R331). -/
def State.fillCache (s : State) (t c va leaf size : Nat) : State :=
  let k := s.cluster (clusterOf t)
  let old := k.tcache.filter (fun e => !(e.ctx == c && va / e.size == e.page))
  let old := if 256 ≤ old.length then old.drop 1 else old
  s.setCluster (clusterOf t) { k with tcache := old ++ [{ ctx := c, page := va / size, size := size, leaf := BitVec.ofNat 64 leaf }] }

/-- A walk for tile t that ends at once: its leaf enters the cache. -/
def State.translate (s : State) (t c va : Nat) (write : Bool) : State × Xlate :=
  match s.lookup t c va write with
  | .miss =>
    match s.walk (some (dieOf t)) c (modOf t) va write with
    | (u, .error f) => (u, .bad f.1 f.2)
    | (u, .ok (leaf, size)) => (u.fillCache t c va leaf size, .ok leaf (lfPa leaf + va % size))
  | x => (s, x)

/-- The partner module of a page, if the page has MIRROR (R336). -/
def State.partnerOf (s : State) (c leaf : Nat) : Option Nat := if lfMirror leaf then some (s.ctx c).partner else none

/-- The address of the descriptor of the line at a data address (R326). -/
def descVa (va : Nat) : Nat := 0x800000000000 + va / 64 * 2

/-- The commit of the context is on its way to the base die that holds a physical address (R335). -/
def State.commitPending (s : State) (c m pa : Nat) : Bool :=
  s.net.any (fun g => match g with | .baseCommit d w k _ => d == c && w == m && k == (placeOf pa).stack | _ => false)

/-! ### Checks of a global access -/

/-- Steps 1 to 3 of R338; on a management tile the address form of R478 in their place. -/
def State.checkGlobal (s : State) (a : Word) (n : Nat) (write : Bool) : Except Stop Unit :=
  if a.toNat / 2 ^ (if s.supervisor then 58 else 48) ≠ 0 then raise (pageFault write) 8 a
  else if a.toNat % n ≠ 0 then raise cMISAL 0 a
  else if write ∧ !s.supervisor ∧ 2 ^ 47 ≤ a.toNat then raise cPROT 2 a
  else .ok ()

/-- A physical address of a management tile lies outside the usable memory (R322, R478). -/
def noMem (a : Word) : Bool := decide (memTop ≤ physOffset a.toNat)

/-- The number of the strand's context. -/
def State.myCtxNo (s : State) : Nat := (s.ctxOf s.curTile).getD 0

/-! ### LDG and VLDG -/

/-- The global read of a load begins (R339): on a cache hit the read itself, else the walk. -/
def State.startRead (s : State) (a : Word) : State :=
  if s.supervisor then s.setMe { s.me with gread := some (.reading (physModule a.toNat) (physOffset a.toNat) 0 false) }
  else match s.lookup s.curTile s.myCtxNo a.toNat false with
    | .ok leaf pa => s.setMe { s.me with gread := some (.reading (lfModule leaf) pa (lfKslot leaf) (lfMirror leaf)) }
    | .bad c sub => s.setMe { s.me with gread := some (.fault c sub) }
    | .miss =>
      let w : Walk := { ctx := s.myCtxNo, tile := s.curTile, strand := s.curStrand, va := a, write := false }
      { s.setMe { s.me with gread := some .walking } with walks := s.walks ++ [w] }

/-- A read in flight whose instruction times out: its response still comes (R339, R519). -/
def State.orphan (s : State) : State :=
  match s.me.gread with
  | some (.reading m pa _ _) => s.setHere { s.here with orphans := s.here.orphans ++ [(m, pa)] }
  | _ => s

/-- LDG and VLDG (R339, R340): n bytes at a, put in the destination by put. -/
def State.globalLoad (s : State) (i : Instr) (a : Word) (n : Nat) (l : BitVec 3) (get : State → Line)
    (post : State → Line → State) (put : State → BitVec 512 → State) : Host.Outcome State Fault Refusal :=
  let run := fun (s : State) (e : Except Stop State) => s.finishPone i get post true e
  if s.pone && !s.elected then run s (.ok s)
  else match s.checkGlobal a n false with
    | .error e => run s (.error e)
    | .ok _ =>
      if s.supervisor ∧ noMem a then .fault .noMemory
      else
        let s := if s.me.gread.isNone && !(s.pone && s.poneFull) then s.startRead a else s
        let done := match s.me.gread with
          | some (.fault _ _) => true
          | some (.data _ _) => true
          | _ => false
        run s (match s.waitTest l done with
          | .on k => .error (.wait k)
          | .met =>
            (match s.me.gread with
            | some (.fault c sub) => raise c sub a
            | some (.data _ true) => raise cDPOISON 0 a
            | some (.data v false) => .ok (((put s v).setWst 0 s.me.pc.toNat).note true false a.toNat n)
            | _ => .error (.wait (.named l 0)))
          | _ => .ok ((s.orphan.setWst 1 s.me.pc.toNat).note true false a.toNat n))

/-- The access size and the extension of LDG's types (R339). -/
def ldgType (y : BitVec 3) : Nat × (Nat → Word) :=
  match y.toNat with
  | 0 => (1, sext 1)
  | 1 => (2, sext 2)
  | 2 => (4, sext 4)
  | 3 => (8, sext 8)
  | 4 => (1, BitVec.ofNat 64)
  | 5 => (2, BitVec.ofNat 64)
  | _ => (4, BitVec.ofNat 64)

/-- LDG (R339). -/
def execLdg (d a : BitVec 6) (l y : BitVec 3) (s : State) : Host.Outcome State Fault Refusal :=
  s.globalLoad (.ldg d a l y) (s.getS a) (ldgType y).1 l (fun t => (t.getS d).setWidth 512) (fun t v => t.setS d (v.setWidth 64))
    (fun t v => t.setS d ((ldgType y).2 v.toNat))

/-- VLDG (R340). -/
def execVldg (d : BitVec 5) (a : BitVec 6) (l : BitVec 3) (s : State) : Host.Outcome State Fault Refusal :=
  s.globalLoad (.vldg d a l) (s.getS a) 64 l (fun t => t.getV d) (fun t v => t.setV d v) (fun t v => t.setV d v)

/-! ### STG, REDG, VSTG and VREDG -/

/-- How the translation of a store ends: an address, a cause, or the stall for a walk (R338). -/
inductive StoreTo where
  | place (m pa kslot : Nat) (mirror : Bool)
  | bad (cause sub : BitVec 8)
  | walk
  | nowhere
deriving DecidableEq, Repr

/-- Steps 4 to 6 of R338 for a write of the strand; what a walk found for it comes first. -/
def State.storeTo (s : State) (a : Word) : StoreTo :=
  if s.supervisor then (if noMem a then .nowhere else .place (physModule a.toNat) (physOffset a.toNat) 0 false)
  else
    let found := match s.me.walk with
      | some r => if r.va = a ∧ r.write ∧ r.cause ≠ 0 then some (r.cause, r.sub) else none
      | none => none
    match found with
    | some f => .bad f.1 f.2
    | none => match s.lookup s.curTile s.myCtxNo a.toNat true with
      | .ok leaf pa => .place (lfModule leaf) pa (lfKslot leaf) (lfMirror leaf)
      | .bad c sub => .bad c sub
      | .miss => .walk

/-- The walk of a store begins, once (R331, R338). -/
def State.startWalk (s : State) (a : Word) : State :=
  let w : Walk := { ctx := s.myCtxNo, tile := s.curTile, strand := s.curStrand, va := a, write := true }
  { s with walks := s.walks ++ [w] }

/-- The delta of a global store or reduction (R334). -/
def State.globalOut (s : State) (lane m pa kslot : Nat) (mirror : Bool) (body : DeltaBody) : Outgoing :=
  { lane := lane, dest := .memory m mirror, kslot := kslot,
    cls := if (m ≠ modOf s.curTile ∧ !s.supervisor) ∨ mirror then .sys else .ctx, acct := baseAcct pa, body := body, wide := false }

/-- STG and REDG (R341). -/
def State.globalStore (s : State) (i : Instr) (a : Word) (n : Nat) (body : Nat → DeltaBody) : Host.Outcome State Fault Refusal :=
  match s.checkGlobal a n true with
  | .error e => s.finishSeq i (.error e)
  | .ok _ =>
    match s.storeTo a with
    | .nowhere => .fault .noMemory
    | .bad c sub => s.finishSeq i (raise c sub a)
    | .walk => (s.startWalk a).finishSeq i (.error (.stall 10 a))
    | .place m pa k mirror => s.finishSeq i ((s.sendOne (s.globalOut 0 m pa k mirror (body pa))).map (fun t => t.note true true a.toNat n))

/-- STG (R341). -/
def execStg (d a : BitVec 6) (n : BitVec 2) (s : State) : Host.Outcome State Fault Refusal :=
  s.globalStore (.stg d a n) (s.getS a) (2 ^ n.toNat) (fun pa => storeBody pa (2 ^ n.toNat) (s.getS d))

/-- REDG (R341). -/
def execRedg (d a : BitVec 6) (f : BitVec 4) (s : State) : Host.Outcome State Fault Refusal :=
  s.globalStore (.redg d a f) (s.getS a) (redSize f) (fun pa => redBody pa f (s.getS d))

/-- One lane of VSTG or VREDG is sent under the instruction's issue sequence (R282, R342). -/
def State.sendLane (s : State) (i : Nat) (o : Outgoing) : State :=
  let fresh := s.me.vseq.isNone
  let seq := match s.me.vseq with | some q => q | none => s.here.iseq.toNat
  let s := if fresh then s.setHere { s.here with iseq := s.here.iseq + 1 } else s
  let me := s.me
  let s := s.setMe { me.setOak o.cls (me.oakOf o.cls + 1) with vseq := some seq, vpm := me.vpm ||| (1#64 <<< i) }
  s.send (.delta (s.delta seq o))

/-- The lanes of VSTG or VREDG in ascending order (R342): the state they leave, and what stops them. Of an exact sum of 2^64 or more the spec
does not say what TVAL holds: DESIGN CHOICE, its low 64 bits (log entry 56). -/
def State.scatter (addr : Nat → Nat) (n : Nat) (body : Nat → Nat → DeltaBody) : List Nat → State → State × Except Stop Bool
  | [], s => (s, .ok true)
  | i :: r, s =>
    let a := BitVec.ofNat 64 (addr i)
    let high := decide (2 ^ 64 ≤ addr i)
    match (if high then raise cPFWRITE 8 a else s.checkGlobal a n true) with
    | .error e => (s, .error e)
    | .ok _ =>
      match s.storeTo a with
      | .nowhere => (s, .ok false)
      | .bad c sub => (s, raise c sub a)
      | .walk => (s.startWalk a, .error (.stall 10 a))
      | .place m pa k mirror =>
        let o := s.globalOut i m pa k mirror (body i pa)
        match s.oakRoom [o.cls] with
        | .error e => (s, .error e)
        | .ok _ => State.scatter addr n body r (s.sendLane i o)

/-- The completion of a unit of one word would lead to 0x1_0000 (R30). -/
def State.runsOut (s : State) : Bool := (completeLoops s.me.pc.toNat (s.own + 4) s.me.lstk).2 == .at 0x10000

/-- VSTG and VREDG (R342); FETCH_BOUND comes before the first lane is sent (R30, log entry 50): elements of w bits of vx at the addresses indexed by the next register. -/
def State.globalScatter (s : State) (i : Instr) (x : BitVec 5) (b : BitVec 6) (p : BitVec 3) (w : Nat) (body : Nat → Nat → Nat → DeltaBody) :
    Host.Outcome State Fault Refusal :=
  let idx := lineOf (s.getV (x + 1)) w
  let val := lineOf (s.getV x) w
  let addr := fun j => (s.getS b).toNat + idx.getD j 0 * (w / 8)
  let act := (span 0 (512 / w)).filter (fun j => active (s.getP p) w j)
  let todo := act.filter (fun j => !s.me.vpm.getLsbD j)
  if s.runsOut then s.finishSeq i (.ok s)
  else match State.scatter addr (w / 8) (fun j pa => body pa (w / 8) (val.getD j 0)) todo s with
  | (t, .error e) => t.finishSeq i (.error e)
  | (_, .ok false) => .fault .noMemory
  | (t, .ok true) =>
    let t := act.foldl (fun u j => u.note true true (addr j) (w / 8)) t
    t.finishSeq i (.ok (t.setMe { t.me with vpm := 0 }))

/-- VSTG (R342). -/
def execVstg (x : BitVec 5) (b : BitVec 6) (p : BitVec 3) (z : BitVec 2) (s : State) : Host.Outcome State Fault Refusal :=
  s.globalScatter (.vstg x b p z) x b p (8 * 2 ^ z.toNat) (fun pa n v => storeBody pa n (BitVec.ofNat 64 v))

/-- VREDG (R342). -/
def execVredg (x : BitVec 5) (b : BitVec 6) (p : BitVec 3) (f : BitVec 4) (s : State) : Host.Outcome State Fault Refusal :=
  s.globalScatter (.vredg x b p f) x b p (8 * redSize f) (fun pa _ v => redBody pa f (BitVec.ofNat 64 v))

/-! ### The commit at a base die -/

/-- The number that marks a host write among the items of a tentative buffer (R355, R360). -/
def hostSrc : Nat := 2 ^ 40

def Delta.isHost (d : Delta) : Bool := d.srcTile == hostSrc

/-- The items of a commit in the order of R355: host writes, then deltas in the order of R335. -/
def commitOrder (l : List Delta) : List Delta :=
  l.filter Delta.isHost ++ sortBy Delta.before (l.filter (fun d => !d.isHost))

/-- The physical address of the body of a global delta. -/
def Delta.addr (d : Delta) : Nat :=
  match d.body with
  | .store a _ _ => a
  | .reduce a _ _ _ => a
  | _ => 0

/-- A line as R325 treats it: its bytes, and which of them are defined. -/
structure LineBuf where
  bytes : Memory
  known : BitVec 64
deriving DecidableEq, Repr

/-- One item applies to a line that starts at base, its bytes as the item's page reads them (R286, R325): the line and the apply flags. -/
def LineBuf.apply (b : LineBuf) (base : Nat) (d : Delta) : LineBuf × BitVec 3 :=
  match d.body with
  | .store a mask data =>
    ((storeElems mask data).foldl (fun (b : LineBuf) e =>
      let o := a + e.1 - base
      { bytes := Memory.write b.bytes o e.2, known := b.known ||| (1#64 <<< o) }) b, 0)
  | .reduce a op mask data =>
    let w := redSize op
    (redElems op mask data).foldl (fun (r : LineBuf × BitVec 3) e =>
      let o := a + e.1 - base
      if (span o w).all (fun j => r.1.known.getLsbD j) then
        let v := reduceElem op (Memory.num r.1.bytes o w) e.2
        ({ r.1 with bytes := Memory.setNum r.1.bytes o w v.1 }, r.2 ||| applyFlags v.2)
      else r) (b, 0)
  | _ => (b, 0)

/-- One item applies to a line as it is stored: a page with a key slot is decrypted, changed and encrypted under the key of the owning
module, which also the partner's copy holds (R336, R337). -/
def State.applyItem (s : State) (m : Nat) (b : LineBuf) (line : Nat) (d : Delta) : LineBuf × BitVec 3 :=
  let owner := match d.dest with | .memory w _ => w | _ => m
  if d.kslot = 0 then b.apply (64 * line) d
  else
    let turn := fun (way : Bool) (l : Memory) => Memory.setNum [] 0 64 (s.cipher way owner d.kslot line (Memory.num l 0 64))
    let r := ({ b with bytes := turn false b.bytes } : LineBuf).apply (64 * line) d
    ({ r.1 with bytes := turn true r.1.bytes }, r.2)

/-- The old value of a line goes to the journal before its first overwrite since the last durable checkpoint (R465); a full journal is
reported once for each context that it makes unrestorable, and the supervisor sets a checkpoint request for the next barrier. -/
def State.journal (s : State) (c m k line num : Nat) : State :=
  let x := s.stackAt m k
  let y := s.ctx c
  let since := y.ckReady.getD y.durable
  if x.journal.any (fun e => e.ctx == c && e.line == line && decide (since < e.num)) then s
  else if 2 ^ 24 ≤ x.journal.length then
    if x.journalFull.contains c then s
    else
      let u := (s.setStack m k { x with journalFull := x.journalFull ++ [c] }).emit y.home
        { ctx := BitVec.ofNat 32 c, ext := 0, code := 0x000F, strand := 0, unit := BitVec.ofNat 32 k, value := 0 }
      u.setCtx c { u.ctx c with journalStuck := true, ckReq := true }
  else
    let old := BitVec.ofNat 512 (Memory.num (s.mod m).mem (64 * line) 64)
    s.setStack m k { x with journal := x.journal ++ [{ ctx := c, line := line, old := old, num := num }] }

/-- A line of global memory that a pending next fetch of the context has read or will read is reported to its tile; a line that the fetch
has not yet translated is read after the application in any case (R381). -/
def State.reportLine (s : State) (c m line num : Nat) : State :=
  (s.ctxTiles c).foldl (fun u t =>
    (u.tile t).eng.foldl (fun u e =>
      if e.kind == .fetchl && e.next && decide (e.step ≤ num) then
        let hit := (e.lines.filter (fun l => lfModule l.leaf == m && l.pa / 64 == line)).map (fun l => l.va)
        hit.eraseDups.foldl (fun u va => u.send (.refetch t va)) u
      else u) u) s

/-- The item goes to a MIRROR page (R336). -/
def Delta.mirrored (d : Delta) : Bool := match d.dest with | .memory _ mirror => mirror | _ => false

/-- A line that a commit is about to write in a MIRROR page stays for the host as it was, with the host's own writes of the commit, until
its array acknowledgements have arrived (R358, R359). -/
def State.keepOld (s : State) (c m line : Nat) (poison : Bool) (mine : List Delta) (start : LineBuf) : State :=
  let x := s.ctx c
  if !mine.any Delta.mirrored ∨ x.olds.any (fun o => o.module == m && o.line == line) then s
  else
    let own := (mine.filter Delta.isHost).foldl (fun (b : LineBuf) d => (s.applyItem m b line d).1) start
    s.setCtx c { x with olds := x.olds ++ [{ module := m, line := line, poison := poison && own.known != BitVec.allOnes 64,
                                             bytes := BitVec.ofNat 512 (Memory.num own.bytes 0 64) }] }

/-- An uncorrectable error met at a commit in a base die makes the context FATAL; which CAUSE and ATILE its decision carries the spec does
not state (R433, R434, log entry 4). -/
def State.lostAtCommit (s : State) (c : Nat) : State :=
  let x := s.ctx c
  if x.demand.isSome && x.demand != some .force then s
  else { s.setCtx c { x with demand := some (.fatal ((Config.freeWord s.free).setWidth 8) ((Config.freeWord (s.free + 1)).toNat % 2 ^ 27)) } with
    free := s.free + 2 }

/-- The line of a block written whole holds good data: its poison clears (R325). -/
def State.cleanLine (s : State) (m k line : Nat) : State :=
  let x := s.stackAt m k
  let left := x.poison.filter (fun l => l != line)
  s.setStack m k { x with poison := left, full := decide (4096 ≤ left.length) }

/-- The items of one line of a base die apply (R325, R335). -/
def State.commitLine (s : State) (c m k num : Nat) (items : List Delta) (line : Nat) : State :=
  let mine := items.filter (fun d => d.addr / 64 == line)
  let twin := mine.findSome? (fun d => match d.dest with
    | .memory w true => some (if w = m then (s.ctx c).partner else w)
    | _ => none)
  let before := s.poisoned m (64 * line)
  let r := s.readBlock m (64 * line) twin
  let poison := r.1.poisoned m (64 * line) || r.2
  let s := if poison && !before then r.1.lostAtCommit c else r.1
  let start : LineBuf := { bytes := Memory.slice (s.mod m).mem (64 * line) 64, known := if poison then 0 else BitVec.allOnes 64 }
  let s := s.keepOld c m line poison mine start
  let r := mine.foldl (fun (r : LineBuf × BitVec 3) d =>
    let v := s.applyItem m r.1 line d
    (v.1, r.2 ||| v.2)) (start, 0)
  if poison ∧ r.1.known ≠ BitVec.allOnes 64 then mine.foldl (fun u _ => u.logStack m k (64 * line)) s
  else
    let s := s.journal c m k line num
    let s := (s.setMod m { s.mod m with mem := Memory.blit (s.mod m).mem (64 * line) 64 r.1.bytes }).cleanLine m k line
    let s := s.setCtx c { s.ctx c with baseFlags := (s.ctx c).baseFlags ||| r.2 }
    s.reportLine c m line num

/-- A COMMIT reaches a base die (R335, R336): its placed items of superstep num apply; an array acknowledgement follows when
any of them was mirrored. -/
def State.commitStack (s : State) (c m k num : Nat) : State :=
  let x := s.stackAt m k
  let items := commitOrder (x.tbuf.filter (fun d => d.ctx == c && d.num == num))
  let s := s.setStack m k { x with tbuf := x.tbuf.filter (fun d => !(d.ctx == c && d.num == num)) }
  let s := ((items.map (fun d => d.addr / 64)).eraseDups).foldl (fun u l => u.commitLine c m k num items l) s
  if items.any Delta.mirrored then s.send (.arrayAck c k num false) else s

end Sys2Proof.Machine
end

