-- ==== Sys2Proof/Machine/Barrier.lean ====
section
/-! DEFINITION. The commit barrier: CBAR, ABORTV and IRREV (11_supersteps.md R279, R305 to R311), the Tramontane tree and the
root's decision (R299 to R304, R314, R538, with 18_preemption.md R442 to R446 and R462 to R464), and the commit and abort
sequences of a tile (R280, R312, R313, R315, R316, with R276, R384, R445, R463). -/
namespace Sys2Proof.Machine

/-! ### The instructions -/

/-- What CBAR waits for before the strand arrives (R310, R383). -/
def State.cbarBlocked (s : State) : Bool :=
  let r := s.me
  r.oakTile != 0 || r.oakCtx != 0 || r.oakSys != 0 ||
    r.k.toList.any (fun k => k.st == .pending &&
      (k.use == .fetchl || k.use == .copy || k.use == .wbl || (k.use == .fetchNext && decide (k.step < s.here.num))))

/-- The strand arrives at its tile's barrier (R310). -/
def State.arriveCbar (s : State) (i : Instr) (d a : BitVec 6) (l : BitVec 3) (k : BitVec 1) (o : BitVec 3) : State :=
  let dead := match s.me.wait with
    | some w => (match w.kind with | .named _ t => t | _ => s.deadlineOf l)
    | none => s.deadlineOf l
  let t := s.enterWait i .barrier
  let arr : Arrival := { op := o, value := if o = 0 then 0 else s.getS a, ck := k == 1, flags := flgLow s.me.flg, dest := d,
                         next := BitVec.ofNat 16 (s.own + 4), deadline := some dead }
  (t.setMe { t.me with arrival := some arr }).formArrival s.curTile

/-- CBAR (R309, R310). Its stall for the strand's running MMA is bounded by DT7 and ends in IMPLICIT_DEADLINE with SUB 3
(R198), though R243 speaks of matrix instructions and RETIRE alone (log entry 56). -/
def execCbar (d a : BitVec 6) (l : BitVec 3) (k : BitVec 1) (o : BitVec 3) (s : State) : Host.Outcome State Fault Refusal :=
  let i : Instr := .cbar d a l k o
  let head : Except Stop (Option State) := do
    s.notMgmt
    s.matrixEntry []
    if s.me.refusal ∧ s.me.wait.isNone then .ok (some ((s.setMe { s.me with refusal := false }).setWst 6 s.me.pc.toNat))
    else if s.own + 4 = 0x10000 then raise cFETCH 0 0x10000
    else match s.waitTest l (!s.cbarBlocked) with
      | .on w => .error (.wait w)
      | .met => .ok none
      | _ => .ok (some (s.setWst 3 s.me.pc.toNat))
  match head with
  | .error e => s.finishSeq i (.error e)
  | .ok (some t) => s.finishSeq i (.ok t)
  | .ok none => .next (s.arriveCbar i d a l k o)

/-- ABORTV (R306). Where ABORTVs with different causes execute in one superstep the spec does not say whose software code the abort record
holds: DESIGN CHOICE, the latest one's, even where an earlier larger cause stands (log entry 23). -/
def execAbortv (c : BitVec 16) (s : State) : Host.Outcome State Fault Refusal :=
  let cause : BitVec 8 := if 1 ≤ c.toNat ∧ c.toNat ≤ 0x7F then c.setWidth 8 else 0xF0
  s.finishSeq (.abortv c) (do
    s.notMgmt
    .ok ((s.setHere { s.here with code := c }).voteAbort s.curTile cause))

/-- The tile stops logging for the rest of the superstep (R279). -/
def Tile.irrev (x : Tile) : Tile := if x.irv then x else { x with irv := true, pre := [], accPre := [] }

/-- IRREV (R279); it stalls while a checkpoint capture runs (R463). -/
def execIrrev (s : State) : Host.Outcome State Fault Refusal :=
  s.finishSeq .irrev (do
    s.notMgmt
    if s.here.irv then .ok s
    else if s.here.capture.isSome then .error (.stall 11 0)
    else .ok (s.setHere s.here.irrev))

/-- A strand that has arrived ends its CBAR with WITHDRAWN (R308, R310). -/
def State.endWithdrawn (s : State) (t : Nat) (n : BitVec 2) : State :=
  match (s.strand t n).wait with
  | none => s
  | some w =>
    let u := { s with curTile := t, curStrand := n }
    let u := u.setMe { u.me with st := .run, pfx := w.pfx, arrival := none }
    match u.finishSeq w.instr (.ok (u.setWst 3 u.me.pc.toNat)) with
    | .next v => { v with curTile := s.curTile, curStrand := s.curStrand }
    | _ => s

/-- The deadline of the strand's arrival has expired (R308). -/
def State.arrivalOver (s : State) (t : Nat) (n : BitVec 2) : Bool :=
  match (s.strand t n).arrival with
  | some a => a.expired || ((match a.deadline with | some d => s.expired t d | none => false) && (s.strand t n).st == .wait)
  | none => false

/-- The deadline of the strand's arrival has expired and the tile has not seen it yet (R308). -/
def State.arrivalExpired (s : State) (t : Nat) (n : BitVec 2) : Bool :=
  s.arrivalOver t n && (match (s.strand t n).arrival with | some a => !a.expired | none => false) && (s.tile t).dbg.decision.isNone

/-- CBAR_DEADLINE_EXPIRY (R308): strand State.ev.n of tile State.ev.tile. -/
def execCbarDeadlineExpiry (s : State) : Host.Outcome State Fault Refusal :=
  let t := s.ev.tile
  let n := BitVec.ofNat 2 s.ev.n
  let x := s.tile t
  if !s.arrivalExpired t n then .next s
  else
    let r := x.strand n
    let marked := x.setStrand n { r with arrival := r.arrival.map (fun a => { a with expired := true }) }
    match x.bar, s.ctxOf t with
    | .opened, _ => .next (s.endWithdrawn t n)
    | .sent, some c =>
      .next ((s.setTile t { marked with bar := .withdrawing }).send (.withdraw c (.tile t) (.cluster (clusterOf t)) x.num))
    | _, _ => .next (s.setTile t marked)

/-! ### The tree -/

/-- A node of a context's tree. -/
def Ctx.node (c : Ctx) (id : NodeId) : Option TreeNode := c.nodes.find? (fun n => n.id == id)
def Ctx.setNode (c : Ctx) (n : TreeNode) : Ctx := { c with nodes := c.nodes.map (fun m => if m.id == n.id then n else m) }

/-- The context and the two nodes a tree message travels between. -/
def Msg.edge : Msg → Option (Nat × NodeId × NodeId)
  | .arrive c a b _ => some (c, a, b)
  | .withdraw c a b _ => some (c, a, b)
  | .wconf c a b _ => some (c, a, b)
  | .decide c a b _ => some (c, a, b)
  | _ => none

/-- The message at place i is the oldest of its kind between its two nodes (R300). -/
def State.oldest (s : State) (i : Nat) : Bool :=
  match s.net[i]? with
  | some g => match g.edge with
    | some e => !(s.net.take i).any (fun h => h.edge == some e)
    | none => false
  | none => false

/-- A DECIDE from node b to node a is still on its way: what a has sent to b concerns a superstep already decided (R302). -/
def State.overtaken (s : State) (c : Nat) (a b : NodeId) : Bool :=
  s.net.any (fun g => match g with | .decide d x y _ => d == c && x == b && y == a | _ => false)

/-- What node a has sent rootward is void once the DECIDE has reached it (R302). -/
def State.voidFrom (s : State) (c : Nat) (a : NodeId) : State :=
  { s with net := s.net.filter (fun g => match g with
      | .arrive d x _ _ => !(d == c && x == a)
      | .withdraw d x _ _ => !(d == c && x == a)
      | _ => true) }

/-- The contents of ARRIVE before anything is combined. -/
def arriveZero (num : Nat) : Arrive :=
  { num := num, abort := false, atile := 0, cause := 0, code := 0, irv := false, lost := false, hold := false, ck := false,
    op := 0, opTile := 0, value := 0, flags := 0, aflags := 0 }

/-- What a node forwards of its children's arrivals (R301), combined in the order of the children (R311, log entry 52). -/
def TreeNode.combined (n : TreeNode) : Arrive :=
  combineAll (arriveZero n.num) (n.kids.filterMap (fun k => (n.arrived.find? (fun e => e.1 == k)).map Prod.snd))

/-! ### The decision -/

/-- A host write in the log as items of a tentative buffer, one for each part of at most 64 bytes within a line (R355). -/
def hostItems (c num pa kslot : Nat) (mirror : Bool) (m : Nat) (l : List Byte) : List Delta :=
  let lines := linesOf pa l.length
  lines.map (fun k =>
    let lo := max pa (64 * k)
    let hi := min (pa + l.length) (64 * k + 64)
    let piece := (l.drop (lo - pa)).take (hi - lo)
    { ctx := c, srcVt := 0, srcTile := hostSrc, strand := 0, num := num, att := 0, seq := 0, lane := 0, dest := .memory m mirror, kslot := kslot,
      body := .store (64 * k) (BitVec.ofNat 64 ((2 ^ (hi - lo) - 1) * 2 ^ (lo - 64 * k)))
        (BitVec.ofNat 512 (ofBytes piece * 2 ^ (8 * (lo - 64 * k)))),
      cls := .ctx, acct := 0 })

/-- The item of a tentative buffer that writes the line descriptor a delta brings (R378): it applies with the delta. -/
def Delta.descItem (d : Delta) (e : LineDesc) : Delta :=
  { d with dest := .memory e.module e.mirror, kslot := e.kslot, part := true, desc := none,
           body := .store e.pa 3 (e.value.setWidth 512) }

/-- An item stands in the tentative buffer of its base die, and of the partner's for a MIRROR page (R334, R336). -/
def State.holdItem (s : State) (d : Delta) : State :=
  match d.dest with
  | .memory m mirror =>
    let k := (placeOf d.addr).stack
    let put := fun (s : State) (w : Nat) => s.setStack w k { s.stackAt w k with tbuf := (s.stackAt w k).tbuf ++ [d] }
    let s := put s m
    let p := (s.ctx d.ctx).partner
    if mirror ∧ p ≠ m then put s p else s
  | _ => s

/-- A delta stands in its tentative buffers with the descriptor it brings (R334, R336, R378). -/
def State.holdDelta (s : State) (d : Delta) : State :=
  let s := s.holdItem { d with desc := none }
  match d.desc with
  | some e => s.holdItem (d.descItem e)
  | none => s

/-- The part of a host write within one line goes to its base die (R355, R360). A part whose page no longer translates is dropped. -/
def State.flushPart (s : State) (c num va : Nat) (l : List Byte) : State :=
  match s.walkAny c (s.ctx c).home va with
  | (u, some (leaf, size)) => (hostItems c num (lfPa leaf + va % size) (lfKslot leaf) (lfMirror leaf) (lfModule leaf) l).foldl State.holdItem u
  | (u, none) => u

/-- The synced host writes go to their base dies with the commit of superstep num and leave the log (R360). -/
def State.flushLog (s : State) (c num : Nat) : State :=
  let x := s.ctx c
  let due := x.hostLog.filter (fun w => w.synced)
  let s := s.setCtx c { x with hostLog := x.hostLog.filter (fun w => !w.synced), syncBox := [], syncNow := x.syncNow ++ x.syncBox }
  due.foldl (fun u w => (linesOf w.va w.data.length).foldl (fun u k =>
    let lo := max w.va (64 * k)
    u.flushPart c num lo ((w.data.drop (lo - w.va)).take (64 * k + 64 - lo))) u) s

/-- The base dies that hold items of superstep num: module, stack, and whether an array acknowledgement will come. -/
def State.commitStacks (s : State) (c num : Nat) : List (Nat × Nat × Bool) :=
  s.mods.flatMap (fun e => e.2.stk.filterMap (fun k =>
    let mine := k.2.tbuf.filter (fun d => d.ctx == c && d.num == num)
    if mine.isEmpty then none
    else some (e.1, k.1, mine.any Delta.mirrored)))

/-- The tentative items of superstep num are discarded in every base die (R335). -/
def State.dropTentative (s : State) (c num : Nat) : State :=
  { s with mods := s.mods.map (fun (e : Nat × Module) => (e.1, { e.2 with stk := e.2.stk.map (fun (k : Nat × Stack) =>
      (k.1, { k.2 with tbuf := k.2.tbuf.filter (fun d => !(d.ctx == c && d.num == num)) })) })) }

/-- A checkpoint that has become durable comes to stand (R464): CHECKPOINT_DURABLE, and the journals forget what is older
(R465). -/
def State.standCheckpoint (s : State) (c : Nat) : State :=
  let x := s.ctx c
  match x.ckReady with
  | none => s
  | some n =>
    let s := s.setCtx c { x with durable := n, durSlot := 1 - x.durSlot, ckReady := none }
    let s := { s with mods := s.mods.map (fun (e : Nat × Module) => (e.1, { e.2 with stk := e.2.stk.map (fun (k : Nat × Stack) =>
      (k.1, { k.2 with journal := k.2.journal.filter (fun j => !(j.ctx == c && decide (j.num ≤ n))), journalFull := k.2.journalFull.filter (fun d => d != c) })) })) }
    s.emit x.home { ctx := BitVec.ofNat 32 c, ext := 0, code := 0x000D, strand := 0, unit := 0, value := BitVec.ofNat 64 n }

/-- A notice enters the queue of module m (R490, R492, R537): the host is signalled when the queue was empty. The queue shows the
last 1,024. -/
def State.notice (s : State) (m code c seq value : Nat) : State :=
  let md := s.mod m
  let n := BitVec.ofNat 256 (code % 2 ^ 16 + c % 256 * 2 ^ 16 + seq % 2 ^ 32 * 2 ^ 32 + value % 2 ^ 64 * 2 ^ 64)
  let l := md.notices ++ [n]
  s.setMod m { md with notices := l.drop (l.length - 1024), noticeTail := md.noticeTail + 1,
                       signals := if md.noticeHead = md.noticeTail then md.signals ++ [16] else md.signals }

/-- A notice about a context, at its home module, with the SEQ of its launch (R492). -/
def State.ctxNotice (s : State) (c code value : Nat) : State := s.notice (s.ctx c).home code c (s.ctx c).seqNo.toNat value

/-- RESULT is written in a mailbox, OWN becomes 0 and the host is signalled (R490). -/
def State.postResult (s : State) (m box code value : Nat) : State :=
  let md := s.mod m
  let mem := Memory.setNum md.mbox (4096 * box + 16) 8 (code % 256 + value % 2 ^ 56 * 256)
  s.setMod m { md with mbox := Memory.write mem (4096 * box + 2) 0, pending := md.pending.filter (fun b => b != box),
                       signals := md.signals ++ [box] }

/-- The commits of a context have all applied: the host-syncs that waited for them are answered (R491). -/
def State.answerSyncs (s : State) (c : Nat) : State :=
  if s.net.any (fun g => match g with | .baseCommit d _ _ _ => d == c | _ => false) then s
  else
    let l := (s.ctx c).syncNow
    l.foldl (fun u e => u.postResult e.1 e.2 0 0) (s.setCtx c { s.ctx c with syncNow := [] })

/-- A COMMIT of superstep n leaves the root: push deltas apply, instances due are exposed, new ones are triggered, host writes
and placed deltas are sent to be applied (R335, R395, R397, R414). -/
def State.commitRoot (s : State) (c n : Nat) : State :=
  let s := ((s.applyPushes c n).expose c (n + 1)).triggerAll c n
  let s := (s.retryPushes c).flushLog c n
  let l := s.commitStacks c n
  let s := l.foldl (fun u e => u.send (.baseCommit c e.1 e.2.1 n)) s
  (s.setCtx c { s.ctx c with acksDue := (s.ctx c).acksDue + (l.filter (fun e => e.2.2)).length }).answerSyncs c

/-- The node sends DECIDE to its children and opens the next superstep (R302, R304). -/
def State.passDecide (s : State) (c : Nat) (id : NodeId) (d : Decide) : State :=
  match (s.ctx c).node id with
  | none => s
  | some n =>
    let s := s.setCtx c ((s.ctx c).setNode { n with arrived := [], forwarded := false, leaving := [], num := d.nextNum })
    n.kids.foldl (fun u k => u.send (.decide c id k d)) s

/-- The threads of every instance of the context stop (R467). -/
def State.stopInstances (s : State) (c : Nat) : State :=
  (s.insts.filter (fun i => i.ctx == c)).foldl (fun u i => u.stopThreads i.id) s

/-- The launches that wait for a superstep of the context are told how it goes (R269). -/
def State.tellDeps (s : State) (c : Nat) (met : LaunchDep → DepSt) : State :=
  { s with mods := s.mods.map (fun e => (e.1, { e.2 with deps := e.2.deps.map (fun d =>
      if d.ctx = c ∧ d.st = .open_ then { d with st := met d } else d) })) }

/-- The barrier of the context has closed superstep n (R269). -/
def State.meetDeps (s : State) (c n : Nat) : State := s.tellDeps c (fun d => if d.num ≤ n then .met else .open_)

/-- The root decides the open superstep (R304, R314, R442, R443, R464): v the result before the limit on attempts, a the
combined arrival, held whether HOLD is asked for, limit whether ABORTLIM counts. -/
def State.decideRoot (s : State) (c : Nat) (v : Verdict) (a : Arrive) (held limit : Bool) : State :=
  let s := s.standCheckpoint c
  let x := s.ctx c
  let next := x.att + 1
  let v := if v = .abort ∧ 65535 < next then .fatal else v
  let atLimit : Bool := decide (v = .abort) && limit && next % x.abortLim == 0
  let hold : Bool := decide (v ≠ .fatal) && (x.preempt.isSome || held || atLimit)
  let ck : Bool := decide (v = .commit) && (a.ck || x.ckReq)
  let d : Decide :=
    { num := x.num, res := v, atile := a.atile, cause := a.cause, op := a.op, value := a.value, flags := a.flags,
      aflags := a.aflags ||| x.baseFlags, nextNum := if v = .commit then x.num + 1 else x.num,
      nextAtt := if v = .abort then next else if v = .commit then 0 else x.att, durable := x.durable, hold := hold, ck := ck }
  let tiles := s.ctxTiles c
  let s := s.setCtx c { x with num := d.nextNum, att := d.nextAtt, decided := some d, left := tiles, nodeVote := none,
                               baseFlags := if v = .commit then 0 else x.baseFlags,
                               cause := if v = .commit then x.cause else a.cause,
                               limit := if atLimit then some a.atile else x.limit, retried := x.retried && decide (v ≠ .commit),
                               preempt := if hold then none else x.preempt, fatal := x.fatal || decide (v = .fatal),
                               ckReq := x.ckReq && !ck, ckPending := if ck then some x.num else x.ckPending,
                               ckAcksDue := if ck then tiles.length else x.ckAcksDue }
  let ev := fun (s : State) (code : BitVec 16) (value : Nat) => s.emit x.home
    { ctx := BitVec.ofNat 32 c, ext := 0, code := code, strand := 0, unit := BitVec.ofNat 32 a.atile, value := BitVec.ofNat 64 value }
  let s := match v with
    | .commit => (s.commitRoot c x.num).meetDeps c x.num
    | _ => (s.dropTentative c x.num).dropPushes c x.num
  let s := if atLimit then
      ev s 0x0004 (next % 65536 + a.cause.toNat * 2 ^ 16 + a.code.toNat * 2 ^ 24 + x.num % 2 ^ 24 * 2 ^ 40) else s
  let s := if v = .fatal then
      (ev s 0x0005 (a.cause.toNat + (if a.irv then 2 ^ 8 else 0) + (if a.lost then 2 ^ 9 else 0) + x.num % 2 ^ 48 * 2 ^ 16)).stopInstances c
    else s
  s.passDecide c x.top d

/-- The votes that the root adds to the combined arrival: an invalid instance (R394) and a node's vote (R436). -/
def Ctx.rootVotes (x : Ctx) : List Arrive :=
  let vote := fun (t : Nat) (cause : BitVec 8) (hold : Bool) =>
    ({ arriveZero x.num with abort := true, atile := t, cause := cause, hold := hold } : Arrive)
  (match x.instanceFault x.num with | some v => [vote v cREMOTE false] | none => []) ++
    (match x.nodeVote with | some (cause, t, hold) => [vote t cause hold] | none => [])

/-- A base die has still to apply the last commit of the context (R335). -/
def State.applying (s : State) (c : Nat) : Bool := s.net.any (fun g => match g with | .baseCommit d _ _ _ => d == c | _ => false)

/-- A tile of the context is lost with its island: it never arrives (R499). -/
def State.missesTile (s : State) (c : Nat) : Bool :=
  (s.ctx c).downAt.isSome || s.clusters.any (fun e => e.2.ctx == some c && (e.2.lost || e.2.gone))

/-- The state that tile t had in context c is lost, or the tile belongs to c no more (R499). -/
def State.tileGone (s : State) (c t : Nat) : Bool :=
  let k := s.cluster (clusterOf t)
  k.ctx != some c || k.lost || k.gone

/-- The root decides when every child has arrived, once the apply flags of the last commit are there (R335), and, for a COMMIT, when the
array acknowledgements of the last commit, the pending checkpoint and the instances due allow it (R304, R336, R397, R432, R464). -/
def State.tryDecide (s : State) (c : Nat) : State :=
  let x := s.ctx c
  match x.node x.top with
  | none => s
  | some n =>
    if !x.started || x.held || x.fatal || x.done || x.decided.isSome || s.applying c || s.missesTile c || !n.kids.all (fun k => n.arrived.any (fun e => e.1 == k)) then s
    else
      let a := x.rootVotes.foldl combine2 n.combined
      if a.abort then s.decideRoot c (if a.irv || a.lost then .fatal else .abort) a a.hold true
      else if x.acksDue = 0 ∧ x.ckPending.isNone ∧ s.dueComplete c (x.num + 1) then s.decideRoot c .commit a false true
      else s

/-- An immediate decision of the open superstep (R411, R445, R538): not before the decision in flight has been run, and, for
a FATAL demanded of a held context, at the resume. -/
def State.demandNow (s : State) (c : Nat) : State :=
  let x := s.ctx c
  if !x.started || x.fatal || x.held || x.decided.isSome then s
  else
    let kept := match x.node x.top with | some n => n.combined.aflags | none => 0
    let a := { arriveZero x.num with aflags := kept }
    match x.demand with
    | none => s
    | some .force =>
      (s.setCtx c { x with demand := none }).decideRoot c .abort { a with abort := true, cause := 0xF2 } true false
    | some (.fatal cause t) =>
      (s.setCtx c { x with demand := none }).decideRoot c .fatal { a with abort := true, cause := cause, atile := t } false false

/-- A demand reaches the root (R538): a demand for FATAL stands over one for a forced abort; after FATAL none has effect. -/
def State.demandDecision (s : State) (c : Nat) (d : Demand) : State :=
  let x := s.ctx c
  if x.fatal then s
  else
    let d := match x.demand with | some (.fatal a b) => Demand.fatal a b | _ => d
    (s.setCtx c { x with demand := some d }).demandNow c

/-- SSN_MISMATCH (R303): the ATILE of this decision the spec does not state (log entry 4). -/
def State.ssnMismatch (s : State) (c : Nat) : State :=
  { s with free := s.free + 1 }.demandDecision c (.fatal cSSN ((Config.freeWord s.free).toNat % 2 ^ 27))

/-! ### Messages of the tree -/

/-- An ARRIVE reaches a node (R301, R303). -/
def State.nodeArrive (s : State) (c : Nat) (src dst : NodeId) (a : Arrive) : State :=
  let x := s.ctx c
  match x.node dst with
  | none => s
  | some n =>
    if a.num ≠ n.num then s.ssnMismatch c
    else
      let n := { n with arrived := n.arrived.filter (fun e => e.1 != src) ++ [(src, a)] }
      let s := s.setCtx c (x.setNode n)
      match n.parent with
      | none => s.tryDecide c
      | some p =>
        if n.kids.all (fun k => n.arrived.any (fun e => e.1 == k)) ∧ !n.forwarded then
          (s.setCtx c (x.setNode { n with forwarded := true })).send (.arrive c dst p n.combined)
        else s

/-- TREE_ARRIVE (R301): the ARRIVE at place State.ev.i of the messages reaches its node. -/
def execTreeArrive (s : State) : Host.Outcome State Fault Refusal :=
  match s.net[s.ev.i]? with
  | some (.arrive c src dst a) =>
    if !s.oldest s.ev.i then .next s
    else
      let u : State := { s with net := listDel s.net s.ev.i }
      if u.overtaken c src dst then .next u else .next (u.nodeArrive c src dst a)
  | _ => .next s

/-- A WITHDRAW reaches a node (R302, R303). -/
def State.nodeWithdraw (s : State) (c : Nat) (src dst : NodeId) (num : Nat) : State :=
  let x := s.ctx c
  match x.node dst with
  | none => s
  | some n =>
    if num ≠ n.num then s.ssnMismatch c
    else if !n.arrived.any (fun e => e.1 == src) then s
    else if n.forwarded then
      let s := s.setCtx c (x.setNode { n with leaving := n.leaving ++ [src] })
      match n.leaving, n.parent with
      | [], some p => s.send (.withdraw c dst p num)
      | _, _ => s
    else
      (s.setCtx c (x.setNode { n with arrived := n.arrived.filter (fun e => e.1 != src) })).send (.wconf c dst src num)

/-- TREE_WITHDRAW (R302): the WITHDRAW at place State.ev.i of the messages reaches its node. -/
def execTreeWithdraw (s : State) : Host.Outcome State Fault Refusal :=
  match s.net[s.ev.i]? with
  | some (.withdraw c src dst num) =>
    if !s.oldest s.ev.i then .next s
    else
      let u : State := { s with net := listDel s.net s.ev.i }
      if u.overtaken c src dst then .next u else .next (u.nodeWithdraw c src dst num)
  | _ => .next s

/-- A WCONF reaches a node: every withdrawing child is removed and confirmed (R302). -/
def State.nodeWconf (s : State) (c : Nat) (dst : NodeId) (num : Nat) : State :=
  let x := s.ctx c
  match x.node dst with
  | none => s
  | some n =>
    let s := s.setCtx c (x.setNode { n with
      arrived := n.arrived.filter (fun e => !n.leaving.contains e.1), forwarded := false, leaving := [] })
    n.leaving.foldl (fun u k => u.send (.wconf c dst k num)) s

/-- A WCONF reaches a tile (R305, R308): the strands whose deadline has expired end; when none does, the tile arrives again. -/
def State.tileWconf (s : State) (t : Nat) : State :=
  let x := s.tile t
  if x.bar ≠ .withdrawing then s
  else
    let s := s.setTile t { x with bar := .opened }
    let gone := strandIx.filter (s.arrivalOver t)
    let s := gone.foldl (fun u n => u.endWithdrawn t n) s
    if gone.isEmpty then s.formArrival t else s

/-- TREE_WCONF (R302, R308): the WCONF at place State.ev.i of the messages reaches a tile or a node. -/
def execTreeWconf (s : State) : Host.Outcome State Fault Refusal :=
  match s.net[s.ev.i]? with
  | some (.wconf c _ dst num) =>
    if !s.oldest s.ev.i then .next s
    else
      let u : State := { s with net := listDel s.net s.ev.i }
      match dst with
      | .tile t => .next (u.tileWconf t)
      | _ => .next (u.nodeWconf c dst num)
  | _ => .next s

/-! ### The commit and abort sequences of a tile -/

/-- The byte lies in the locked span of a next fetch (R382). -/
def Tile.spanLocked (x : Tile) (a : Nat) : Bool :=
  x.locks.any (fun l => l.use == .span && l.kind != .read && decide (l.lo ≤ a) && decide (a < l.lo + l.len))

/-- The record of a message delta (R295, R296). -/
def messageRecord (d : Delta) (eos : Bool) (l : List Byte) : List Byte :=
  recordBytes l.length (if eos then 1 else 0) 0 d.srcVt d.seq d.num l

/-- What the applied deltas of a commit have done so far: the tile, the apply flags, the deltas skipped, and the uncorrectable errors
met. -/
structure Applied where
  x     : Tile
  flags : BitVec 3
  skips : Nat
  bad   : List ErrAt
deriving DecidableEq, Repr

/-- The bytes of a record are written at an address but for those in the locked span of a next fetch (R382), which is answered. -/
def Tile.writeFree (x : Tile) (a : Nat) (l : List Byte) : Tile × Bool :=
  let cells := (span 0 l.length).zip l
  (cells.foldl (fun (y : Tile) c => if x.spanLocked (a + c.1) then y else y.writeBytes (a + c.1) [c.2]) x,
    cells.any (fun c => x.spanLocked (a + c.1)))

/-- The ring with a record written, if it fits, without what lies in the locked span of a next fetch (R298, R382). -/
def Tile.tryFree (x : Tile) (q : BitVec 2) (rec : List Byte) : Option (Tile × Bool) :=
  if !x.locks.any (fun l => l.use == .span && l.kind != .read) then (x.tryAppend q (x.cheadAt q) rec).map (fun y => (y, false))
  else (x.ringParts q (x.cheadAt q) rec).map (fun r =>
    let w := r.1.foldl (fun (w : Tile × Bool) p => let v := w.1.writeFree p.1 p.2; (v.1, w.2 || v.2)) (x, false)
    (w.1.setTail q r.2, w.2))

/-- One delta applies at a tile (R286, R287, R382). -/
def Applied.apply (p : Applied) (d : Delta) : Applied :=
  match d.body with
  | .store a mask data =>
    let cells := (storeElems mask data).map (fun e => (a + e.1, e.2))
    let free := cells.filter (fun c => !p.x.spanLocked c.1)
    { p with x := free.foldl (fun (y : Tile) c => y.writeBytes c.1 [c.2]) p.x, skips := p.skips + (if free.length < cells.length then 1 else 0) }
  | .reduce a op mask data =>
    let w := redSize op
    let all := (redElems op mask data).map (fun e => (a + e.1, e.2))
    let free := all.filter (fun c => !p.x.spanLocked c.1)
    let q := free.foldl (fun (q : Applied) c =>
      let v := reduceElem op (q.x.lm c.1 w) c.2
      let at_ := ErrAt.line (c.1 / 64)
      { q with x := q.x.writeBytes c.1 (toBytes w v.1), flags := q.flags ||| applyFlags v.2,
               bad := if q.x.hardAt at_ ∧ !q.bad.contains at_ then q.bad ++ [at_] else q.bad }) p
    { q with skips := q.skips + (if free.length < all.length then 1 else 0) }
  | .message q eos l =>
    let rec_ := messageRecord d eos l
    if p.x.overflowAt q ≠ [] then { p with x := p.x.appendRecord q rec_ }
    else match p.x.tryFree q rec_ with
      | some r => { p with x := r.1, skips := p.skips + (if r.2 then 1 else 0) }
      | none => { p with x := p.x.setOverflow q [rec_] }
  | .request .. => p

/-- The records of an overflow list that fit enter the ring, from the head of the list (R298). -/
def Applied.drain (q : BitVec 2) : List (List Byte) → Applied → Applied
  | [], p => { p with x := p.x.setOverflow q [] }
  | r :: l, p =>
    match p.x.tryFree q r with
    | some y => Applied.drain q l { p with x := y.1, skips := p.skips + (if y.2 then 1 else 0) }
    | none => { p with x := p.x.setOverflow q (r :: l) }

/-- CHEAD follows HEAD in every ring, then the overflow lists drain (R312 step 3). -/
def Applied.commitRings (p : Applied) : Applied :=
  let x := { p.x with chead := p.x.qcfg.map (fun q => BitVec.ofNat 16 (qHead q)) }
  strandIx.foldl (fun (p : Applied) q => Applied.drain q (p.x.overflowAt q) p) { p with x := x }

/-- A strand with START values and the carried state given (R268, R280); an entry address keeps its bits 1:0 only for the report at the
first fetch (R23, R29). -/
def Strand.fresh (r : Strand) (s : List Word) (dt : Vector (BitVec 32) 7) (dla : BitVec 48) (sen : BitVec 16) (st : StrandSt)
    (k : Vector Token 16) (flg : BitVec 19) : Strand :=
  { ({ } : Strand) with
    s := Vector.ofFn (fun i => if 1 ≤ i.val ∧ i.val ≤ 15 then s.getD (i.val - 1) 0 else 0), dt := dt, dla := dla, sen := sen &&& 0xFFFC,
    pc := sen &&& 0xFFFC, schcBase := r.schcBase, schcLen := r.schcLen, cur := 1, st := st, k := k, flg := flg, raised := r.raised, age := r.age, blocks := r.blocks, req := r.req,
    badEntry := if sen.toNat % 4 = 0 then none else some (sen.setWidth 64) }

/-- The tokens after a commit (R280): those of operations that carry over the barrier stay. -/
def carriedTokens (k : Vector Token 16) : Vector Token 16 :=
  k.map (fun t => if t.st = .pending ∧ (t.use = .fetchNext ∨ t.use = .coll) then t else {})

/-- A strand that stays RETIRED across a barrier keeps every register it held at RETIRE (R280). -/
def Strand.stayRetired (r : Strand) : Strand :=
  { r with retiredNow := false, refusal := false, oakTile := 0, oakCtx := 0, oakSys := 0 }

/-- A strand after the commit (R280, R310). -/
def Strand.commit (r : Strand) (d : Decide) : Strand :=
  let k := carriedTokens r.k
  let flg := flgStart d.aflags
  if r.st = .retired then r.stayRetired
  else
    let sen := match r.arrival with | some a => a.next | none => r.sen
    let y := r.fresh ((r.s.toList.drop 1).take 15) r.dt r.dla sen (if d.hold then .park else .run) k flg
    match r.arrival with
    | some a =>
      let v := if a.op = 0 then flagsWord d.flags d.aflags else d.value
      if a.dest = 0 then y else { y with s := y.s.set a.dest.toNat v a.dest.isLt }
    | none => y

/-- The snapshot of a strand's carried state (R280). -/
def Strand.snapshot (r : Strand) : SnapStrand := { s := (r.s.toList.drop 1).take 15, dt := r.dt, dla := r.dla, k := r.k }

/-- The tile with its strands replaced after a barrier. A stepped strand has none here: its tile counts as halted and keeps a decision
until RESUME (R508, R509). -/
def Tile.restart (x : Tile) (f : BitVec 2 → Strand) : Tile := { x with strands := #v[f 0, f 1, f 2, f 3] }

/-- A record posted after the decision of superstep num, attempt att: by a tile that has run it already. -/
def PostRec.newer (r : PostRec) (num att : Nat) : Bool := decide (num < r.num) || (r.num == num && decide (att < r.att))

/-- The post queues of a tile and the records on their way to it are emptied (R265), but for those of what follows the decision. -/
def State.dropPosts (s : State) (t : Nat) : State :=
  let x := s.tile t
  { s.setTile t { x with posts := x.posts.map (fun l => l.filter (fun r => r.newer x.num x.att)) } with
    net := s.net.filter (fun g => match g with | .post u _ r => u != t || r.newer x.num x.att | _ => true) }

/-- An error found in the superstep needed a pre-image that the commit releases (R305). -/
def Tile.losesPre (x : Tile) : Bool :=
  x.vote == cSRAM && x.errs.any (fun e => e.hard && (match e.loc with
    | .line k => (SMap.find x.pre k).isSome
    | .side k => (SMap.find x.pre k).isSome
    | .acc a => (SMap.find x.accPre a).isSome
    | _ => false))

/-- The collectives due end at the tile: their locks are released and their tokens become SET with status 0 (R397). -/
def Tile.exposeColl (x : Tile) (l : List CollReq) : Tile :=
  l.foldl (fun (y : Tile) r => y.endColl r.strand r.tok { st := .set, status := 0, use := .coll }) x

/-- The capture of a checkpoint image begins (R463): the image is written with the values of the commit, and its lines
stand as not yet captured until CHECKPOINT_CAPTURE_DONE. -/
def State.startCapture (s : State) (c t num : Nat) : State :=
  let s := s.imageReads t false
  let y := s.ctx c
  let slot := 1 - y.durSlot
  let x := s.tile t
  let a := y.slotAt slot x.vtid.toNat
  let s := s.writeImage t 1 num (physModule a) (physOffset a)
  let s := if y.partner = physModule a then s else s.writeImage t 1 num y.partner (physOffset a)
  let lines := (span 0 4096).filter (fun k => x.attr (64 * k) == 0 || x.attr (64 * k) == 2)
  let s := s.writeOverflow t
  s.setTile t { s.tile t with capture := some { slot := slot, num := num, lines := lines } }

/-- What a commit reads: correctable errors of the inbox and of the lines that reductions apply to are corrected and counted (R429). -/
def State.commitReads (s : State) (t num : Nat) : State :=
  let x := s.tile t
  let due := x.inbox.filter (fun e => e.num == num)
  if x.errs = [] ∨ due = [] then s
  else
    let lines := due.flatMap (fun d => match d.body with
      | .reduce a op mask data => (redElems op mask data).map (fun e => (a + e.1) / 64)
      | _ => [])
    lines.eraseDups.foldl (fun (u : State) k => u.correctAt t (.line k)) (s.correctAt t .inbox)

/-- The commit sequence of a tile (R312). An uncorrectable error that it meets is counted (R439) and makes the context FATAL (R433), over a
forced abort that is asked for (R538). -/
def State.commitTile (s : State) (c t : Nat) (d : Decide) : State :=
  let s := s.dropPosts t
  let s := s.commitReads t d.num
  let x := (s.tile t).performAll false
  let lost := x.vote ≠ 0 && (x.lost || x.losesPre)
  let poor := if x.hardAt .inbox ∧ x.inbox.any (fun e => e.num == d.num) then [ErrAt.inbox] else []
  let x := { x with pre := [], accPre := [], loose := [], landed := [], irv := false }
  let due := sortBy Delta.before (x.inbox.filter (fun e => e.num == d.num))
  let p := due.foldl Applied.apply ({ x := x, flags := 0, skips := 0, bad := poor } : Applied).commitRings
  let x := { p.x with inbox := x.inbox.filter (fun e => e.num != d.num), aflags := p.flags,
                      dbg := { p.x.dbg with skip := (span 0 p.skips).foldl (fun v _ => sat32 v) p.x.dbg.skip } }
  let lives := x.strands.toList.any (fun r => r.st != .retired)
  let x := x.restart (fun n => (x.strand n).commit d)
  let x := x.exposeColl (s.exposedAt c d.nextNum x.vtid.toNat)
  let x := if lives then { x with cb := Vector.replicate 4 0, ta := 0, tb := 0 } else x
  let x := { x with num := d.nextNum, att := d.nextAtt, iseq := 0, bar := .opened, lost := lost, hold := x.hold && x.vote != 0,
                    code := if x.vote = 0 then 0 else x.code, refusedQ := x.refusedQ.filter (fun e => decide (d.num < e.1)), refusedN := Vector.replicate 4 0,
                    snap := x.strands.map Strand.snapshot, snapRega0 := x.rega0, snapRega1 := x.rega1,
                    eng := x.eng.map (fun e => if e.next then { e with closed := true } else e) }
  let s := (s.setTile t x).finishNext t
  let s := if d.ck then s.startCapture c t d.num else s
  let s := s.barrierRecord t 0 d.num
  if p.bad = [] then s
  else
    let s := p.bad.foldl (fun u e => u.countError t cSRAM e.bank) s
    match (s.ctx c).demand with
    | some (.fatal _ _) => s
    | _ => s.setCtx c { s.ctx c with demand := some (.fatal cSRAM x.vtid.toNat) }

/-- Line pre-images and accumulators are restored, and the errors that an abort repairs are gone: those of what is written anew, of
SCRATCH lines, of registers and of the inbox (R313 step 2, R431). -/
def Tile.restorePre (x : Tile) : Tile :=
  let y := x.pre.foldl (fun (y : Tile) e =>
    (y.writeBytes (64 * e.1) (toBytes 64 e.2.bytes.toNat)).setBand e.1 e.2.band) x
  let y := x.accPre.foldl (fun (y : Tile) e => y.setAcc (BitVec.ofNat 3 e.1) e.2) y
  { y with errs := x.errs.filter (fun e => match e.loc with
      | .line k => (SMap.find x.pre k).isNone && x.attr (64 * k) != 1
      | .side k => (SMap.find x.pre k).isNone && x.attr (64 * k) != 1
      | .acc a => (SMap.find x.accPre a).isNone
      | .reg _ _ _ => false
      | .inbox => false
      | _ => true) }

/-- The bytes of a mask of a line as spans of single bytes. -/
def maskBytes (line : Nat) (mask : BitVec 64) : List Nat := ((span 0 64).filter (fun i => mask.getLsbD i)).map (fun i => 64 * line + i)

/-- What local memory holds after the pre-images are back (R276, R384): SCRATCH regions, bytes written without a pre-image
and lines an operation of the attempt wrote or may have written are not fixed. lines are those of the operations. -/
def State.unfix (s : State) (t : Nat) (loose : SMap LooseLine) (pre : SMap LinePre) (lines : List Nat) : State :=
  let s := lines.foldl (fun u k => if (u.tile t).attr (64 * k) = 3 then u else u.forget t (64 * k) 64) s
  let s := loose.foldl (fun u e =>
    if (SMap.find pre e.1).isSome ∨ (u.tile t).attr (64 * e.1) = 3 then u
    else (maskBytes e.1 e.2.mask).foldl (fun u a => u.forget t a 1) u) s
  (span 0 64).foldl (fun u r => if (u.tile t).attr (4096 * r) = 1 then u.forget t (4096 * r) 4096 else u) s

/-- The attributes of the regions that the lines of a span lie in become SCRATCH (R313 step 4). -/
def Tile.scratchSpan (x : Tile) (r : Nat × Nat) : Tile :=
  ((linesOf r.1 r.2).map (fun k => k / 64)).eraseDups.foldl (fun (y : Tile) g =>
    let one := fun (v : BitVec 64) (i : Nat) => (v &&& ~~~(3#64 <<< (2 * i))) ||| (1#64 <<< (2 * i))
    if g < 32 then { y with rega0 := one y.rega0 g } else { y with rega1 := one y.rega1 (g - 32) }) x

/-- The operations and collectives that the attempt issued are cancelled: their slots and locks are freed (R384, R398). -/
def Tile.cancelAttempt (x : Tile) : Tile :=
  let y := (x.eng.filter (fun e => e.step == x.num)).foldl (fun (y : Tile) e => y.cancelEng e.strand e.tok) x
  strandIx.foldl (fun (y : Tile) n => (span 0 16).foldl (fun (y : Tile) k =>
    let t := (x.strand n).tok (BitVec.ofNat 4 k)
    if t.st = .pending ∧ t.use = .coll ∧ t.step = x.num then y.unlock n (BitVec.ofNat 4 k) [.coll] else y) y) y

/-- A strand after an abort (R280, R313): it starts again at SEN with its snapshot, or stays RETIRED. -/
def Strand.abort (r : Strand) (p : SnapStrand) (d : Decide) : Strand :=
  let flg := flgStart d.aflags
  if (r.st = .retired ∧ !r.retiredNow) ∨ r.st = .idle then r.stayRetired
  else r.fresh p.s p.dt p.dla r.sen (if d.hold then .park else .run) p.k flg

/-- A strand that FATAL stops (R304). -/
def Strand.stopped (r : Strand) : Strand :=
  if r.st = .retired ∨ r.st = .idle then { r with oakTile := 0, oakCtx := 0, oakSys := 0 }
  else { r with st := .park, wait := none, stall := none, park := none, arrival := none, gread := none, walk := none, vseq := none,
                stepping := false, before := none, refusal := false, oakTile := 0, oakCtx := 0, oakSys := 0 }

/-- The tile's global reads in flight, by module and physical address: their responses still come when their instructions have gone (R339,
R519). -/
def Tile.readsOut (x : Tile) : List (Nat × Nat) :=
  x.strands.toList.filterMap (fun r => match r.gread with | some (.reading m pa _ _) => some (m, pa) | _ => none)

/-- Every strand of the tile stops in PARK and its deltas are discarded (R304). -/
def Tile.stopAll (x : Tile) : Tile :=
  let x := x.performAll false
  { x with strands := x.strands.map Strand.stopped, orphans := x.orphans ++ x.readsOut, inbox := [], bar := .opened, vote := 0, code := 0, lost := false, hold := false,
           refusedQ := [] }

/-- Queues whose refusals abort the superstep are counted; the count that reaches ABORTLIM is reported (R298). -/
def State.countRefusals (s : State) (c t num : Nat) : State :=
  (((s.tile t).refusedQ.filter (fun e => e.1 == num)).map Prod.snd).foldl (fun u q =>
    let y := u.tile t
    let n := y.refusedN.getD q 0 + 1
    let u := u.setTile t { y with refusedN := setAt y.refusedN q n }
    if n = (u.ctx c).abortLim then u.tileEvent t 0x0007 0 (BitVec.ofNat 64 (q + num % 2 ^ 48 * 2 ^ 16)) 0 else u) s

/-- An abort reads retention memory and the snapshot: a correctable error is corrected and counted, and with an uncorrectable one the tile
acts as if IRREV had executed (R429, R431). -/
def State.abortReads (s : State) (t : Nat) : State :=
  let marks := (s.tile t).errs.filter (fun e => match e.loc with | .retention _ => true | _ => false)
  match marks.find? (fun e => e.hard) with
  | some e =>
    let u := s.countError t cSRAM e.loc.bank
    u.setTile t (u.tile t).irrev
  | none => marks.foldl (fun u e => u.correctAt t e.loc) s

/-- The abort sequence of a tile (R313). A tile with IRV cannot restore its writes: it parks its strands and reports IRREVERSIBLE
(R445). -/
def State.abortTile (s : State) (c t : Nat) (d : Decide) : State :=
  let s := ((s.dropPosts t).countRefusals c t d.num).abortReads t
  let x := (s.tile t).performAll false
  let ops := x.eng.filter (fun e => e.step == x.num)
  let lines := (x.landed ++ ops.flatMap (fun e => if e.next then [] else x.destLines e)).eraseDups
  let nexts := (ops.filter (fun e => e.next)).map (fun e => fetchSpan e.desc)
  let y := x.cancelAttempt.restorePre
  let y := { y with mmaq := [], orphans := x.orphans ++ x.readsOut, locks := y.locks.filter (fun l => l.use != .mma), rega0 := x.snapRega0, rega1 := x.snapRega1 }
  let y := nexts.foldl Tile.scratchSpan y
  let rings : Fin 4 → Word := fun i =>
    let q := x.qcfg[i.val]
    qPack (x.chead[i.val]).toNat (qTail q) (qEn q) (qLog q) (qBase q)
  let y := { y with qcfg := Vector.ofFn rings,
                    inbox := x.inbox.filter (fun e => e.num != d.num), pre := [], accPre := [], loose := [], landed := [], sbuf := [] }
  let lives := x.strands.toList.any (fun r => !(r.st == .retired && !r.retiredNow))
  let y := (y.restart (fun n => (x.strand n).abort (x.snap[n.toNat]'(n.isLt)) { d with hold := d.hold || x.irv }))
  let y := if lives then { y with cb := Vector.replicate 4 0, ta := 0, tb := 0 } else y
  let y := { y with num := d.nextNum, att := d.nextAtt, iseq := 0, vote := 0, code := 0, lost := false, hold := false, bar := .opened,
                    refusedQ := [] }
  let s := (s.setTile t y).unfix t x.loose x.pre lines
  let s := if x.irv then (s.setCtx c { s.ctx c with irrev := true }).tileEvent t 0x000E 0 (BitVec.ofNat 64 d.num) 0 else s
  s.barrierRecord t 1 d.num

/-- FATAL at a tile (R304). -/
def State.fatalTile (s : State) (t : Nat) (d : Decide) : State :=
  let s := s.dropPosts t
  (s.setTile t (s.tile t).stopAll).barrierRecord t 2 d.num

/-- Every strand of every tile of the context has retired, in supersteps that have committed (R316): a strand that retires in the superstep
its tile has begun waits for that superstep's commit (R320). -/
def State.allRetired (s : State) (c : Nat) : Bool :=
  (s.ctxTiles c).all (fun t => (s.tile t).strands.toList.all (fun r => r.st == .retired && !r.retiredNow))

/-- The done word of the context (R316). -/
def State.doneWordOf (s : State) (c : Nat) : BitVec 26 :=
  (s.ctxTiles c).foldl (fun w t =>
    let v := (s.tile t).doneWord
    BitVec.ofNat 26 (max (w.toNat % 2 ^ 16) (v.toNat % 2 ^ 16) + (w.toNat / 2 ^ 16 ||| v.toNat / 2 ^ 16) * 2 ^ 16)) 0

/-- The done word reaches the supervisor and the host once the last commit stands in every array (R316, R358, R492). -/
def State.reportDone (s : State) (c : Nat) : State :=
  let x := s.ctx c
  match x.doneWord with
  | none => s
  | some w =>
    if x.acksDue ≠ 0 ∨ s.net.any (fun g => match g with | .baseCommit d _ _ _ => d == c | _ => false) then s
    else ((s.setCtx c { x with doneWord := none }).emit x.home
      { ctx := BitVec.ofNat 32 c, ext := 0, code := 0x0006, strand := 0, unit := 0, value := w.setWidth 64 }).ctxNotice c 1 w.toNat

/-- The instance may have to be restarted: a checkpoint that stands or is to stand lies between its trigger and its end (R467). -/
def Ctx.needsInst (x : Ctx) (i : Inst) : Bool :=
  (x.durable :: x.ckPending.toList ++ x.ckReady.toList).any (fun n => decide (i.num ≤ n) && decide (n + 1 < i.due))

/-- Every tile has run the decision: the context is held, done, decided again on a demand, or open (R316, R442, R538). -/
def State.finishDecision (s : State) (c : Nat) : State :=
  let x := s.ctx c
  match x.decided, x.left with
  | some d, [] =>
    let s := s.setCtx c { x with decided := none, held := x.held || d.hold,
                                 demand := match x.demand with
                                   | some .force => if d.hold ∨ d.res = .fatal then none else some .force
                                   | o => if d.res = .fatal then none else o }
    let s := if d.res = .commit then { s with insts := s.insts.filter (fun i => !(i.ctx == c && i.st == .exposed && !(s.ctx c).needsInst i)) } else s
    let s := if d.res = .commit ∧ s.allRetired c ∧ !x.done then
        ((s.setCtx c { s.ctx c with done := true, doneWord := some (s.doneWordOf c) }).tellDeps c (fun _ => .failed)).reportDone c else s
    if d.hold ∨ d.res = .fatal then s
    else if (s.ctx c).demand.isSome then s.demandNow c
    else (s.ctxTiles c).foldl State.formArrival s
  | _, _ => s

/-- A tile halted by the debugger, or with a strand in HALT, holds a decision (R508, R509). -/
def Tile.frozen (x : Tile) : Bool := x.dbg.halted || x.strands.toList.any (fun r => r.st == .halt)

/-- A tile runs a decision. -/
def State.runDecision (s : State) (c t : Nat) (d : Decide) : State :=
  let s := s.voidFrom c (.tile t)
  let s := match d.res with
    | .commit => s.commitTile c t d
    | .abort => s.abortTile c t d
    | .fatal => s.fatalTile t d
  let s := s.placeWithheld t
  (s.setCtx c { s.ctx c with left := (s.ctx c).left.filter (fun u => u != t) }).finishDecision c

/-- A DECIDE reaches a tile: what the tile has sent rootward is void from here on (R302). A frozen tile keeps the decision (R508). -/
def State.tileDecide (s : State) (c t : Nat) (d : Decide) : State :=
  let x := s.tile t
  if x.frozen then (s.setTile t { x with dbg := { x.dbg with decision := some d } }).voidFrom c (.tile t) else s.runDecision c t d

/-- A decision reaches a lost tile, which runs nothing; at an abort it counts as having reported IRREVERSIBLE (R499, R500). -/
def State.lostDecide (s : State) (c t : Nat) (v : Verdict) : State :=
  let u := s.voidFrom c (.tile t)
  (u.setCtx c { u.ctx c with irrev := (u.ctx c).irrev || decide (v = .abort), left := (u.ctx c).left.filter (fun k => k != t) }).finishDecision c

/-- TREE_DECIDE (R302, R304): the DECIDE at place State.ev.i of the messages reaches a tile or a node. -/
def execTreeDecide (s : State) : Host.Outcome State Fault Refusal :=
  match s.net[s.ev.i]? with
  | some (.decide c _ dst d) =>
    if !s.oldest s.ev.i then .next s
    else
      let u : State := { s with net := listDel s.net s.ev.i }
      match dst with
      | .tile t => .next (if u.tileGone c t then u.lostDecide c t d.res else u.tileDecide c t d)
      | _ => .next ((u.voidFrom c dst).passDecide c dst d)
  | _ => .next s

end Sys2Proof.Machine
end

