-- ==== Sys2Proof/WellFormed.lean ====
section
/-! DEFINITION. Which operands an instruction accepts: the ranges of its fields beyond what their widths give (R65 step 4),
the class of an instruction (R222) and the prefixes it accepts (R59). -/
namespace Sys2Proof

/-- The kinds of Instr. -/
inductive InstrKind where
  | scalar | vector | pfx | supervisor | chunk | event
deriving DecidableEq, Repr

/-- The operator and type pairs VRRED accepts (R292). -/
def redAccepts (o : BitVec 3) (y : BitVec 4) : Bool :=
  if o.toNat ≤ 2 then y.toNat == 2 || y.toNat == 3 || y.toNat == 6 || y.toNat == 7 || y.toNat == 8
  else o.toNat ≤ 5 && (y.toNat == 3 || y.toNat == 7)

/-- The operator and type pairs REDUCE accepts (R406). -/
def chunkRedAccepts (o : BitVec 3) (y : BitVec 4) : Bool :=
  if y.toNat ≤ 3 then o.toNat ≤ 5
  else if y.toNat ≤ 5 then o.toNat ≤ 2
  else y.toNat == 6 && o.toNat == 0

/-- The op values VOPS accepts in its payload (R168). -/
def vopsOp (op : BitVec 7) : Bool :=
  op.toNat ≤ 0x12 && op.toNat ≠ 0x08 && op.toNat ≠ 0x09 && op.toNat ≠ 0x0B

/-- The types VOPS accepts with an op (R159, R168). -/
def vopsAccepts (op : BitVec 7) (y : BitVec 4) : Bool :=
  if op.toNat ≤ 0x07 then y.toNat ≤ 10
  else if op.toNat == 0x0A then 8 ≤ y.toNat && y.toNat ≤ 10
  else if op.toNat ≤ 0x0F then y.toNat == 0
  else y.toNat ≤ 7

/-- The fields of the first word or of a prefix lie in their stated ranges. -/
def Instr.wfFirst : Instr → Bool
  | .bcmp _ _ c _ => c.toNat ≤ 5
  | .bws c _ => c.toNat ≤ 7
  | .bp _ n _ => n.toNat ≤ 3
  | .loop _ e => 1 ≤ e.toNat
  | .loopi e _ => 2 ≤ e.toNat
  | .loops _ _ e => 1 ≤ e.toNat
  | .trap c => 0x40 ≤ c.toNat
  | .svc c => 0x80 ≤ c.toNat
  | .prnd _ r => r.toNat ≤ 4
  | .vadd _ _ _ _ y => y.toNat ≤ 10
  | .vsub _ _ _ _ y => y.toNat ≤ 10
  | .vmul _ _ _ _ y => y.toNat ≤ 10
  | .vfma _ _ _ _ y => y.toNat ≤ 10
  | .vfms _ _ _ _ y => y.toNat ≤ 10
  | .vfnma _ _ _ _ y => y.toNat ≤ 10
  | .vmin _ _ _ _ y => y.toNat ≤ 10
  | .vmax _ _ _ _ y => y.toNat ≤ 10
  | .vabs _ _ _ y => y.toNat ≤ 10
  | .vneg _ _ _ y => y.toNat ≤ 10
  | .vdiv _ _ _ _ y => 8 ≤ y.toNat && y.toNat ≤ 10
  | .vsqrt _ _ _ y => 8 ≤ y.toNat && y.toNat ≤ 10
  | .vshl _ _ _ _ y => y.toNat ≤ 7
  | .vshr _ _ _ _ y => y.toNat ≤ 7
  | .vsra _ _ _ _ y => y.toNat ≤ 7
  | .vops _ _ _ y op _ => vopsAccepts op y
  | .vcmp _ _ _ c y => y.toNat ≤ 10 && (c.toNat ≤ 5 || 8 ≤ y.toNat)
  | .vext _ _ z i => i.toNat < 64 / 2 ^ z.toNat
  | .vins _ _ z i => i.toNat < 64 / 2 ^ z.toNat
  | .vperm _ _ _ _ y => y.toNat ≤ 12
  | .vredsum _ _ _ y => y.toNat ≤ 10
  | .vredmax _ _ _ y => y.toNat ≤ 10
  | .vredmin _ _ _ y => y.toNat ≤ 10
  | .vldb _ _ _ z _ f => f.toNat + 1 ≤ 8 * 2 ^ z.toNat
  | .vstb _ _ _ z f => f.toNat + 1 ≤ 8 * 2 ^ z.toNat
  | .accst _ _ y r n _ => (y.toNat == 0 || 8 ≤ y.toNat) && r.toNat + (n.toNat + 1) ≤ 16
  | .setd _ _ n => n.toNat ≤ 3
  | .fence _ _ s => s.toNat ≤ 2
  | .cbar _ a l _ o => l.toNat ≠ 0 && (o.toNat ≠ 0 || a.toNat == 0)
  | .vrred _ _ _ o y => redAccepts o y
  | .ldg _ _ l y => l.toNat ≠ 0 && y.toNat ≤ 6
  | .vldg _ _ l => l.toNat ≠ 0
  | .vstg x _ _ _ => x.toNat % 2 == 0
  | .vredg x _ _ _ => x.toNat % 2 == 0
  | .ill .. | .add .. | .sub .. | .and .. | .or .. | .xor .. | .andn .. | .shl .. | .shr .. | .sra .. | .rol ..
  | .min .. | .max .. | .minn .. | .maxn .. | .adds .. | .subs .. | .mul .. | .mulh .. | .mulhn .. | .div ..
  | .divn .. | .rem .. | .remn .. | .clz .. | .ctz .. | .popc .. | .brev .. | .seq .. | .sne .. | .slt .. | .sge ..
  | .sltn .. | .sgen .. | .cmov .. | .addi .. | .andi .. | .ori .. | .xori .. | .shli .. | .shri .. | .srai ..
  | .muli .. | .slti .. | .sltni .. | .lea .. | .ldk .. | .ldi .. | .ldih .. | .bext .. | .bins .. | .addpc ..
  | .ldI8 .. | .ldI16 .. | .ldI32 .. | .ldI64 .. | .ldN8 .. | .ldN16 .. | .ldN32 .. | .st8 .. | .st16 .. | .st32 ..
  | .st64 .. | .ldbits .. | .stbits .. | .amoadd32 .. | .amoand32 .. | .amoor32 .. | .amoxor32 .. | .amomin32 ..
  | .amomax32 .. | .amoswp32 .. | .amoadd64 .. | .amoand64 .. | .amoor64 .. | .amoxor64 .. | .amomin64 ..
  | .amomax64 .. | .amoswp64 .. | .amocas .. | .ldfe .. | .ldfeKeep .. | .stfe .. | .fetagSetf .. | .fetagSete ..
  | .fetagPeek .. | .bz .. | .bnz .. | .bltz .. | .bgez .. | .bgtz .. | .blez .. | .j .. | .jal .. | .jr ..
  | .jalr .. | .lbrk | .mfs .. | .mts .. | .rtt | .nop | .brk | .tmark .. | .retire | .pext .. | .pone
  | .poneRecordArrival | .vand .. | .vor .. | .vxor .. | .vandn .. | .vsel .. | .vcvt .. | .vbcast .. | .vld ..
  | .vst .. | .vgath .. | .vscat .. | .vldd .. | .vstd .. | .plogAnd .. | .plogOr .. | .plogXor .. | .plogAndn ..
  | .plogNot .. | .pmov .. | .pmovFrom .. | .pmovTo .. | .pcnt .. | .zacc .. | .mma .. | .mmaKblock | .accrd ..
  | .accld .. | .accsv .. | .accadd .. | .accanch .. | .cbld .. | .ldd .. | .kwait .. | .kwany .. | .waitc ..
  | .realign .. | .setdl .. | .now .. | .abortv .. | .irrev | .rst .. | .vrst .. | .rred .. | .msend ..
  | .msendEos .. | .msendg .. | .msendgEos .. | .mrecv .. | .stg .. | .redg .. | .fetchl .. | .fetchlNext ..
  | .wbl .. | .copy .. | .copyG .. | .coll .. | .rlstatLock .. | .rlstatProg .. | .rlstatFaddr .. | .nextt ..
  | .prio .. | .profrd .. | .profrdClr .. | .launch .. | .bindBind .. | .bindUnbind .. | .bindFence ..
  | .bindUnfence .. | .tmapMap .. | .tmapInval .. | .tmapGroup .. | .codestCode .. | .codestLocal .. | .codestReg ..
  | .codestChunk .. | .codestPtab .. | .startLaunch .. | .startResume .. | .startStrand .. | .quiesceRequest ..
  | .quiesceCkpt .. | .quiesceCancel .. | .quiescePark .. | .imgmvSave .. | .imgmvRestore .. | .imgmvMove ..
  | .keyld .. | .keyz .. | .scrubCluster .. | .scrubPages .. | .forceab .. | .dumpLog .. | .dumpCtx ..
  | .dumpTrace .. | .supervisorOpComplete | .chunkNop | .send | .recv | .reduce | .chunkCopy | .waitSig | .waitArm
  | .gather | .deliver | .armred | .mcast | .setg | .setgh | .movg | .addg | .addgr | .subgr | .mulgr | .remgr
  | .bnzg | .loopg | .signal | .halt | .abortc | .fencec | .chunkWaitMet | .chunkWaitExpiry | .chunkBoundExpiry
  | .chunkTransferComplete | .signalApply | .threadStart | .collRequestArrival | .pushDeltaArrival | .abortToken
  | .waitMet | .waitTimeout | .implicitDeadline | .fetchBlockServed | .cbarDeadlineExpiry | .treeArrive
  | .treeWithdraw | .treeWconf | .treeDecide | .deltaArrival | .globalDeltaArrival | .deltaAcknowledgement
  | .deltaRefusal | .baseDieCommit | .arrayAcknowledgement | .checkpointCaptureDone | .pageWalkComplete
  | .globalReadResponse | .engineLineArrival | .engineLocalLine | .refetchReport | .hostRead | .hostWrite
  | .launchRequest | .hostSync | .record | .preempt | .resumeRequest | .teardown | .attest | .keys | .recover
  | .writeSlot | .reboot | .eventDelivery | .plimExpiry | .lullReport | .scrubComplete | .scrubRestart | .scrubLine
  | .errorWindowEnd | .linkCrcFailure | .linkLockLoss | .treeRouteTimeout | .islandPowerLoss | .thermalThrottle
  | .thermalRecover | .thermalShutdown | .lowCoolantFlow | .moduleReset | .stackTrainingDone | .islctlWrite
  | .islandTransitionDone | .hrefWrite | .dropdWrite | .dctlHalt | .dctlResume | .dctlStep | .haltRequest | .daccRead
  | .daccWrite | .daccWaitToken | .daccWaitTimeout | .itctlWrite | .issueTraceStop | .registerWrite
  | .egressQueueChange | .contextClockStop | .laneLockLost | .laneLockRegained | .btctlWrite | .selfTestComplete
  | .coolantFlowRestored => true

/-- The fields of the payload lie in their stated ranges. -/
def Instr.wfPayload : Instr → Bool
  | .bext _ _ lo w => lo.toNat + (w.toNat + 1) ≤ 64
  | .bins _ _ lo w => lo.toNat + (w.toNat + 1) ≤ 64
  | .vops _ _ _ _ op _ => vopsOp op
  | .ill .. | .add .. | .sub .. | .and .. | .or .. | .xor .. | .andn .. | .shl .. | .shr .. | .sra .. | .rol ..
  | .min .. | .max .. | .minn .. | .maxn .. | .adds .. | .subs .. | .mul .. | .mulh .. | .mulhn .. | .div ..
  | .divn .. | .rem .. | .remn .. | .clz .. | .ctz .. | .popc .. | .brev .. | .seq .. | .sne .. | .slt .. | .sge ..
  | .sltn .. | .sgen .. | .cmov .. | .addi .. | .andi .. | .ori .. | .xori .. | .shli .. | .shri .. | .srai ..
  | .muli .. | .slti .. | .sltni .. | .lea .. | .ldk .. | .ldi .. | .ldih .. | .addpc .. | .ldI8 .. | .ldI16 ..
  | .ldI32 .. | .ldI64 .. | .ldN8 .. | .ldN16 .. | .ldN32 .. | .st8 .. | .st16 .. | .st32 .. | .st64 .. | .ldbits ..
  | .stbits .. | .amoadd32 .. | .amoand32 .. | .amoor32 .. | .amoxor32 .. | .amomin32 .. | .amomax32 ..
  | .amoswp32 .. | .amoadd64 .. | .amoand64 .. | .amoor64 .. | .amoxor64 .. | .amomin64 .. | .amomax64 ..
  | .amoswp64 .. | .amocas .. | .ldfe .. | .ldfeKeep .. | .stfe .. | .fetagSetf .. | .fetagSete .. | .fetagPeek ..
  | .bz .. | .bnz .. | .bltz .. | .bgez .. | .bgtz .. | .blez .. | .bcmp .. | .j .. | .jal .. | .jr .. | .jalr ..
  | .bws .. | .bp .. | .loop .. | .loopi .. | .loops .. | .lbrk | .mfs .. | .mts .. | .trap .. | .svc .. | .rtt
  | .nop | .brk | .tmark .. | .retire | .prnd .. | .pext .. | .pone | .poneRecordArrival | .vadd .. | .vsub ..
  | .vmul .. | .vfma .. | .vfms .. | .vfnma .. | .vmin .. | .vmax .. | .vabs .. | .vneg .. | .vdiv .. | .vsqrt ..
  | .vand .. | .vor .. | .vxor .. | .vandn .. | .vshl .. | .vshr .. | .vsra .. | .vcmp .. | .vsel .. | .vcvt ..
  | .vbcast .. | .vext .. | .vins .. | .vperm .. | .vredsum .. | .vredmax .. | .vredmin .. | .vld .. | .vst ..
  | .vldb .. | .vstb .. | .vgath .. | .vscat .. | .vldd .. | .vstd .. | .plogAnd .. | .plogOr .. | .plogXor ..
  | .plogAndn .. | .plogNot .. | .pmov .. | .pmovFrom .. | .pmovTo .. | .pcnt .. | .zacc .. | .mma .. | .mmaKblock
  | .accrd .. | .accst .. | .accld .. | .accsv .. | .accadd .. | .accanch .. | .cbld .. | .ldd .. | .setd ..
  | .kwait .. | .kwany .. | .waitc .. | .fence .. | .realign .. | .setdl .. | .now .. | .cbar .. | .abortv ..
  | .irrev | .rst .. | .vrst .. | .rred .. | .vrred .. | .msend .. | .msendEos .. | .msendg .. | .msendgEos ..
  | .mrecv .. | .ldg .. | .stg .. | .redg .. | .vldg .. | .vstg .. | .vredg .. | .fetchl .. | .fetchlNext ..
  | .wbl .. | .copy .. | .copyG .. | .coll .. | .rlstatLock .. | .rlstatProg .. | .rlstatFaddr .. | .nextt ..
  | .prio .. | .profrd .. | .profrdClr .. | .launch .. | .bindBind .. | .bindUnbind .. | .bindFence ..
  | .bindUnfence .. | .tmapMap .. | .tmapInval .. | .tmapGroup .. | .codestCode .. | .codestLocal .. | .codestReg ..
  | .codestChunk .. | .codestPtab .. | .startLaunch .. | .startResume .. | .startStrand .. | .quiesceRequest ..
  | .quiesceCkpt .. | .quiesceCancel .. | .quiescePark .. | .imgmvSave .. | .imgmvRestore .. | .imgmvMove ..
  | .keyld .. | .keyz .. | .scrubCluster .. | .scrubPages .. | .forceab .. | .dumpLog .. | .dumpCtx ..
  | .dumpTrace .. | .supervisorOpComplete | .chunkNop | .send | .recv | .reduce | .chunkCopy | .waitSig | .waitArm
  | .gather | .deliver | .armred | .mcast | .setg | .setgh | .movg | .addg | .addgr | .subgr | .mulgr | .remgr
  | .bnzg | .loopg | .signal | .halt | .abortc | .fencec | .chunkWaitMet | .chunkWaitExpiry | .chunkBoundExpiry
  | .chunkTransferComplete | .signalApply | .threadStart | .collRequestArrival | .pushDeltaArrival | .abortToken
  | .waitMet | .waitTimeout | .implicitDeadline | .fetchBlockServed | .cbarDeadlineExpiry | .treeArrive
  | .treeWithdraw | .treeWconf | .treeDecide | .deltaArrival | .globalDeltaArrival | .deltaAcknowledgement
  | .deltaRefusal | .baseDieCommit | .arrayAcknowledgement | .checkpointCaptureDone | .pageWalkComplete
  | .globalReadResponse | .engineLineArrival | .engineLocalLine | .refetchReport | .hostRead | .hostWrite
  | .launchRequest | .hostSync | .record | .preempt | .resumeRequest | .teardown | .attest | .keys | .recover
  | .writeSlot | .reboot | .eventDelivery | .plimExpiry | .lullReport | .scrubComplete | .scrubRestart | .scrubLine
  | .errorWindowEnd | .linkCrcFailure | .linkLockLoss | .treeRouteTimeout | .islandPowerLoss | .thermalThrottle
  | .thermalRecover | .thermalShutdown | .lowCoolantFlow | .moduleReset | .stackTrainingDone | .islctlWrite
  | .islandTransitionDone | .hrefWrite | .dropdWrite | .dctlHalt | .dctlResume | .dctlStep | .haltRequest | .daccRead
  | .daccWrite | .daccWaitToken | .daccWaitTimeout | .itctlWrite | .issueTraceStop | .registerWrite
  | .egressQueueChange | .contextClockStop | .laneLockLost | .laneLockRegained | .btctlWrite | .selfTestComplete
  | .coolantFlowRestored => true

/-- The instruction is well formed. -/
def Instr.wf (i : Instr) : Bool := i.wfFirst && i.wfPayload

/-- What an instruction is: a unit of the scalar or the vector class (R222), a prefix word (R55), a supervisor
instruction (R481), a chunk instruction (R399), or a step of another agent. -/
def Instr.kind : Instr → InstrKind
  | .ill .. | .add .. | .sub .. | .and .. | .or .. | .xor .. | .andn .. | .shl .. | .shr .. | .sra .. | .rol ..
  | .min .. | .max .. | .minn .. | .maxn .. | .adds .. | .subs .. | .mul .. | .mulh .. | .mulhn .. | .div ..
  | .divn .. | .rem .. | .remn .. | .clz .. | .ctz .. | .popc .. | .brev .. | .seq .. | .sne .. | .slt .. | .sge ..
  | .sltn .. | .sgen .. | .cmov .. | .addi .. | .andi .. | .ori .. | .xori .. | .shli .. | .shri .. | .srai ..
  | .muli .. | .slti .. | .sltni .. | .lea .. | .ldk .. | .ldi .. | .ldih .. | .bext .. | .bins .. | .addpc ..
  | .ldI8 .. | .ldI16 .. | .ldI32 .. | .ldI64 .. | .ldN8 .. | .ldN16 .. | .ldN32 .. | .st8 .. | .st16 .. | .st32 ..
  | .st64 .. | .ldbits .. | .stbits .. | .amoadd32 .. | .amoand32 .. | .amoor32 .. | .amoxor32 .. | .amomin32 ..
  | .amomax32 .. | .amoswp32 .. | .amoadd64 .. | .amoand64 .. | .amoor64 .. | .amoxor64 .. | .amomin64 ..
  | .amomax64 .. | .amoswp64 .. | .amocas .. | .ldfe .. | .ldfeKeep .. | .stfe .. | .fetagSetf .. | .fetagSete ..
  | .fetagPeek .. | .bz .. | .bnz .. | .bltz .. | .bgez .. | .bgtz .. | .blez .. | .bcmp .. | .j .. | .jal ..
  | .jr .. | .jalr .. | .bws .. | .bp .. | .loop .. | .loopi .. | .loops .. | .lbrk | .mfs .. | .mts .. | .trap ..
  | .svc .. | .rtt | .nop | .brk | .tmark .. | .retire => .scalar
  | .vadd .. | .vsub .. | .vmul .. | .vfma .. | .vfms .. | .vfnma .. | .vmin .. | .vmax .. | .vabs .. | .vneg ..
  | .vdiv .. | .vsqrt .. | .vand .. | .vor .. | .vxor .. | .vandn .. | .vshl .. | .vshr .. | .vsra .. | .vops ..
  | .vcmp .. | .vsel .. | .vcvt .. | .vbcast .. | .vext .. | .vins .. | .vperm .. | .vredsum .. | .vredmax ..
  | .vredmin .. | .vld .. | .vst .. | .vldb .. | .vstb .. | .vgath .. | .vscat .. | .vldd .. | .vstd .. | .plogAnd ..
  | .plogOr .. | .plogXor .. | .plogAndn .. | .plogNot .. | .pmov .. | .pmovFrom .. | .pmovTo .. | .pcnt ..
  | .zacc .. | .mma .. | .accrd .. | .accst .. | .accld .. | .accsv .. | .accadd .. | .accanch .. | .cbld ..
  | .ldd .. | .setd .. | .kwait .. | .kwany .. | .waitc .. | .fence .. | .realign .. | .setdl .. | .now .. | .cbar ..
  | .abortv .. | .irrev | .rst .. | .vrst .. | .rred .. | .vrred .. | .msend .. | .msendEos .. | .msendg ..
  | .msendgEos .. | .mrecv .. | .ldg .. | .stg .. | .redg .. | .vldg .. | .vstg .. | .vredg .. | .fetchl ..
  | .fetchlNext .. | .wbl .. | .copy .. | .copyG .. | .coll .. | .rlstatLock .. | .rlstatProg .. | .rlstatFaddr ..
  | .nextt .. | .prio .. | .profrd .. | .profrdClr .. => .vector
  | .prnd .. | .pext .. | .pone => .pfx
  | .launch .. | .bindBind .. | .bindUnbind .. | .bindFence .. | .bindUnfence .. | .tmapMap .. | .tmapInval ..
  | .tmapGroup .. | .codestCode .. | .codestLocal .. | .codestReg .. | .codestChunk .. | .codestPtab ..
  | .startLaunch .. | .startResume .. | .startStrand .. | .quiesceRequest .. | .quiesceCkpt .. | .quiesceCancel ..
  | .quiescePark .. | .imgmvSave .. | .imgmvRestore .. | .imgmvMove .. | .keyld .. | .keyz .. | .scrubCluster ..
  | .scrubPages .. | .forceab .. | .dumpLog .. | .dumpCtx .. | .dumpTrace .. => .supervisor
  | .chunkNop | .send | .recv | .reduce | .chunkCopy | .waitSig | .waitArm | .gather | .deliver | .armred | .mcast
  | .setg | .setgh | .movg | .addg | .addgr | .subgr | .mulgr | .remgr | .bnzg | .loopg | .signal | .halt | .abortc
  | .fencec => .chunk
  | .poneRecordArrival | .mmaKblock | .supervisorOpComplete | .chunkWaitMet | .chunkWaitExpiry | .chunkBoundExpiry
  | .chunkTransferComplete | .signalApply | .threadStart | .collRequestArrival | .pushDeltaArrival | .abortToken
  | .waitMet | .waitTimeout | .implicitDeadline | .fetchBlockServed | .cbarDeadlineExpiry | .treeArrive
  | .treeWithdraw | .treeWconf | .treeDecide | .deltaArrival | .globalDeltaArrival | .deltaAcknowledgement
  | .deltaRefusal | .baseDieCommit | .arrayAcknowledgement | .checkpointCaptureDone | .pageWalkComplete
  | .globalReadResponse | .engineLineArrival | .engineLocalLine | .refetchReport | .hostRead | .hostWrite
  | .launchRequest | .hostSync | .record | .preempt | .resumeRequest | .teardown | .attest | .keys | .recover
  | .writeSlot | .reboot | .eventDelivery | .plimExpiry | .lullReport | .scrubComplete | .scrubRestart | .scrubLine
  | .errorWindowEnd | .linkCrcFailure | .linkLockLoss | .treeRouteTimeout | .islandPowerLoss | .thermalThrottle
  | .thermalRecover | .thermalShutdown | .lowCoolantFlow | .moduleReset | .stackTrainingDone | .islctlWrite
  | .islandTransitionDone | .hrefWrite | .dropdWrite | .dctlHalt | .dctlResume | .dctlStep | .haltRequest | .daccRead
  | .daccWrite | .daccWaitToken | .daccWaitTimeout | .itctlWrite | .issueTraceStop | .registerWrite
  | .egressQueueChange | .contextClockStop | .laneLockLost | .laneLockRegained | .btctlWrite | .selfTestComplete
  | .coolantFlowRestored => .event

/-- PRND is accepted (R59). -/
def Instr.acceptsPrnd : Instr → Bool
  | .vadd .. | .vsub .. | .vmul .. | .vfma .. | .vfms .. | .vfnma .. | .vabs .. | .vneg .. | .vdiv .. | .vsqrt ..
  | .vcvt .. | .vredsum .. | .vops .. | .accrd .. => true
  | _ => false

/-- PEXT is accepted (R59). -/
def Instr.acceptsPext : Instr → Bool
  | .addi .. | .andi .. | .ori .. | .xori .. | .muli .. | .slti .. | .sltni .. | .ldk .. | .ldI8 .. | .ldI16 ..
  | .ldI32 .. | .ldI64 .. | .ldN8 .. | .ldN16 .. | .ldN32 .. | .st8 .. | .st16 .. | .st32 .. | .st64 .. | .bz ..
  | .bnz .. | .bltz .. | .bgez .. | .bgtz .. | .blez .. | .bws .. | .bp .. | .j .. | .jal .. | .vld .. | .vst ..
  | .vldd .. | .vstd .. => true
  | _ => false

/-- PONE is accepted (R59). -/
def Instr.acceptsPone : Instr → Bool
  | .ldI8 .. | .ldI16 .. | .ldI32 .. | .ldI64 .. | .ldN8 .. | .ldN16 .. | .ldN32 .. | .vld .. | .ldg .. | .vldg .. => true
  | _ => false

/-- The bits of X that PEXT must leave zero for an instruction (R57): those beyond a 32-bit extended immediate. -/
def Instr.pextLimit : Instr → Nat
  | .ldk .. | .bz .. | .bnz .. | .bltz .. | .bgez .. | .bgtz .. | .blez .. | .bws .. | .bp .. => 2 ^ 16
  | .j .. | .jal .. => 2 ^ 10
  | _ => 2 ^ 22

/-- The instruction has two words (R44). -/
def Instr.isPair : Instr → Bool
  | .ldi .. | .ldih .. | .bext .. | .bins .. | .addpc .. | .amocas .. | .bcmp .. | .loopi .. | .waitc .. | .vops .. => true
  | i => i.kind == .supervisor

end Sys2Proof
end

