-- ==== Sys2Proof/Decode.lean ====
section
/-! DEFINITION. The decoder and, after it, the encoder, of strand words (02_encoding.md), of prefix words and of chunk
instructions (16_collectives.md R399, R402). Decoding is total: a word that is no instruction is rejected by the name of
the check of R65 that it fails. The T bit is no operand (R50). -/
namespace Sys2Proof

/-- Why a word is no instruction: the checks 3 and 4 of R65 it fails. -/
inductive DecodeError where
  /-- OP or fn is not assigned: ILLEGAL_OPCODE, SUB 0 -/
  | unassigned
  /-- a reserved field of the first word is not zero or a field is out of range: ILLEGAL_ENCODING, SUB 0 -/
  | reserved
  /-- the same of the payload: ILLEGAL_ENCODING, SUB 1 -/
  | payload
deriving DecidableEq, Repr

/-- The n bits of w from bit lo up. -/
def fld (w : BitVec 32) (lo n : Nat) : BitVec n := BitVec.ofNat n (w.toNat / 2 ^ lo)

/-- An instruction of one word: the bits of zmask must be zero and the fields in range (R65 step 4). -/
def row (w : BitVec 32) (zmask : Nat) (i : Instr) : Except DecodeError Instr :=
  if w.toNat &&& zmask ≠ 0 then .error .reserved
  else if i.wfFirst then .ok i else .error .reserved

/-- An instruction of two words: the first word is checked, then the payload (R65 step 4). -/
def pair (w : BitVec 32) (zmask : Nat) (payload : BitVec 32) (pmask : Nat) (i : Instr) : Except DecodeError Instr :=
  if w.toNat &&& zmask ≠ 0 then .error .reserved
  else if !i.wfFirst then .error .reserved
  else if payload.toNat &&& pmask ≠ 0 then .error .payload
  else if i.wfPayload then .ok i else .error .payload

/-- VOPS: the reserved fields of the first word, then the payload, then the type (R168). -/
def pairVops (w payload : BitVec 32) (i : Instr) : Except DecodeError Instr :=
  if w.toNat &&& 0xF80 ≠ 0 then .error .reserved
  else if payload.toNat &&& 0xFFFFE000 ≠ 0 then .error .payload
  else if !i.wfPayload then .error .payload
  else if i.wfFirst then .ok i else .error .reserved

/-- Space A (R61). -/
def decodeA (w : BitVec 32) : Except DecodeError Instr :=
  match (fld w 22 7).toNat with
  | 0x00 => row w 0x000000 (.ill (fld w 0 22))
  | 0x01 =>
    match (fld w 0 4).toNat with
    | 0 => row w 0x000000 (.add (fld w 16 6) (fld w 10 6) (fld w 4 6))
    | 1 => row w 0x000000 (.sub (fld w 16 6) (fld w 10 6) (fld w 4 6))
    | 2 => row w 0x000000 (.and (fld w 16 6) (fld w 10 6) (fld w 4 6))
    | 3 => row w 0x000000 (.or (fld w 16 6) (fld w 10 6) (fld w 4 6))
    | 4 => row w 0x000000 (.xor (fld w 16 6) (fld w 10 6) (fld w 4 6))
    | 5 => row w 0x000000 (.andn (fld w 16 6) (fld w 10 6) (fld w 4 6))
    | 6 => row w 0x000000 (.shl (fld w 16 6) (fld w 10 6) (fld w 4 6))
    | 7 => row w 0x000000 (.shr (fld w 16 6) (fld w 10 6) (fld w 4 6))
    | 8 => row w 0x000000 (.sra (fld w 16 6) (fld w 10 6) (fld w 4 6))
    | 9 => row w 0x000000 (.rol (fld w 16 6) (fld w 10 6) (fld w 4 6))
    | 10 => row w 0x000000 (.min (fld w 16 6) (fld w 10 6) (fld w 4 6))
    | 11 => row w 0x000000 (.max (fld w 16 6) (fld w 10 6) (fld w 4 6))
    | 12 => row w 0x000000 (.minn (fld w 16 6) (fld w 10 6) (fld w 4 6))
    | 13 => row w 0x000000 (.maxn (fld w 16 6) (fld w 10 6) (fld w 4 6))
    | 14 => row w 0x000000 (.adds (fld w 16 6) (fld w 10 6) (fld w 4 6))
    | _ => row w 0x000000 (.subs (fld w 16 6) (fld w 10 6) (fld w 4 6))
  | 0x02 =>
    match (fld w 0 4).toNat with
    | 0 => row w 0x000000 (.mul (fld w 16 6) (fld w 10 6) (fld w 4 6))
    | 1 => row w 0x000000 (.mulh (fld w 16 6) (fld w 10 6) (fld w 4 6))
    | 2 => row w 0x000000 (.mulhn (fld w 16 6) (fld w 10 6) (fld w 4 6))
    | 3 => row w 0x000000 (.div (fld w 16 6) (fld w 10 6) (fld w 4 6))
    | 4 => row w 0x000000 (.divn (fld w 16 6) (fld w 10 6) (fld w 4 6))
    | 5 => row w 0x000000 (.rem (fld w 16 6) (fld w 10 6) (fld w 4 6))
    | 6 => row w 0x000000 (.remn (fld w 16 6) (fld w 10 6) (fld w 4 6))
    | 7 => row w 0x0003F0 (.clz (fld w 16 6) (fld w 10 6))
    | 8 => row w 0x0003F0 (.ctz (fld w 16 6) (fld w 10 6))
    | 9 => row w 0x0003F0 (.popc (fld w 16 6) (fld w 10 6))
    | 10 => row w 0x0003F0 (.brev (fld w 16 6) (fld w 10 6))
    | _ => .error .unassigned
  | 0x03 =>
    match (fld w 0 4).toNat with
    | 0 => row w 0x000000 (.seq (fld w 16 6) (fld w 10 6) (fld w 4 6))
    | 1 => row w 0x000000 (.sne (fld w 16 6) (fld w 10 6) (fld w 4 6))
    | 2 => row w 0x000000 (.slt (fld w 16 6) (fld w 10 6) (fld w 4 6))
    | 3 => row w 0x000000 (.sge (fld w 16 6) (fld w 10 6) (fld w 4 6))
    | 4 => row w 0x000000 (.sltn (fld w 16 6) (fld w 10 6) (fld w 4 6))
    | 5 => row w 0x000000 (.sgen (fld w 16 6) (fld w 10 6) (fld w 4 6))
    | 6 => row w 0x000000 (.cmov (fld w 16 6) (fld w 10 6) (fld w 4 6))
    | _ => .error .unassigned
  | 0x04 => row w 0x000000 (.addi (fld w 16 6) (fld w 10 6) (fld w 0 10))
  | 0x05 => row w 0x000000 (.andi (fld w 16 6) (fld w 10 6) (fld w 0 10))
  | 0x06 => row w 0x000000 (.ori (fld w 16 6) (fld w 10 6) (fld w 0 10))
  | 0x07 => row w 0x000000 (.xori (fld w 16 6) (fld w 10 6) (fld w 0 10))
  | 0x08 => row w 0x0003C0 (.shli (fld w 16 6) (fld w 10 6) (fld w 0 6))
  | 0x09 => row w 0x0003C0 (.shri (fld w 16 6) (fld w 10 6) (fld w 0 6))
  | 0x0A => row w 0x0003C0 (.srai (fld w 16 6) (fld w 10 6) (fld w 0 6))
  | 0x0B => row w 0x000000 (.muli (fld w 16 6) (fld w 10 6) (fld w 0 10))
  | 0x0C => row w 0x000000 (.slti (fld w 16 6) (fld w 10 6) (fld w 0 10))
  | 0x0D => row w 0x000000 (.sltni (fld w 16 6) (fld w 10 6) (fld w 0 10))
  | 0x0E => row w 0x000008 (.lea (fld w 16 6) (fld w 10 6) (fld w 4 6) (fld w 0 3))
  | 0x0F => row w 0x000000 (.ldk (fld w 16 6) (fld w 0 16))
  | 0x10 => row w 0x000000 (.ldI8 (fld w 16 6) (fld w 10 6) (fld w 0 10))
  | 0x11 => row w 0x000000 (.ldI16 (fld w 16 6) (fld w 10 6) (fld w 0 10))
  | 0x12 => row w 0x000000 (.ldI32 (fld w 16 6) (fld w 10 6) (fld w 0 10))
  | 0x13 => row w 0x000000 (.ldI64 (fld w 16 6) (fld w 10 6) (fld w 0 10))
  | 0x14 => row w 0x000000 (.ldN8 (fld w 16 6) (fld w 10 6) (fld w 0 10))
  | 0x15 => row w 0x000000 (.ldN16 (fld w 16 6) (fld w 10 6) (fld w 0 10))
  | 0x16 => row w 0x000000 (.ldN32 (fld w 16 6) (fld w 10 6) (fld w 0 10))
  | 0x17 => row w 0x000000 (.st8 (fld w 16 6) (fld w 10 6) (fld w 0 10))
  | 0x18 => row w 0x000000 (.st16 (fld w 16 6) (fld w 10 6) (fld w 0 10))
  | 0x19 => row w 0x000000 (.st32 (fld w 16 6) (fld w 10 6) (fld w 0 10))
  | 0x1A => row w 0x000000 (.st64 (fld w 16 6) (fld w 10 6) (fld w 0 10))
  | 0x1B => row w 0x0003C0 (.ldbits (fld w 16 6) (fld w 10 6) (fld w 0 6))
  | 0x1C => row w 0x0003C0 (.stbits (fld w 16 6) (fld w 10 6) (fld w 0 6))
  | 0x1D =>
    match (fld w 0 4).toNat with
    | 0 => row w 0x000000 (.amoadd32 (fld w 16 6) (fld w 10 6) (fld w 4 6))
    | 1 => row w 0x000000 (.amoand32 (fld w 16 6) (fld w 10 6) (fld w 4 6))
    | 2 => row w 0x000000 (.amoor32 (fld w 16 6) (fld w 10 6) (fld w 4 6))
    | 3 => row w 0x000000 (.amoxor32 (fld w 16 6) (fld w 10 6) (fld w 4 6))
    | 4 => row w 0x000000 (.amomin32 (fld w 16 6) (fld w 10 6) (fld w 4 6))
    | 5 => row w 0x000000 (.amomax32 (fld w 16 6) (fld w 10 6) (fld w 4 6))
    | 6 => row w 0x000000 (.amoswp32 (fld w 16 6) (fld w 10 6) (fld w 4 6))
    | 8 => row w 0x000000 (.amoadd64 (fld w 16 6) (fld w 10 6) (fld w 4 6))
    | 9 => row w 0x000000 (.amoand64 (fld w 16 6) (fld w 10 6) (fld w 4 6))
    | 10 => row w 0x000000 (.amoor64 (fld w 16 6) (fld w 10 6) (fld w 4 6))
    | 11 => row w 0x000000 (.amoxor64 (fld w 16 6) (fld w 10 6) (fld w 4 6))
    | 12 => row w 0x000000 (.amomin64 (fld w 16 6) (fld w 10 6) (fld w 4 6))
    | 13 => row w 0x000000 (.amomax64 (fld w 16 6) (fld w 10 6) (fld w 4 6))
    | 14 => row w 0x000000 (.amoswp64 (fld w 16 6) (fld w 10 6) (fld w 4 6))
    | _ => .error .unassigned
  | 0x1E =>
    match (fld w 0 1).toNat with
    | 0 => row w 0x00007E (.ldfe (fld w 16 6) (fld w 10 6) (fld w 7 3))
    | _ => row w 0x00007E (.ldfeKeep (fld w 16 6) (fld w 10 6) (fld w 7 3))
  | 0x1F => row w 0x00007F (.stfe (fld w 16 6) (fld w 10 6) (fld w 7 3))
  | 0x20 =>
    match (fld w 0 4).toNat with
    | 0 => row w 0x000000 (.fetagSetf (fld w 16 6) (fld w 10 6) (fld w 4 6))
    | 1 => row w 0x000000 (.fetagSete (fld w 16 6) (fld w 10 6) (fld w 4 6))
    | 2 => row w 0x0003F0 (.fetagPeek (fld w 16 6) (fld w 10 6))
    | _ => .error .unassigned
  | 0x21 => row w 0x000000 (.bz (fld w 16 6) (fld w 0 16))
  | 0x22 => row w 0x000000 (.bnz (fld w 16 6) (fld w 0 16))
  | 0x23 => row w 0x000000 (.bltz (fld w 16 6) (fld w 0 16))
  | 0x24 => row w 0x000000 (.bgez (fld w 16 6) (fld w 0 16))
  | 0x25 => row w 0x000000 (.bgtz (fld w 16 6) (fld w 0 16))
  | 0x26 => row w 0x000000 (.blez (fld w 16 6) (fld w 0 16))
  | 0x27 => row w 0x000000 (.j (fld w 0 22))
  | 0x28 => row w 0x000000 (.jal (fld w 0 22))
  | 0x29 => row w 0x3F03FF (.jr (fld w 10 6))
  | 0x2A => row w 0x0003FF (.jalr (fld w 16 6) (fld w 10 6))
  | 0x2B => row w 0x000000 (.bws (fld w 16 6) (fld w 0 16))
  | 0x2C => row w 0x000000 (.bp (fld w 19 3) (fld w 16 3) (fld w 0 16))
  | 0x2D => row w 0x000000 (.loop (fld w 16 6) (fld w 0 16))
  | 0x2E => row w 0x010000 (.loops (fld w 20 2) (fld w 17 3) (fld w 0 16))
  | 0x2F => row w 0x3FFFFF (.lbrk)
  | 0x30 => row w 0x00FC00 (.mfs (fld w 16 6) (fld w 0 10))
  | 0x31 => row w 0x3F0000 (.mts (fld w 10 6) (fld w 0 10))
  | 0x32 => row w 0x3FFF80 (.trap (fld w 0 7))
  | 0x33 => row w 0x3FFF00 (.svc (fld w 0 8))
  | 0x34 => row w 0x3FFFFF (.rtt)
  | 0x35 => row w 0x3FFFFF (.nop)
  | 0x36 => row w 0x3FFFFF (.brk)
  | 0x37 => row w 0x000000 (.tmark (fld w 0 22))
  | 0x38 => row w 0x3FFFFF (.retire)
  | _ => .error .unassigned

/-- Space B (R63). -/
def decodeB (w : BitVec 32) : Except DecodeError Instr :=
  match (fld w 22 7).toNat with
  | 0x00 => row w 0x000000 (.vadd (fld w 17 5) (fld w 12 5) (fld w 7 5) (fld w 4 3) (fld w 0 4))
  | 0x01 => row w 0x000000 (.vsub (fld w 17 5) (fld w 12 5) (fld w 7 5) (fld w 4 3) (fld w 0 4))
  | 0x02 => row w 0x000000 (.vmul (fld w 17 5) (fld w 12 5) (fld w 7 5) (fld w 4 3) (fld w 0 4))
  | 0x03 => row w 0x000000 (.vfma (fld w 17 5) (fld w 12 5) (fld w 7 5) (fld w 4 3) (fld w 0 4))
  | 0x04 => row w 0x000000 (.vfms (fld w 17 5) (fld w 12 5) (fld w 7 5) (fld w 4 3) (fld w 0 4))
  | 0x05 => row w 0x000000 (.vfnma (fld w 17 5) (fld w 12 5) (fld w 7 5) (fld w 4 3) (fld w 0 4))
  | 0x06 => row w 0x000000 (.vmin (fld w 17 5) (fld w 12 5) (fld w 7 5) (fld w 4 3) (fld w 0 4))
  | 0x07 => row w 0x000000 (.vmax (fld w 17 5) (fld w 12 5) (fld w 7 5) (fld w 4 3) (fld w 0 4))
  | 0x08 => row w 0x000F80 (.vabs (fld w 17 5) (fld w 12 5) (fld w 4 3) (fld w 0 4))
  | 0x09 => row w 0x000F80 (.vneg (fld w 17 5) (fld w 12 5) (fld w 4 3) (fld w 0 4))
  | 0x0A => row w 0x000000 (.vdiv (fld w 17 5) (fld w 12 5) (fld w 7 5) (fld w 4 3) (fld w 0 4))
  | 0x0B => row w 0x000F80 (.vsqrt (fld w 17 5) (fld w 12 5) (fld w 4 3) (fld w 0 4))
  | 0x0C => row w 0x00000F (.vand (fld w 17 5) (fld w 12 5) (fld w 7 5) (fld w 4 3))
  | 0x0D => row w 0x00000F (.vor (fld w 17 5) (fld w 12 5) (fld w 7 5) (fld w 4 3))
  | 0x0E => row w 0x00000F (.vxor (fld w 17 5) (fld w 12 5) (fld w 7 5) (fld w 4 3))
  | 0x0F => row w 0x00000F (.vandn (fld w 17 5) (fld w 12 5) (fld w 7 5) (fld w 4 3))
  | 0x10 => row w 0x000000 (.vshl (fld w 17 5) (fld w 12 5) (fld w 7 5) (fld w 4 3) (fld w 0 4))
  | 0x11 => row w 0x000000 (.vshr (fld w 17 5) (fld w 12 5) (fld w 7 5) (fld w 4 3) (fld w 0 4))
  | 0x12 => row w 0x000000 (.vsra (fld w 17 5) (fld w 12 5) (fld w 7 5) (fld w 4 3) (fld w 0 4))
  | 0x13 => row w 0x060000 (.vcmp (fld w 19 3) (fld w 12 5) (fld w 7 5) (fld w 4 3) (fld w 0 4))
  | 0x14 => row w 0x00000F (.vsel (fld w 17 5) (fld w 12 5) (fld w 7 5) (fld w 4 3))
  | 0x15 => row w 0x000800 (.vcvt (fld w 17 5) (fld w 12 5) (fld w 7 4) (fld w 4 3) (fld w 0 4))
  | 0x16 => row w 0x00003F (.vbcast (fld w 17 5) (fld w 11 6) (fld w 8 3) (fld w 6 2))
  | 0x17 => row w 0x000700 (.vext (fld w 17 5) (fld w 11 6) (fld w 6 2) (fld w 0 6))
  | 0x18 => row w 0x000700 (.vins (fld w 17 5) (fld w 11 6) (fld w 6 2) (fld w 0 6))
  | 0x19 => row w 0x000000 (.vperm (fld w 17 5) (fld w 12 5) (fld w 7 5) (fld w 4 3) (fld w 0 4))
  | 0x1A => row w 0x000F80 (.vredsum (fld w 17 5) (fld w 12 5) (fld w 4 3) (fld w 0 4))
  | 0x1B => row w 0x000F80 (.vredmax (fld w 17 5) (fld w 12 5) (fld w 4 3) (fld w 0 4))
  | 0x1C => row w 0x000F80 (.vredmin (fld w 17 5) (fld w 12 5) (fld w 4 3) (fld w 0 4))
  | 0x1D => row w 0x000000 (.vld (fld w 17 5) (fld w 11 6) (fld w 8 3) (fld w 0 8))
  | 0x1E => row w 0x000000 (.vst (fld w 17 5) (fld w 11 6) (fld w 8 3) (fld w 0 8))
  | 0x1F => row w 0x000000 (.vldb (fld w 17 5) (fld w 11 6) (fld w 8 3) (fld w 6 2) (fld w 5 1) (fld w 0 5))
  | 0x20 => row w 0x000020 (.vstb (fld w 17 5) (fld w 11 6) (fld w 8 3) (fld w 6 2) (fld w 0 5))
  | 0x21 => row w 0x000020 (.vgath (fld w 17 5) (fld w 11 6) (fld w 8 3) (fld w 6 2) (fld w 0 5))
  | 0x22 => row w 0x000020 (.vscat (fld w 17 5) (fld w 11 6) (fld w 8 3) (fld w 6 2) (fld w 0 5))
  | 0x23 => row w 0x000000 (.vldd (fld w 17 5) (fld w 11 6) (fld w 8 3) (fld w 0 8))
  | 0x24 => row w 0x000000 (.vstd (fld w 17 5) (fld w 11 6) (fld w 8 3) (fld w 0 8))
  | 0x25 =>
    match (fld w 3 4).toNat with
    | 0 => row w 0x001F87 (.plogAnd (fld w 19 3) (fld w 16 3) (fld w 13 3))
    | 1 => row w 0x001F87 (.plogOr (fld w 19 3) (fld w 16 3) (fld w 13 3))
    | 2 => row w 0x001F87 (.plogXor (fld w 19 3) (fld w 16 3) (fld w 13 3))
    | 3 => row w 0x001F87 (.plogAndn (fld w 19 3) (fld w 16 3) (fld w 13 3))
    | 4 => row w 0x00FF87 (.plogNot (fld w 19 3) (fld w 16 3))
    | _ => .error .unassigned
  | 0x26 =>
    match (fld w 3 4).toNat with
    | 0 => row w 0x00FF87 (.pmov (fld w 19 3) (fld w 16 3))
    | 1 => row w 0x07E007 (.pmovFrom (fld w 19 3) (fld w 7 6))
    | 2 => row w 0x38E007 (.pmovTo (fld w 16 3) (fld w 7 6))
    | _ => .error .unassigned
  | 0x27 => row w 0x38E07F (.pcnt (fld w 16 3) (fld w 7 6))
  | 0x28 => row w 0x07FFC0 (.zacc (fld w 19 3) (fld w 0 6))
  | 0x29 => row w 0x0001FF (.mma (fld w 19 3) (fld w 16 3) (fld w 13 3) (fld w 9 4))
  | 0x2A => row w 0x0001FF (.accrd (fld w 19 3) (fld w 14 5) (fld w 10 4) (fld w 9 1))
  | 0x2B => row w 0x000000 (.accst (fld w 19 3) (fld w 13 6) (fld w 9 4) (fld w 5 4) (fld w 1 4) (fld w 0 1))
  | 0x2C => row w 0x001FFF (.accld (fld w 19 3) (fld w 13 6))
  | 0x2D => row w 0x001FFE (.accsv (fld w 19 3) (fld w 13 6) (fld w 0 1))
  | 0x2E => row w 0x00FFFF (.accadd (fld w 19 3) (fld w 16 3))
  | 0x2F => row w 0x07FFC0 (.accanch (fld w 19 3) (fld w 0 6))
  | 0x30 => row w 0x2001FF (.cbld (fld w 19 2) (fld w 13 6) (fld w 11 2) (fld w 9 2))
  | 0x31 => row w 0x300700 (.ldd (fld w 17 3) (fld w 11 6) (fld w 0 8))
  | 0x32 => row w 0x3803F0 (.setd (fld w 16 3) (fld w 10 6) (fld w 0 4))
  | 0x33 => row w 0x00FC70 (.kwait (fld w 16 6) (fld w 7 3) (fld w 0 4))
  | 0x34 => row w 0x00007F (.kwany (fld w 16 6) (fld w 10 6) (fld w 7 3))
  | 0x35 => row w 0x00FC7C (.fence (fld w 16 6) (fld w 7 3) (fld w 0 2))
  | 0x36 => row w 0x00007F (.realign (fld w 16 6) (fld w 10 6) (fld w 7 3))
  | 0x37 => row w 0x3F03FF (.setdl (fld w 10 6))
  | 0x38 => row w 0x00FFFF (.now (fld w 16 6))
  | 0x39 => row w 0x000070 (.cbar (fld w 16 6) (fld w 10 6) (fld w 7 3) (fld w 3 1) (fld w 0 3))
  | 0x3A => row w 0x3F0000 (.abortv (fld w 0 16))
  | 0x3B => row w 0x3FFFFF (.irrev)
  | 0x3C => row w 0x0003FC (.rst (fld w 16 6) (fld w 10 6) (fld w 0 2))
  | 0x3D => row w 0x000000 (.vrst (fld w 17 5) (fld w 11 6) (fld w 8 3) (fld w 0 8))
  | 0x3E => row w 0x0003F0 (.rred (fld w 16 6) (fld w 10 6) (fld w 0 4))
  | 0x3F => row w 0x000010 (.vrred (fld w 17 5) (fld w 11 6) (fld w 8 3) (fld w 5 3) (fld w 0 4))
  | 0x40 =>
    match (fld w 2 1).toNat with
    | 0 => row w 0x000008 (.msend (fld w 16 6) (fld w 10 6) (fld w 4 6) (fld w 0 2))
    | _ => row w 0x3F03F8 (.msendEos (fld w 10 6) (fld w 0 2))
  | 0x41 =>
    match (fld w 2 1).toNat with
    | 0 => row w 0x000008 (.msendg (fld w 16 6) (fld w 10 6) (fld w 4 6) (fld w 0 2))
    | _ => row w 0x3F03F8 (.msendgEos (fld w 10 6) (fld w 0 2))
  | 0x42 => row w 0x00FC7C (.mrecv (fld w 16 6) (fld w 7 3) (fld w 0 2))
  | 0x43 => row w 0x000078 (.ldg (fld w 16 6) (fld w 10 6) (fld w 7 3) (fld w 0 3))
  | 0x44 => row w 0x0003FC (.stg (fld w 16 6) (fld w 10 6) (fld w 0 2))
  | 0x45 => row w 0x0003F0 (.redg (fld w 16 6) (fld w 10 6) (fld w 0 4))
  | 0x46 => row w 0x20007F (.vldg (fld w 16 5) (fld w 10 6) (fld w 7 3))
  | 0x47 => row w 0x00003F (.vstg (fld w 17 5) (fld w 11 6) (fld w 8 3) (fld w 6 2))
  | 0x48 => row w 0x00000F (.vredg (fld w 17 5) (fld w 11 6) (fld w 8 3) (fld w 4 4))
  | 0x49 =>
    match (fld w 0 1).toNat with
    | 0 => row w 0x38E1FC (.fetchl (fld w 16 3) (fld w 9 4) (fld w 1 1))
    | _ => row w 0x38E1FC (.fetchlNext (fld w 16 3) (fld w 9 4) (fld w 1 1))
  | 0x4A => row w 0x38E1FF (.wbl (fld w 16 3) (fld w 9 4))
  | 0x4B =>
    match (fld w 0 1).toNat with
    | 0 => row w 0x38E1FC (.copy (fld w 16 3) (fld w 9 4) (fld w 1 1))
    | _ => row w 0x38E1FC (.copyG (fld w 16 3) (fld w 9 4) (fld w 1 1))
  | 0x4C => row w 0x38E1FF (.coll (fld w 16 3) (fld w 9 4))
  | 0x4D =>
    match (fld w 0 4).toNat with
    | 0 => row w 0x0003F0 (.rlstatLock (fld w 16 6) (fld w 10 6))
    | 1 => row w 0x00FF00 (.rlstatProg (fld w 16 6) (fld w 4 4))
    | 2 => row w 0x00FF00 (.rlstatFaddr (fld w 16 6) (fld w 4 4))
    | _ => .error .unassigned
  | 0x4E => row w 0x00FFFF (.nextt (fld w 16 6))
  | 0x4F => row w 0x3FFFF8 (.prio (fld w 2 1) (fld w 0 2))
  | 0x50 =>
    match (fld w 0 4).toNat with
    | 0 => row w 0x0003F0 (.profrd (fld w 16 6) (fld w 10 6))
    | 1 => row w 0x0003F0 (.profrdClr (fld w 16 6) (fld w 10 6))
    | _ => .error .unassigned
  | _ => .error .unassigned

/-- The prefix space (R55). -/
def decodePrefix (w : BitVec 32) : Except DecodeError Instr :=
  match (fld w 22 7).toNat with
  | 0x00 => row w 0x3FFFF0 (.prnd (fld w 3 1) (fld w 0 3))
  | 0x01 => row w 0x000000 (.pext (fld w 0 22))
  | 0x02 => row w 0x3FFFFF (.pone)
  | _ => .error .unassigned

/-- The 64-bit space (R64) with the forms of the supervisor instructions (R481, R484); a first word is checked before the FORM of its
payload where no form of the OP names sb (R65 step 4). -/
def decodePair (w payload : BitVec 32) : Except DecodeError Instr :=
  match (fld w 22 7).toNat with
  | 0x00 => pair w 0xFFFF payload 0 (.ldi (fld w 16 6) payload)
  | 0x01 => pair w 0xFFFF payload 0 (.ldih (fld w 16 6) payload)
  | 0x02 => pair w 0x3FF payload 0xFFFFF000 (.bext (fld w 16 6) (fld w 10 6) (fld payload 0 6) (fld payload 6 6))
  | 0x03 => pair w 0x3FF payload 0xFFFFF000 (.bins (fld w 16 6) (fld w 10 6) (fld payload 0 6) (fld payload 6 6))
  | 0x04 =>
    if (fld w 0 4).toNat ≤ 5 then pair w 0x3F0000 payload 0 (.bcmp (fld w 10 6) (fld w 4 6) (fld w 0 4) payload)
    else .error .unassigned
  | 0x05 => pair w 0x3F0000 payload 0xFFFF0000 (.loopi (fld w 0 16) (fld payload 0 16))
  | 0x06 => pair w 0x3FFC7F payload 0
      (.waitc (fld w 7 3) (fld payload 24 8) (fld payload 16 8) (fld payload 8 8) (fld payload 0 8))
  | 0x07 =>
    if (fld w 0 4).toNat ≤ 1 then
      pair w 0 payload 0xFFFFFFC0 (.amocas (fld w 16 6) (fld w 10 6) (fld w 4 6) (fld w 0 1) (fld payload 0 6))
    else .error .unassigned
  | 0x08 => pairVops w payload (.vops (fld w 17 5) (fld w 12 5) (fld w 4 3) (fld w 0 4) (fld payload 6 7) (fld payload 0 6))
  | 0x09 => pair w 0xFFFF payload 0 (.addpc (fld w 16 6) payload)
  | 0x10 =>
    match payload.toNat % 16 with
    | 0 => pair w 0x000000 payload 0xFFFFFFF0 (.launch (fld w 16 6) (fld w 10 6) (fld w 4 6) (fld w 0 4))
    | _ => .error .payload
  | 0x11 =>
    match payload.toNat % 16 with
    | 0 => pair w 0x000000 payload 0xFFFFFFF0 (.bindBind (fld w 16 6) (fld w 10 6) (fld w 4 6) (fld w 0 4))
    | 1 => pair w 0x0003F0 payload 0xFFFFFFF0 (.bindUnbind (fld w 16 6) (fld w 10 6) (fld w 0 4))
    | 2 => pair w 0x0003F0 payload 0xFFFFFFF0 (.bindFence (fld w 16 6) (fld w 10 6) (fld w 0 4))
    | 3 => pair w 0x0003F0 payload 0xFFFFFFF0 (.bindUnfence (fld w 16 6) (fld w 10 6) (fld w 0 4))
    | _ => .error .payload
  | 0x12 =>
    match payload.toNat % 16 with
    | 0 => pair w 0x000000 payload 0xFFFFFFF0 (.tmapMap (fld w 16 6) (fld w 10 6) (fld w 4 6) (fld w 0 4))
    | 1 => pair w 0x000000 payload 0xFFFFFFF0 (.tmapInval (fld w 16 6) (fld w 10 6) (fld w 4 6) (fld w 0 4))
    | 2 => pair w 0x000000 payload 0xFFFFFFF0 (.tmapGroup (fld w 16 6) (fld w 10 6) (fld w 4 6) (fld w 0 4))
    | _ => .error .payload
  | 0x13 =>
    match payload.toNat % 16 with
    | 0 => pair w 0x000000 payload 0xFFFFFFF0 (.codestCode (fld w 16 6) (fld w 10 6) (fld w 4 6) (fld w 0 4))
    | 1 => pair w 0x000000 payload 0xFFFFFFF0 (.codestLocal (fld w 16 6) (fld w 10 6) (fld w 4 6) (fld w 0 4))
    | 2 => pair w 0x000000 payload 0xFFFFFFF0 (.codestReg (fld w 16 6) (fld w 10 6) (fld w 4 6) (fld w 0 4))
    | 3 => pair w 0x000000 payload 0xFFFFFFF0 (.codestChunk (fld w 16 6) (fld w 10 6) (fld w 4 6) (fld w 0 4))
    | 4 => pair w 0x000000 payload 0xFFFFFFF0 (.codestPtab (fld w 16 6) (fld w 10 6) (fld w 4 6) (fld w 0 4))
    | _ => .error .payload
  | 0x14 =>
    match payload.toNat % 16 with
    | 0 => pair w 0x0003F0 payload 0xFFFFFFF0 (.startLaunch (fld w 16 6) (fld w 10 6) (fld w 0 4))
    | 1 => pair w 0x000000 payload 0xFFFFFFF0 (.startResume (fld w 16 6) (fld w 10 6) (fld w 4 6) (fld w 0 4))
    | 2 => pair w 0x000000 payload 0xFFFFFFF0 (.startStrand (fld w 16 6) (fld w 10 6) (fld w 4 6) (fld w 0 4))
    | _ => .error .payload
  | 0x15 =>
    match payload.toNat % 16 with
    | 0 => pair w 0x0003F0 payload 0xFFFFFFF0 (.quiesceRequest (fld w 16 6) (fld w 10 6) (fld w 0 4))
    | 1 => pair w 0x0003F0 payload 0xFFFFFFF0 (.quiesceCkpt (fld w 16 6) (fld w 10 6) (fld w 0 4))
    | 2 => pair w 0x0003F0 payload 0xFFFFFFF0 (.quiesceCancel (fld w 16 6) (fld w 10 6) (fld w 0 4))
    | 3 => pair w 0x0003F0 payload 0xFFFFFFF0 (.quiescePark (fld w 16 6) (fld w 10 6) (fld w 0 4))
    | _ => .error (if w.toNat &&& 0x3F0 ≠ 0 then .reserved else .payload)
  | 0x16 =>
    match payload.toNat % 16 with
    | 0 => pair w 0x000000 payload 0xFFFFFFF0 (.imgmvSave (fld w 16 6) (fld w 10 6) (fld w 4 6) (fld w 0 4))
    | 1 => pair w 0x000000 payload 0xFFFFFFF0 (.imgmvRestore (fld w 16 6) (fld w 10 6) (fld w 4 6) (fld w 0 4))
    | 2 => pair w 0x000000 payload 0xFFFFFFF0 (.imgmvMove (fld w 16 6) (fld w 10 6) (fld w 4 6) (fld w 0 4))
    | _ => .error .payload
  | 0x17 =>
    match payload.toNat % 16 with
    | 0 => pair w 0x000000 payload 0xFFFFFFF0 (.keyld (fld w 16 6) (fld w 10 6) (fld w 4 6) (fld w 0 4))
    | _ => .error .payload
  | 0x18 =>
    match payload.toNat % 16 with
    | 0 => pair w 0x0003F0 payload 0xFFFFFFF0 (.keyz (fld w 16 6) (fld w 10 6) (fld w 0 4))
    | _ => .error (if w.toNat &&& 0x3F0 ≠ 0 then .reserved else .payload)
  | 0x19 =>
    match payload.toNat % 16 with
    | 0 => pair w 0x0003F0 payload 0xFFFFFFF0 (.scrubCluster (fld w 16 6) (fld w 10 6) (fld w 0 4))
    | 1 => pair w 0x000000 payload 0xFFFFFFF0 (.scrubPages (fld w 16 6) (fld w 10 6) (fld w 4 6) (fld w 0 4))
    | _ => .error .payload
  | 0x1A =>
    match payload.toNat % 16 with
    | 0 => pair w 0x0003F0 payload 0xFFFFFFF0 (.forceab (fld w 16 6) (fld w 10 6) (fld w 0 4))
    | _ => .error (if w.toNat &&& 0x3F0 ≠ 0 then .reserved else .payload)
  | 0x1B =>
    match payload.toNat % 16 with
    | 0 => pair w 0x000000 payload 0xFFFFFFF0 (.dumpLog (fld w 16 6) (fld w 10 6) (fld w 4 6) (fld w 0 4))
    | 1 => pair w 0x000000 payload 0xFFFFFFF0 (.dumpCtx (fld w 16 6) (fld w 10 6) (fld w 4 6) (fld w 0 4))
    | 2 => pair w 0x000000 payload 0xFFFFFFF0 (.dumpTrace (fld w 16 6) (fld w 10 6) (fld w 4 6) (fld w 0 4))
    | _ => .error .payload
  | _ => .error .unassigned

/-- The instruction of a first word and the word after it (R43); the word after it matters only when the first word has
L = 0b11. -/
def decodeWords (w payload : BitVec 32) : Except DecodeError Instr :=
  match (fld w 30 2).toNat with
  | 0 => decodeA w
  | 1 => decodeB w
  | 2 => decodePrefix w
  | _ => decodePair w payload

/-- A word with the T bit t whose other bits are n. -/
def word (t : Bool) (n : Nat) : BitVec 32 := BitVec.ofNat 32 (n + (if t then 2 ^ 29 else 0))

/-- The field x at bit k of a word. -/
def put {n : Nat} (x : BitVec n) (k : Nat) : Nat := x.toNat * 2 ^ k

/-- The word of an instruction of space A with T clear, from the map of R61. -/
def numberA : Instr → Option Nat
| .ill x0 => some (0x00000000 + x0.toNat)
  | .add x0 x1 x2 => some (0x00400000 + put x0 16 + put x1 10 + put x2 4)
  | .sub x0 x1 x2 => some (0x00400001 + put x0 16 + put x1 10 + put x2 4)
  | .and x0 x1 x2 => some (0x00400002 + put x0 16 + put x1 10 + put x2 4)
  | .or x0 x1 x2 => some (0x00400003 + put x0 16 + put x1 10 + put x2 4)
  | .xor x0 x1 x2 => some (0x00400004 + put x0 16 + put x1 10 + put x2 4)
  | .andn x0 x1 x2 => some (0x00400005 + put x0 16 + put x1 10 + put x2 4)
  | .shl x0 x1 x2 => some (0x00400006 + put x0 16 + put x1 10 + put x2 4)
  | .shr x0 x1 x2 => some (0x00400007 + put x0 16 + put x1 10 + put x2 4)
  | .sra x0 x1 x2 => some (0x00400008 + put x0 16 + put x1 10 + put x2 4)
  | .rol x0 x1 x2 => some (0x00400009 + put x0 16 + put x1 10 + put x2 4)
  | .min x0 x1 x2 => some (0x0040000A + put x0 16 + put x1 10 + put x2 4)
  | .max x0 x1 x2 => some (0x0040000B + put x0 16 + put x1 10 + put x2 4)
  | .minn x0 x1 x2 => some (0x0040000C + put x0 16 + put x1 10 + put x2 4)
  | .maxn x0 x1 x2 => some (0x0040000D + put x0 16 + put x1 10 + put x2 4)
  | .adds x0 x1 x2 => some (0x0040000E + put x0 16 + put x1 10 + put x2 4)
  | .subs x0 x1 x2 => some (0x0040000F + put x0 16 + put x1 10 + put x2 4)
  | .mul x0 x1 x2 => some (0x00800000 + put x0 16 + put x1 10 + put x2 4)
  | .mulh x0 x1 x2 => some (0x00800001 + put x0 16 + put x1 10 + put x2 4)
  | .mulhn x0 x1 x2 => some (0x00800002 + put x0 16 + put x1 10 + put x2 4)
  | .div x0 x1 x2 => some (0x00800003 + put x0 16 + put x1 10 + put x2 4)
  | .divn x0 x1 x2 => some (0x00800004 + put x0 16 + put x1 10 + put x2 4)
  | .rem x0 x1 x2 => some (0x00800005 + put x0 16 + put x1 10 + put x2 4)
  | .remn x0 x1 x2 => some (0x00800006 + put x0 16 + put x1 10 + put x2 4)
  | .clz x0 x1 => some (0x00800007 + put x0 16 + put x1 10)
  | .ctz x0 x1 => some (0x00800008 + put x0 16 + put x1 10)
  | .popc x0 x1 => some (0x00800009 + put x0 16 + put x1 10)
  | .brev x0 x1 => some (0x0080000A + put x0 16 + put x1 10)
  | .seq x0 x1 x2 => some (0x00C00000 + put x0 16 + put x1 10 + put x2 4)
  | .sne x0 x1 x2 => some (0x00C00001 + put x0 16 + put x1 10 + put x2 4)
  | .slt x0 x1 x2 => some (0x00C00002 + put x0 16 + put x1 10 + put x2 4)
  | .sge x0 x1 x2 => some (0x00C00003 + put x0 16 + put x1 10 + put x2 4)
  | .sltn x0 x1 x2 => some (0x00C00004 + put x0 16 + put x1 10 + put x2 4)
  | .sgen x0 x1 x2 => some (0x00C00005 + put x0 16 + put x1 10 + put x2 4)
  | .cmov x0 x1 x2 => some (0x00C00006 + put x0 16 + put x1 10 + put x2 4)
  | .addi x0 x1 x2 => some (0x01000000 + put x0 16 + put x1 10 + x2.toNat)
  | .andi x0 x1 x2 => some (0x01400000 + put x0 16 + put x1 10 + x2.toNat)
  | .ori x0 x1 x2 => some (0x01800000 + put x0 16 + put x1 10 + x2.toNat)
  | .xori x0 x1 x2 => some (0x01C00000 + put x0 16 + put x1 10 + x2.toNat)
  | .shli x0 x1 x2 => some (0x02000000 + put x0 16 + put x1 10 + x2.toNat)
  | .shri x0 x1 x2 => some (0x02400000 + put x0 16 + put x1 10 + x2.toNat)
  | .srai x0 x1 x2 => some (0x02800000 + put x0 16 + put x1 10 + x2.toNat)
  | .muli x0 x1 x2 => some (0x02C00000 + put x0 16 + put x1 10 + x2.toNat)
  | .slti x0 x1 x2 => some (0x03000000 + put x0 16 + put x1 10 + x2.toNat)
  | .sltni x0 x1 x2 => some (0x03400000 + put x0 16 + put x1 10 + x2.toNat)
  | .lea x0 x1 x2 x3 => some (0x03800000 + put x0 16 + put x1 10 + put x2 4 + x3.toNat)
  | .ldk x0 x1 => some (0x03C00000 + put x0 16 + x1.toNat)
  | .ldI8 x0 x1 x2 => some (0x04000000 + put x0 16 + put x1 10 + x2.toNat)
  | .ldI16 x0 x1 x2 => some (0x04400000 + put x0 16 + put x1 10 + x2.toNat)
  | .ldI32 x0 x1 x2 => some (0x04800000 + put x0 16 + put x1 10 + x2.toNat)
  | .ldI64 x0 x1 x2 => some (0x04C00000 + put x0 16 + put x1 10 + x2.toNat)
  | .ldN8 x0 x1 x2 => some (0x05000000 + put x0 16 + put x1 10 + x2.toNat)
  | .ldN16 x0 x1 x2 => some (0x05400000 + put x0 16 + put x1 10 + x2.toNat)
  | .ldN32 x0 x1 x2 => some (0x05800000 + put x0 16 + put x1 10 + x2.toNat)
  | .st8 x0 x1 x2 => some (0x05C00000 + put x0 16 + put x1 10 + x2.toNat)
  | .st16 x0 x1 x2 => some (0x06000000 + put x0 16 + put x1 10 + x2.toNat)
  | .st32 x0 x1 x2 => some (0x06400000 + put x0 16 + put x1 10 + x2.toNat)
  | .st64 x0 x1 x2 => some (0x06800000 + put x0 16 + put x1 10 + x2.toNat)
  | .ldbits x0 x1 x2 => some (0x06C00000 + put x0 16 + put x1 10 + x2.toNat)
  | .stbits x0 x1 x2 => some (0x07000000 + put x0 16 + put x1 10 + x2.toNat)
  | .amoadd32 x0 x1 x2 => some (0x07400000 + put x0 16 + put x1 10 + put x2 4)
  | .amoand32 x0 x1 x2 => some (0x07400001 + put x0 16 + put x1 10 + put x2 4)
  | .amoor32 x0 x1 x2 => some (0x07400002 + put x0 16 + put x1 10 + put x2 4)
  | .amoxor32 x0 x1 x2 => some (0x07400003 + put x0 16 + put x1 10 + put x2 4)
  | .amomin32 x0 x1 x2 => some (0x07400004 + put x0 16 + put x1 10 + put x2 4)
  | .amomax32 x0 x1 x2 => some (0x07400005 + put x0 16 + put x1 10 + put x2 4)
  | .amoswp32 x0 x1 x2 => some (0x07400006 + put x0 16 + put x1 10 + put x2 4)
  | .amoadd64 x0 x1 x2 => some (0x07400008 + put x0 16 + put x1 10 + put x2 4)
  | .amoand64 x0 x1 x2 => some (0x07400009 + put x0 16 + put x1 10 + put x2 4)
  | .amoor64 x0 x1 x2 => some (0x0740000A + put x0 16 + put x1 10 + put x2 4)
  | .amoxor64 x0 x1 x2 => some (0x0740000B + put x0 16 + put x1 10 + put x2 4)
  | .amomin64 x0 x1 x2 => some (0x0740000C + put x0 16 + put x1 10 + put x2 4)
  | .amomax64 x0 x1 x2 => some (0x0740000D + put x0 16 + put x1 10 + put x2 4)
  | .amoswp64 x0 x1 x2 => some (0x0740000E + put x0 16 + put x1 10 + put x2 4)
  | .ldfe x0 x1 x2 => some (0x07800000 + put x0 16 + put x1 10 + put x2 7)
  | .ldfeKeep x0 x1 x2 => some (0x07800001 + put x0 16 + put x1 10 + put x2 7)
  | .stfe x0 x1 x2 => some (0x07C00000 + put x0 16 + put x1 10 + put x2 7)
  | .fetagSetf x0 x1 x2 => some (0x08000000 + put x0 16 + put x1 10 + put x2 4)
  | .fetagSete x0 x1 x2 => some (0x08000001 + put x0 16 + put x1 10 + put x2 4)
  | .fetagPeek x0 x1 => some (0x08000002 + put x0 16 + put x1 10)
  | .bz x0 x1 => some (0x08400000 + put x0 16 + x1.toNat)
  | .bnz x0 x1 => some (0x08800000 + put x0 16 + x1.toNat)
  | .bltz x0 x1 => some (0x08C00000 + put x0 16 + x1.toNat)
  | .bgez x0 x1 => some (0x09000000 + put x0 16 + x1.toNat)
  | .bgtz x0 x1 => some (0x09400000 + put x0 16 + x1.toNat)
  | .blez x0 x1 => some (0x09800000 + put x0 16 + x1.toNat)
  | .j x0 => some (0x09C00000 + x0.toNat)
  | .jal x0 => some (0x0A000000 + x0.toNat)
  | .jr x0 => some (0x0A400000 + put x0 10)
  | .jalr x0 x1 => some (0x0A800000 + put x0 16 + put x1 10)
  | .bws x0 x1 => some (0x0AC00000 + put x0 16 + x1.toNat)
  | .bp x0 x1 x2 => some (0x0B000000 + put x0 19 + put x1 16 + x2.toNat)
  | .loop x0 x1 => some (0x0B400000 + put x0 16 + x1.toNat)
  | .loops x0 x1 x2 => some (0x0B800000 + put x0 20 + put x1 17 + x2.toNat)
  | .lbrk => some (0x0BC00000)
  | .mfs x0 x1 => some (0x0C000000 + put x0 16 + x1.toNat)
  | .mts x0 x1 => some (0x0C400000 + put x0 10 + x1.toNat)
  | .trap x0 => some (0x0C800000 + x0.toNat)
  | .svc x0 => some (0x0CC00000 + x0.toNat)
  | .rtt => some (0x0D000000)
  | .nop => some (0x0D400000)
  | .brk => some (0x0D800000)
  | .tmark x0 => some (0x0DC00000 + x0.toNat)
  | .retire => some (0x0E000000)
  | _ => none

/-- The word of an instruction of space B with T clear, OP 0x00 to 0x27: vectors and predicates, from the map of R63. -/
def numberB : Instr → Option Nat
  | .vadd x0 x1 x2 x3 x4 => some (0x40000000 + put x0 17 + put x1 12 + put x2 7 + put x3 4 + x4.toNat)
  | .vsub x0 x1 x2 x3 x4 => some (0x40400000 + put x0 17 + put x1 12 + put x2 7 + put x3 4 + x4.toNat)
  | .vmul x0 x1 x2 x3 x4 => some (0x40800000 + put x0 17 + put x1 12 + put x2 7 + put x3 4 + x4.toNat)
  | .vfma x0 x1 x2 x3 x4 => some (0x40C00000 + put x0 17 + put x1 12 + put x2 7 + put x3 4 + x4.toNat)
  | .vfms x0 x1 x2 x3 x4 => some (0x41000000 + put x0 17 + put x1 12 + put x2 7 + put x3 4 + x4.toNat)
  | .vfnma x0 x1 x2 x3 x4 => some (0x41400000 + put x0 17 + put x1 12 + put x2 7 + put x3 4 + x4.toNat)
  | .vmin x0 x1 x2 x3 x4 => some (0x41800000 + put x0 17 + put x1 12 + put x2 7 + put x3 4 + x4.toNat)
  | .vmax x0 x1 x2 x3 x4 => some (0x41C00000 + put x0 17 + put x1 12 + put x2 7 + put x3 4 + x4.toNat)
  | .vabs x0 x1 x2 x3 => some (0x42000000 + put x0 17 + put x1 12 + put x2 4 + x3.toNat)
  | .vneg x0 x1 x2 x3 => some (0x42400000 + put x0 17 + put x1 12 + put x2 4 + x3.toNat)
  | .vdiv x0 x1 x2 x3 x4 => some (0x42800000 + put x0 17 + put x1 12 + put x2 7 + put x3 4 + x4.toNat)
  | .vsqrt x0 x1 x2 x3 => some (0x42C00000 + put x0 17 + put x1 12 + put x2 4 + x3.toNat)
  | .vand x0 x1 x2 x3 => some (0x43000000 + put x0 17 + put x1 12 + put x2 7 + put x3 4)
  | .vor x0 x1 x2 x3 => some (0x43400000 + put x0 17 + put x1 12 + put x2 7 + put x3 4)
  | .vxor x0 x1 x2 x3 => some (0x43800000 + put x0 17 + put x1 12 + put x2 7 + put x3 4)
  | .vandn x0 x1 x2 x3 => some (0x43C00000 + put x0 17 + put x1 12 + put x2 7 + put x3 4)
  | .vshl x0 x1 x2 x3 x4 => some (0x44000000 + put x0 17 + put x1 12 + put x2 7 + put x3 4 + x4.toNat)
  | .vshr x0 x1 x2 x3 x4 => some (0x44400000 + put x0 17 + put x1 12 + put x2 7 + put x3 4 + x4.toNat)
  | .vsra x0 x1 x2 x3 x4 => some (0x44800000 + put x0 17 + put x1 12 + put x2 7 + put x3 4 + x4.toNat)
  | .vcmp x0 x1 x2 x3 x4 => some (0x44C00000 + put x0 19 + put x1 12 + put x2 7 + put x3 4 + x4.toNat)
  | .vsel x0 x1 x2 x3 => some (0x45000000 + put x0 17 + put x1 12 + put x2 7 + put x3 4)
  | .vcvt x0 x1 x2 x3 x4 => some (0x45400000 + put x0 17 + put x1 12 + put x2 7 + put x3 4 + x4.toNat)
  | .vbcast x0 x1 x2 x3 => some (0x45800000 + put x0 17 + put x1 11 + put x2 8 + put x3 6)
  | .vext x0 x1 x2 x3 => some (0x45C00000 + put x0 17 + put x1 11 + put x2 6 + x3.toNat)
  | .vins x0 x1 x2 x3 => some (0x46000000 + put x0 17 + put x1 11 + put x2 6 + x3.toNat)
  | .vperm x0 x1 x2 x3 x4 => some (0x46400000 + put x0 17 + put x1 12 + put x2 7 + put x3 4 + x4.toNat)
  | .vredsum x0 x1 x2 x3 => some (0x46800000 + put x0 17 + put x1 12 + put x2 4 + x3.toNat)
  | .vredmax x0 x1 x2 x3 => some (0x46C00000 + put x0 17 + put x1 12 + put x2 4 + x3.toNat)
  | .vredmin x0 x1 x2 x3 => some (0x47000000 + put x0 17 + put x1 12 + put x2 4 + x3.toNat)
  | .vld x0 x1 x2 x3 => some (0x47400000 + put x0 17 + put x1 11 + put x2 8 + x3.toNat)
  | .vst x0 x1 x2 x3 => some (0x47800000 + put x0 17 + put x1 11 + put x2 8 + x3.toNat)
  | .vldb x0 x1 x2 x3 x4 x5 => some (0x47C00000 + put x0 17 + put x1 11 + put x2 8 + put x3 6 + put x4 5 + x5.toNat)
  | .vstb x0 x1 x2 x3 x4 => some (0x48000000 + put x0 17 + put x1 11 + put x2 8 + put x3 6 + x4.toNat)
  | .vgath x0 x1 x2 x3 x4 => some (0x48400000 + put x0 17 + put x1 11 + put x2 8 + put x3 6 + x4.toNat)
  | .vscat x0 x1 x2 x3 x4 => some (0x48800000 + put x0 17 + put x1 11 + put x2 8 + put x3 6 + x4.toNat)
  | .vldd x0 x1 x2 x3 => some (0x48C00000 + put x0 17 + put x1 11 + put x2 8 + x3.toNat)
  | .vstd x0 x1 x2 x3 => some (0x49000000 + put x0 17 + put x1 11 + put x2 8 + x3.toNat)
  | .plogAnd x0 x1 x2 => some (0x49400000 + put x0 19 + put x1 16 + put x2 13)
  | .plogOr x0 x1 x2 => some (0x49400008 + put x0 19 + put x1 16 + put x2 13)
  | .plogXor x0 x1 x2 => some (0x49400010 + put x0 19 + put x1 16 + put x2 13)
  | .plogAndn x0 x1 x2 => some (0x49400018 + put x0 19 + put x1 16 + put x2 13)
  | .plogNot x0 x1 => some (0x49400020 + put x0 19 + put x1 16)
  | .pmov x0 x1 => some (0x49800000 + put x0 19 + put x1 16)
  | .pmovFrom x0 x1 => some (0x49800008 + put x0 19 + put x1 7)
  | .pmovTo x0 x1 => some (0x49800010 + put x0 16 + put x1 7)
  | .pcnt x0 x1 => some (0x49C00000 + put x0 16 + put x1 7)
  | _ => none

/-- The word of an instruction of space B with T clear, OP 0x28 to 0x50, from the map of R63. -/
def numberB2 : Instr → Option Nat
  | .zacc x0 x1 => some (0x4A000000 + put x0 19 + x1.toNat)
  | .mma x0 x1 x2 x3 => some (0x4A400000 + put x0 19 + put x1 16 + put x2 13 + put x3 9)
  | .accrd x0 x1 x2 x3 => some (0x4A800000 + put x0 19 + put x1 14 + put x2 10 + put x3 9)
  | .accst x0 x1 x2 x3 x4 x5 => some (0x4AC00000 + put x0 19 + put x1 13 + put x2 9 + put x3 5 + put x4 1 + x5.toNat)
  | .accld x0 x1 => some (0x4B000000 + put x0 19 + put x1 13)
  | .accsv x0 x1 x2 => some (0x4B400000 + put x0 19 + put x1 13 + x2.toNat)
  | .accadd x0 x1 => some (0x4B800000 + put x0 19 + put x1 16)
  | .accanch x0 x1 => some (0x4BC00000 + put x0 19 + x1.toNat)
  | .cbld x0 x1 x2 x3 => some (0x4C000000 + put x0 19 + put x1 13 + put x2 11 + put x3 9)
  | .ldd x0 x1 x2 => some (0x4C400000 + put x0 17 + put x1 11 + x2.toNat)
  | .setd x0 x1 x2 => some (0x4C800000 + put x0 16 + put x1 10 + x2.toNat)
  | .kwait x0 x1 x2 => some (0x4CC00000 + put x0 16 + put x1 7 + x2.toNat)
  | .kwany x0 x1 x2 => some (0x4D000000 + put x0 16 + put x1 10 + put x2 7)
  | .fence x0 x1 x2 => some (0x4D400000 + put x0 16 + put x1 7 + x2.toNat)
  | .realign x0 x1 x2 => some (0x4D800000 + put x0 16 + put x1 10 + put x2 7)
  | .setdl x0 => some (0x4DC00000 + put x0 10)
  | .now x0 => some (0x4E000000 + put x0 16)
  | .cbar x0 x1 x2 x3 x4 => some (0x4E400000 + put x0 16 + put x1 10 + put x2 7 + put x3 3 + x4.toNat)
  | .abortv x0 => some (0x4E800000 + x0.toNat)
  | .irrev => some (0x4EC00000)
  | .rst x0 x1 x2 => some (0x4F000000 + put x0 16 + put x1 10 + x2.toNat)
  | .vrst x0 x1 x2 x3 => some (0x4F400000 + put x0 17 + put x1 11 + put x2 8 + x3.toNat)
  | .rred x0 x1 x2 => some (0x4F800000 + put x0 16 + put x1 10 + x2.toNat)
  | .vrred x0 x1 x2 x3 x4 => some (0x4FC00000 + put x0 17 + put x1 11 + put x2 8 + put x3 5 + x4.toNat)
  | .msend x0 x1 x2 x3 => some (0x50000000 + put x0 16 + put x1 10 + put x2 4 + x3.toNat)
  | .msendEos x0 x1 => some (0x50000004 + put x0 10 + x1.toNat)
  | .msendg x0 x1 x2 x3 => some (0x50400000 + put x0 16 + put x1 10 + put x2 4 + x3.toNat)
  | .msendgEos x0 x1 => some (0x50400004 + put x0 10 + x1.toNat)
  | .mrecv x0 x1 x2 => some (0x50800000 + put x0 16 + put x1 7 + x2.toNat)
  | .ldg x0 x1 x2 x3 => some (0x50C00000 + put x0 16 + put x1 10 + put x2 7 + x3.toNat)
  | .stg x0 x1 x2 => some (0x51000000 + put x0 16 + put x1 10 + x2.toNat)
  | .redg x0 x1 x2 => some (0x51400000 + put x0 16 + put x1 10 + x2.toNat)
  | .vldg x0 x1 x2 => some (0x51800000 + put x0 16 + put x1 10 + put x2 7)
  | .vstg x0 x1 x2 x3 => some (0x51C00000 + put x0 17 + put x1 11 + put x2 8 + put x3 6)
  | .vredg x0 x1 x2 x3 => some (0x52000000 + put x0 17 + put x1 11 + put x2 8 + put x3 4)
  | .fetchl x0 x1 x2 => some (0x52400000 + put x0 16 + put x1 9 + put x2 1)
  | .fetchlNext x0 x1 x2 => some (0x52400001 + put x0 16 + put x1 9 + put x2 1)
  | .wbl x0 x1 => some (0x52800000 + put x0 16 + put x1 9)
  | .copy x0 x1 x2 => some (0x52C00000 + put x0 16 + put x1 9 + put x2 1)
  | .copyG x0 x1 x2 => some (0x52C00001 + put x0 16 + put x1 9 + put x2 1)
  | .coll x0 x1 => some (0x53000000 + put x0 16 + put x1 9)
  | .rlstatLock x0 x1 => some (0x53400000 + put x0 16 + put x1 10)
  | .rlstatProg x0 x1 => some (0x53400001 + put x0 16 + put x1 4)
  | .rlstatFaddr x0 x1 => some (0x53400002 + put x0 16 + put x1 4)
  | .nextt x0 => some (0x53800000 + put x0 16)
  | .prio x0 x1 => some (0x53C00000 + put x0 2 + x1.toNat)
  | .profrd x0 x1 => some (0x54000000 + put x0 16 + put x1 10)
  | .profrdClr x0 x1 => some (0x54000001 + put x0 16 + put x1 10)
  | _ => none

/-- The word of a prefix with T clear (R55). -/
def numberPrefix : Instr → Option Nat
  | .prnd x0 x1 => some (0x80000000 + put x0 3 + x1.toNat)
  | .pext x0 => some (0x80400000 + x0.toNat)
  | .pone => some (0x80800000)
  | _ => none

/-- The two words of an instruction of the 64-bit space with T clear, from the map of R64. -/
def numberPair : Instr → Option (Nat × Nat)
  | .ldi x imm => some (0xC0000000 + put x 16, imm.toNat)
  | .ldih x imm => some (0xC0400000 + put x 16, imm.toNat)
  | .bext d a lo w => some (0xC0800000 + put d 16 + put a 10, (lo.toNat + put w 6))
  | .bins d a lo w => some (0xC0C00000 + put d 16 + put a 10, (lo.toNat + put w 6))
  | .bcmp a b c off => some (0xC1000000 + put a 10 + put b 4 + c.toNat, off.toNat)
  | .loopi e count => some (0xC1400000 + e.toNat, count.toNat)
  | .waitc l nt nc ns nl => some (0xC1800000 + put l 7, (nl.toNat + put ns 8 + put nc 16 + put nt 24))
  | .amocas d a b wide n => some (0xC1C00000 + put d 16 + put a 10 + put b 4 + wide.toNat, n.toNat)
  | .vops d a p y op n => some (0xC2000000 + put d 17 + put a 12 + put p 4 + y.toNat, (n.toNat + put op 6))
  | .addpc x off => some (0xC2400000 + put x 16, off.toNat)
  | _ => none

/-- The two words of a supervisor instruction with T clear (R481, R484). -/
def numberSup : Instr → Option (Nat × Nat)
  | .launch d a b k => some (0xC4000000 + put d 16 + put a 10 + put b 4 + k.toNat, 0)
  | .bindBind d a b k => some (0xC4400000 + put d 16 + put a 10 + put b 4 + k.toNat, 0)
  | .bindUnbind d a k => some (0xC4400000 + put d 16 + put a 10 + k.toNat, 1)
  | .bindFence d a k => some (0xC4400000 + put d 16 + put a 10 + k.toNat, 2)
  | .bindUnfence d a k => some (0xC4400000 + put d 16 + put a 10 + k.toNat, 3)
  | .tmapMap d a b k => some (0xC4800000 + put d 16 + put a 10 + put b 4 + k.toNat, 0)
  | .tmapInval d a b k => some (0xC4800000 + put d 16 + put a 10 + put b 4 + k.toNat, 1)
  | .tmapGroup d a b k => some (0xC4800000 + put d 16 + put a 10 + put b 4 + k.toNat, 2)
  | .codestCode d a b k => some (0xC4C00000 + put d 16 + put a 10 + put b 4 + k.toNat, 0)
  | .codestLocal d a b k => some (0xC4C00000 + put d 16 + put a 10 + put b 4 + k.toNat, 1)
  | .codestReg d a b k => some (0xC4C00000 + put d 16 + put a 10 + put b 4 + k.toNat, 2)
  | .codestChunk d a b k => some (0xC4C00000 + put d 16 + put a 10 + put b 4 + k.toNat, 3)
  | .codestPtab d a b k => some (0xC4C00000 + put d 16 + put a 10 + put b 4 + k.toNat, 4)
  | .startLaunch d a k => some (0xC5000000 + put d 16 + put a 10 + k.toNat, 0)
  | .startResume d a b k => some (0xC5000000 + put d 16 + put a 10 + put b 4 + k.toNat, 1)
  | .startStrand d a b k => some (0xC5000000 + put d 16 + put a 10 + put b 4 + k.toNat, 2)
  | .quiesceRequest d a k => some (0xC5400000 + put d 16 + put a 10 + k.toNat, 0)
  | .quiesceCkpt d a k => some (0xC5400000 + put d 16 + put a 10 + k.toNat, 1)
  | .quiesceCancel d a k => some (0xC5400000 + put d 16 + put a 10 + k.toNat, 2)
  | .quiescePark d a k => some (0xC5400000 + put d 16 + put a 10 + k.toNat, 3)
  | .imgmvSave d a b k => some (0xC5800000 + put d 16 + put a 10 + put b 4 + k.toNat, 0)
  | .imgmvRestore d a b k => some (0xC5800000 + put d 16 + put a 10 + put b 4 + k.toNat, 1)
  | .imgmvMove d a b k => some (0xC5800000 + put d 16 + put a 10 + put b 4 + k.toNat, 2)
  | .keyld d a b k => some (0xC5C00000 + put d 16 + put a 10 + put b 4 + k.toNat, 0)
  | .keyz d a k => some (0xC6000000 + put d 16 + put a 10 + k.toNat, 0)
  | .scrubCluster d a k => some (0xC6400000 + put d 16 + put a 10 + k.toNat, 0)
  | .scrubPages d a b k => some (0xC6400000 + put d 16 + put a 10 + put b 4 + k.toNat, 1)
  | .forceab d a k => some (0xC6800000 + put d 16 + put a 10 + k.toNat, 0)
  | .dumpLog d a b k => some (0xC6C00000 + put d 16 + put a 10 + put b 4 + k.toNat, 0)
  | .dumpCtx d a b k => some (0xC6C00000 + put d 16 + put a 10 + put b 4 + k.toNat, 1)
  | .dumpTrace d a b k => some (0xC6C00000 + put d 16 + put a 10 + put b 4 + k.toNat, 2)
  | _ => none

/-- The words of a strand instruction or prefix with the T bit t; a step of another agent and a chunk instruction have
none. -/
def encode (t : Bool) (i : Instr) : List (BitVec 32) :=
  match (numberA i).or ((numberB i).or ((numberB2 i).or (numberPrefix i))) with
  | some n => [word t n]
  | none =>
    match (numberPair i).or (numberSup i) with
    | some (n, p) => [word t n, BitVec.ofNat 32 p]
    | none => []

/-- The fields of a chunk instruction word (R399). -/
def cfld (w : BitVec 64) (lo n : Nat) : BitVec n := BitVec.ofNat n (w.toNat / 2 ^ lo)

/-- The fields of a chunk instruction beside OP (R399). -/
structure ChunkFields where
  dl  : BitVec 3 := 0
  a   : BitVec 4 := 0
  b   : BitVec 4 := 0
  c   : BitVec 4 := 0
  fn  : BitVec 11 := 0
  imm : BitVec 32 := 0
deriving DecidableEq, Repr

/-- The fields of a slot (R399). -/
def chunkFields (w : BitVec 64) : ChunkFields :=
  { dl := cfld w 55 3, a := cfld w 51 4, b := cfld w 47 4, c := cfld w 43 4, fn := cfld w 32 11, imm := cfld w 0 32 }

/-- The unused fields of a chunk word, the bits of zmask, must be zero (R399, R411). -/
def crow (w : BitVec 64) (zmask : Nat) (i : Instr) : Except DecodeError Instr :=
  if w.toNat &&& zmask ≠ 0 then .error .reserved else .ok i

/-- The operation of a slot (R402): unassigned is fault OPCODE, reserved is fault ENCODING (R411). -/
def decodeChunk (w : BitVec 64) : Except DecodeError Instr :=
  let op : BitVec 3 := cfld w 32 3
  match w.toNat / 2 ^ 58 with
  | 0 => crow w 0x03FFFFFFFFFFFFFF .chunkNop
  | 1 => crow w 0x00000700FFFFFFFF .send
  | 2 => crow w 0x00000700FFFFFFFF .recv
  | 3 => if chunkRedAccepts op (cfld w 35 4) then crow w 0x03800780FFFFFFFF .reduce else .error .reserved
  | 4 => crow w 0x038007FFFFFFFFFF .chunkCopy
  | 5 =>
    match (cfld w 32 11).toNat with
    | 0 => crow w 0x0007F800FFFFFFF8 .waitSig
    | 1 => crow w 0x007FF800FFFFFFF8 .waitArm
    | _ => .error .reserved
  | 6 => crow w 0x00000780FFFFFFFF .gather
  | 7 => crow w 0x00000780FFFFFFFF .deliver
  | 8 =>
    if (cfld w 39 4).toNat ≤ 4 && chunkRedAccepts (cfld w 36 3) (cfld w 39 4) then crow w 0x03800000FFFFFFF8 .armred
    else .error .reserved
  | 9 => crow w 0x00780780FFFFFFFF .mcast
  | 10 =>
    match (cfld w 32 11).toNat with
    | 0 => crow w 0x0387F80000000000 .setg
    | 1 => crow w 0x0387F80000000000 .setgh
    | 2 => crow w 0x03807800FFFFFFFF .movg
    | _ => .error .reserved
  | 11 =>
    match (cfld w 32 11).toNat with
    | 0 => crow w 0x0380780000000000 .addg
    | 1 => crow w 0x03800000FFFFFFFF .addgr
    | 2 => crow w 0x03800000FFFFFFFF .subgr
    | 3 => crow w 0x03800000FFFFFFFF .mulgr
    | 4 => crow w 0x03800000FFFFFFFF .remgr
    | _ => .error .reserved
  | 12 => crow w 0x0387FFFF00000000 .bnzg
  | 13 => crow w 0x0387FFFF00000000 .loopg
  | 14 => crow w 0x0387FFFFFFFFFFF8 .signal
  | 15 => crow w 0x03FFFFFFFFFFFFFF .halt
  | 16 => crow w 0x03FFFFFFFFFF0000 .abortc
  | 17 => crow w 0x007FFFFFFFFFFFFF .fencec
  | _ => .error .unassigned

/-- The slot of a chunk instruction with the fields f, as a number (R399, R402): OP in 63:58, the fields the table of R402
gives the operation, FN where the operation itself is chosen by it; any other instruction has none. -/
def chunkNumber (f : ChunkFields) : Instr → Option Nat
  | .chunkNop => some (0x0000000000000000)
  | .send => some (0x0400000000000000 + put f.dl 55 + put f.a 51 + put f.b 47 + put f.c 43 + put f.fn 32)
  | .recv => some (0x0800000000000000 + put f.dl 55 + put f.a 51 + put f.b 47 + put f.c 43 + put f.fn 32)
  | .reduce => some (0x0C00000000000000 + put f.a 51 + put f.b 47 + put f.c 43 + put f.fn 32)
  | .chunkCopy => some (0x1000000000000000 + put f.a 51 + put f.b 47 + put f.c 43)
  | .waitSig => some (0x1400000000000000 + put f.dl 55 + put f.a 51 + f.imm.toNat)
  | .waitArm => some (0x1400000000000000 + put f.dl 55 + (1) * 2^32 + f.imm.toNat)
  | .gather => some (0x1800000000000000 + put f.dl 55 + put f.a 51 + put f.b 47 + put f.c 43 + put f.fn 32)
  | .deliver => some (0x1C00000000000000 + put f.dl 55 + put f.a 51 + put f.b 47 + put f.c 43 + put f.fn 32)
  | .armred => some (0x2000000000000000 + put f.a 51 + put f.b 47 + put f.c 43 + put f.fn 32 + f.imm.toNat)
  | .mcast => some (0x2400000000000000 + put f.dl 55 + put f.b 47 + put f.c 43 + put f.fn 32)
  | .setg => some (0x2800000000000000 + put f.a 51 + f.imm.toNat)
  | .setgh => some (0x2800000000000000 + put f.a 51 + (1) * 2^32 + f.imm.toNat)
  | .movg => some (0x2800000000000000 + put f.a 51 + put f.b 47 + (2) * 2^32)
  | .addg => some (0x2C00000000000000 + put f.a 51 + put f.b 47 + f.imm.toNat)
  | .addgr => some (0x2C00000000000000 + put f.a 51 + put f.b 47 + put f.c 43 + (1) * 2^32)
  | .subgr => some (0x2C00000000000000 + put f.a 51 + put f.b 47 + put f.c 43 + (2) * 2^32)
  | .mulgr => some (0x2C00000000000000 + put f.a 51 + put f.b 47 + put f.c 43 + (3) * 2^32)
  | .remgr => some (0x2C00000000000000 + put f.a 51 + put f.b 47 + put f.c 43 + (4) * 2^32)
  | .bnzg => some (0x3000000000000000 + put f.a 51 + f.imm.toNat)
  | .loopg => some (0x3400000000000000 + put f.a 51 + f.imm.toNat)
  | .signal => some (0x3800000000000000 + put f.a 51 + f.imm.toNat)
  | .halt => some (0x3C00000000000000)
  | .abortc => some (0x4000000000000000 + f.imm.toNat)
  | .fencec => some (0x4400000000000000 + put f.dl 55)
  | _ => none

/-- The slot of a chunk instruction. -/
def encodeChunk (f : ChunkFields) (i : Instr) : Option (BitVec 64) := (chunkNumber f i).map (BitVec.ofNat 64)

/-- What the decoder reads from an instruction whose bits are w, the first word lowest (the host's tick). -/
def decodeTableWord (nbits w : Nat) : Option Instr :=
  if nbits ≤ 64 then
    match decodeWords (BitVec.ofNat 32 w) (BitVec.ofNat 32 (w / 2 ^ 32)) with
    | .ok i => some i
    | .error _ => none
  else none

end Sys2Proof
end

