-- ==== Sys2Proof/Machine/CtlRegs.lean ====
section
/-! DEFINITION. The control registers: reading and writing every one of them (01_strand_machine.md R22 to R28, with the
layouts of R102, R143, R201, R224, R231 to R237, R254, R260, R271, R274, R277, R285, R293, R294, R343, R420, R438, R520), the
supervisor registers (20_module_host.md R480, 23_bringup_reference.md R531), and the instructions MFS, MTS, NOW, SETDL,
NEXTT, PRIO and PROFRD. -/
namespace Sys2Proof.Machine

/-! ### Supervisor registers -/

/-- The module of a cluster. -/
def modOfCluster (k : Nat) : Nat := modOf (16 * k)

/-- The cluster is a cluster of compute tiles of module m. -/
def isClusterOf (m k : Nat) : Bool := decide (k < 2 ^ 24) && modOfCluster k == m

/-- The units of 4 KiB of a scrub operation still to be zeroed (R480): a cluster has 16 tiles of 64 and a store of 16. -/
def ScrubOp.units (o : ScrubOp) : Nat :=
  match o.cluster with
  | some _ => 16 * 64 + 16
  | none => 16 * (o.pages - o.done.length)

/-- SCRUBP (R480). -/
def State.scrubp (s : State) (m : Nat) : Word :=
  let md := s.mod m
  let quar := !md.scrubs.isEmpty || md.service.any (fun e => e.2 == 2) || s.clusters.any (fun e => isClusterOf m e.1 && (e.2.quar || e.2.failed))
  BitVec.ofNat 64 ((if md.scrubs.isEmpty then 0 else 2 ^ 63) + (if quar then 2 ^ 62 else 0) +
    md.scrubs.length % 2 ^ 16 * 2 ^ 32 + (md.scrubs.map ScrubOp.units).foldl (· + ·) 0 % 2 ^ 32)

/-- A link of a module, by its location code without the lane (R435, R527). -/
def Module.link (md : Module) (l : Nat) : Link := SMap.get {} md.links l

/-- Island i of a module. -/
def Module.island (md : Module) (i : Nat) : Island := SMap.get {} md.islands i
def Module.setIsland (md : Module) (i : Nat) (x : Island) : Module := { md with islands := SMap.set md.islands i x }

/-- ISLCTL (R531). -/
def Module.islctl (md : Module) : Word :=
  let x := md.island md.islSel.toNat
  BitVec.ofNat 64 ((if x.busy then 2 ^ 63 else 0) + (if md.islFail then 2 ^ 62 else 0) + md.islSel.toNat * 2 ^ 48 +
    x.op.toNat * 2 ^ 40 + x.req.toNat * 2 ^ 32 + x.temp.toNat)

/-- The island of a cluster within its module (R530). -/
def islandOf (k : Nat) : Nat :=
  let p := k % 2 ^ 14
  p / 2 ^ 10 * 16 + p / 2 ^ 5 % 32 / 5 * 4 + p % 2 ^ 5 / 5

/-- A cluster of island i of module m is bound. -/
def State.islandBound (s : State) (m i : Nat) : Bool :=
  s.clusters.any (fun e => isClusterOf m e.1 && islandOf e.1 == i && e.2.ctx.isSome)

/-- The module gives reduced service (R526): from phase 3 to the end of phase 5. -/
def Module.reduced (md : Module) : Bool := decide (3 ≤ md.phase) && decide (md.phase < 6)

/-- The operating point that the island holds or falls to; an island that is off counts as OP0. -/
def Island.level (x : Island) : BitVec 3 :=
  if x.op = 7 then 0 else if x.busy ∧ x.target.toNat ≤ 3 then (if x.op ≤ x.target then x.op else x.target) else x.op

/-- The point to which an island may go at once for a request (R526, R532, R533): in reduced service and below the minimum flow OP0, while it is
hot none above its level. -/
def Module.allowed (md : Module) (x : Island) (req : BitVec 3) : BitVec 3 :=
  if req = 7 then 7 else if md.lowFlow || md.reduced then 0 else if x.hot ∧ x.level < req then x.level else req

/-- The island begins a transition to an operating point (R531), unless it is there. -/
def Island.goTo (x : Island) (op : BitVec 3) : Island := { x with target := op, busy := x.busy || op != x.op }

/-- A write to ISLCTL (R531): one that is refused sets FAIL and changes nothing else. -/
def State.writeIslctl (s : State) (m : Nat) (v : Word) : State :=
  let i := bitsOf v.toNat 55 48
  let req := BitVec.ofNat 3 (bitsOf v.toNat 34 32)
  let md := s.mod m
  let x := md.island i
  let bad : Bool := decide (4 ≤ req.toNat ∧ req.toNat ≤ 6) || (req == 7 && s.islandBound m i)
  if bad then s.setMod m { md with islFail := true }
  else
    s.setMod m (({ md with islSel := BitVec.ofNat 8 i, islFail := false }).setIsland i ({ x with req := req }.goTo (md.allowed x req)))

/-- A write-one-to-clear write to HREF (R480): every bit written 1 is cleared. -/
def State.writeHref (s : State) (m : Nat) (v : Word) : State :=
  s.setMod m { s.mod m with href := (s.mod m).href &&& ~~~(v.setWidth 32) }

/-- The value of a supervisor register (R480); none for an unassigned number. -/
def State.readSup (s : State) (m r : Nat) : Option Word :=
  let md := s.mod m
  match r with
  | 512 => some md.evt
  | 513 => some (md.evlost.setWidth 64)
  | 514 => some (s.scrubp m)
  | 515 => some (BitVec.ofNat 64 (m % 1024))
  | 516 => some (BitVec.ofNat 64 (md.pending.foldl (fun a i => a ||| 2 ^ (i % 16)) 0))
  | 517 => some (md.href.setWidth 64)
  | 518 => some md.islctl
  | _ => none

/-- The state after a write to a writable supervisor register (R480). -/
def State.writeSup (s : State) (m r : Nat) (v : Word) : Option State :=
  match r with
  | 512 => some (s.setMod m { s.mod m with evt := BitVec.ofNat 64 (v.toNat % 32) })
  | 513 => some (s.setMod m { s.mod m with evlost := v.setWidth 32 })
  | 517 => some (s.writeHref m v)
  | 518 => some (s.writeIslctl m v)
  | _ => none

/-! ### Strand and tile registers -/

/-- OAK (R285). -/
def Strand.oak (r : Strand) : Word := BitVec.ofNat 64 (r.oakSys.toNat * 2 ^ 32 + r.oakCtx.toNat * 2 ^ 16 + r.oakTile.toNat)

/-- PRIOC (R224, R225). -/
def Strand.prioc (r : Strand) : Word :=
  BitVec.ofNat 64 ((if r.comm && r.raised then 8 else 0) + (if r.comm then 4 else 0) + r.prio.toNat)

/-- SCHC (R271). -/
def schc (r : Strand) : Word :=
  BitVec.ofNat 64 (r.schcBase.toNat * 2 ^ 36 + r.schcLen.toNat * 2 ^ 16 + r.cur.toNat)

/-- The value of a strand register or a tile-wide register of strand n of tile t (R23, R24); none for an unassigned number.
A management tile has no REGA0 and REGA1 (R478). What CODEST.reg has put over a field that the hardware computes reads so until the strand
starts again (R484, log entry 14); STAT.MODE is the tile's alone (R36). -/
def State.readReg (s : State) (t : Nat) (n : BitVec 2) (r : Nat) : Option Word :=
  let x := s.tile t
  let z := x.strand n
  let k := s.cluster (clusterOf t)
  match r with
  | 0 => some (statWord z.st x.irv z.th (isMgmt t))
  | 1 => some (z.wst.setWidth 64)
  | 2 => some (z.dla.setWidth 64)
  | 3 => some (z.dt[0].setWidth 64)
  | 4 => some (z.dt[1].setWidth 64)
  | 5 => some (z.dt[2].setWidth 64)
  | 6 => some (z.dt[3].setWidth 64)
  | 7 => some (z.dt[4].setWidth 64)
  | 8 => some (z.dt[5].setWidth 64)
  | 9 => some (z.dt[6].setWidth 64)
  | 10 => some (z.flg.setWidth 64)
  | 11 => some (z.tvec.setWidth 64)
  | 12 => some (z.tcause.setWidth 64)
  | 13 => some (z.tpc.setWidth 64)
  | 14 => some z.tval
  | 15 => some (z.tpol.setWidth 64)
  | 16 => some z.mtm
  | 17 => some z.vpm
  | 18 => some (z.sen.setWidth 64)
  | 19 => some (BitVec.ofNat 64 (x.num * 2 ^ 16 + x.att % 2 ^ 16))
  | 20 => some (z.dlpol.setWidth 64)
  | 21 => some (BitVec.ofNat 64 (z.wtoAddr.toNat * 2 ^ 32 + z.wtoCount.toNat))
  | 22 => some z.prioc
  | 23 => some (k.clim.setWidth 64)
  | 24 => some (schc z)
  | 25 => some z.lstk[0]
  | 26 => some z.lstk[1]
  | 27 => some z.lstk[2]
  | 28 => some z.lstk[3]
  | 29 => some (x.vtid.setWidth 64)
  | 30 => some ((SMap.find z.forced 30).getD (BitVec.ofNat 64 (ptidOf t)))
  | 31 => some ((SMap.find z.forced 31).getD (n.setWidth 64))
  | 32 => some z.oak
  | 33 => some ((SMap.find z.forced 33).getD (BitVec.ofNat 64 x.retu))
  | 34 => some ((SMap.find z.forced 34).getD 65536)
  | 35 => some (BitVec.ofNat 64 (k.elect.toNat + (if (match SMap.find z.forced 35 with
      | some v => v.getLsbD 4
      | none => isMgmt t || t % 16 == k.elect.toNat) then 16 else 0)))
  | 36 => some ((s.tick t).setWidth 64)
  | 256 => if isMgmt t then none else some x.rega0
  | 257 => if isMgmt t then none else some x.rega1
  | 260 => some x.qcfg[0]
  | 261 => some x.qcfg[1]
  | 262 => some x.qcfg[2]
  | 263 => some x.qcfg[3]
  | 264 => some x.grpm
  | 270 => some x.ewin
  | 271 => some x.ethr
  | 272 => some (x.window (s.refTick (modOf t))).ecnt
  | _ => if 280 ≤ r ∧ r ≤ 343 then some (SMap.get 0 x.latacc (r - 280)) else none

/-- TPOL after a write: a field written 3 holds 2 (R420). -/
def tpolWrite (v : Word) : BitVec 12 :=
  BitVec.ofNat 12 ((span 0 6).foldl (fun a i => a + min (bitsOf v.toNat (2 * i + 1) (2 * i)) 2 * 4 ^ i) 0)

/-- A placed message of the open superstep names queue q and awaits its commit (R284, R294). -/
def Tile.messageWaits (x : Tile) (q : BitVec 2) : Bool :=
  x.inbox.any (fun d => d.num == x.num && (match d.body with | .message p _ _ => p == q | _ => false))

/-- The committed head of queue q (R297); a management tile commits at once. -/
def Tile.headFrom (x : Tile) (mgmt : Bool) (q : BitVec 2) : Nat := if mgmt then qHead (x.qcfgAt q) else x.cheadAt q

/-- A write to QCFGq (R294). -/
def Tile.writeQcfg (x : Tile) (mgmt : Bool) (q : BitVec 2) (v : Word) : Tile :=
  let c := x.qcfgAt q
  let ch := x.headFrom mgmt q
  let fixed := qHead c ≠ qTail c ∨ x.overflowAt q ≠ [] ∨ x.messageWaits q = true
  let h := qHead v
  let ok := h % 16 = 0 ∧ (h + 65536 - ch) % 65536 ≤ (qTail c + 65536 - ch) % 65536
  let head := if ok then h else qHead c
  if fixed then x.setQcfg q (qPack head (qTail c) (qEn c) (qLog c) (qBase c))
  else x.setQcfg q (qPack head (qTail c) (qEn v) (qLog v) (qBase v))

/-- The writable bits of a loop-stack entry (R143). -/
def lstkMask : Word := 0xFFFFFFFCFFFFFFFF

/-- The state after a write of v to a register that strand n of tile t may write (R22, R23, R24), RO and reserved fields
ignored; none when the register is not writable in the mode. -/
def State.writeReg (s : State) (t : Nat) (n : BitVec 2) (r : Nat) (v : Word) : Option State :=
  let x := s.tile t
  let z := x.strand n
  let put : Strand → Option State := fun y => some (s.setTile t (x.setStrand n y))
  match r with
  | 1 => put { z with wst := v.setWidth 8 }
  | 2 => put { z with dla := v.setWidth 48 }
  | 3 => put { z with dt := z.dt.set 0 (v.setWidth 32) }
  | 4 => put { z with dt := z.dt.set 1 (v.setWidth 32) }
  | 5 => put { z with dt := z.dt.set 2 (v.setWidth 32) }
  | 6 => put { z with dt := z.dt.set 3 (v.setWidth 32) }
  | 7 => put { z with dt := z.dt.set 4 (v.setWidth 32) }
  | 8 => put { z with dt := z.dt.set 5 (v.setWidth 32) }
  | 9 => if isMgmt t then put { z with dt := z.dt.set 6 (v.setWidth 32) } else none
  | 10 => put { z with flg := flgWrite z.flg v }
  | 11 => put { z with tvec := v.setWidth 16 &&& 0xFFFD }
  | 13 => put { z with tpc := v.setWidth 16 &&& 0xFFFC }
  | 15 => put { z with tpol := tpolWrite v }
  | 16 => put { z with mtm := v }
  | 17 => put { z with vpm := v }
  | 20 => put { z with dlpol := v.setWidth 16 }
  | 21 => put { z with wtoAddr := BitVec.ofNat 16 (bitsOf v.toNat 47 32), wtoCount := v.setWidth 16 }
  | 22 => put { z with prio := v.setWidth 2, comm := v.getLsbD 2 }
  | 24 => put { z with cur := v.setWidth 11 }
  | 25 => put { z with lstk := z.lstk.set 0 (v &&& lstkMask) }
  | 26 => put { z with lstk := z.lstk.set 1 (v &&& lstkMask) }
  | 27 => put { z with lstk := z.lstk.set 2 (v &&& lstkMask) }
  | 28 => put { z with lstk := z.lstk.set 3 (v &&& lstkMask) }
  | 256 => some (s.setTile t { x with rega0 := v })
  | 257 => some (s.setTile t { x with rega1 := v })
  | 260 => some (s.setTile t (x.writeQcfg (isMgmt t) 0 v))
  | 261 => some (s.setTile t (x.writeQcfg (isMgmt t) 1 v))
  | 262 => some (s.setTile t (x.writeQcfg (isMgmt t) 2 v))
  | 263 => some (s.setTile t (x.writeQcfg (isMgmt t) 3 v))
  | _ => none

/-! ### The instructions -/

/-- MFS (R22, R151): PRIVILEGE for a number from 512 up in user mode, ILLEGAL_ENCODING for an unassigned number, with TVAL
the number. -/
def execMfs (d : BitVec 6) (r : BitVec 10) (s : State) : Host.Outcome State Fault Refusal :=
  s.finishSeq (.mfs d r)
    (if 512 ≤ r.toNat ∧ s.supervisor = false then raise cPRIV 0 (r.setWidth 64)
    else
      match (if 512 ≤ r.toNat then s.readSup (modOf s.curTile) r.toNat else s.readReg s.curTile s.curStrand r.toNat) with
      | none => raise cILLENC 0 (r.setWidth 64)
      | some v => .ok (s.setS d v))

/-- MTS (R22, R151): as MFS, then PRIVILEGE for an assigned register that the mode may not write. -/
def execMts (a : BitVec 6) (r : BitVec 10) (s : State) : Host.Outcome State Fault Refusal :=
  s.finishSeq (.mts a r)
    (if 512 ≤ r.toNat ∧ s.supervisor = false then raise cPRIV 0 (r.setWidth 64)
    else if 512 ≤ r.toNat then
      match s.readSup (modOf s.curTile) r.toNat, s.writeSup (modOf s.curTile) r.toNat (s.getS a) with
      | none, _ => raise cILLENC 0 (r.setWidth 64)
      | some _, none => raise cPRIV 0 (r.setWidth 64)
      | some _, some t => .ok t
    else
      match s.readReg s.curTile s.curStrand r.toNat, s.writeReg s.curTile s.curStrand r.toNat (s.getS a) with
      | none, _ => raise cILLENC 0 (r.setWidth 64)
      | some _, none => raise cPRIV 0 (r.setWidth 64)
      | some _, some t => .ok t)

/-- NOW (R252). -/
def execNow (d : BitVec 6) (s : State) : Host.Outcome State Fault Refusal :=
  s.finishSeq (.now d) (.ok (s.setS d ((s.tick s.curTile).setWidth 64)))

/-- SETDL (R251). -/
def execSetdl (a : BitVec 6) (s : State) : Host.Outcome State Fault Refusal :=
  let o := min (s.getS a).toNat (2 ^ 47 - 1)
  s.finishSeq (.setdl a) (.ok (s.setMe { s.me with dla := s.tick s.curTile + BitVec.ofNat 48 o }))

/-- NEXTT (R272): it does not wait and leaves WTO unchanged. Not on a management tile (R478). -/
def execNextt (d : BitVec 6) (s : State) : Host.Outcome State Fault Refusal :=
  s.finishSeq (.nextt d) (do
    s.notMgmt
    let x := s.me
    let cur := x.cur.toNat
    if x.schcLen.toNat ≤ cur then .ok (s.setMe { s.me with wst := 5 })
    else
      let t := s.setS d (BitVec.ofNat 64 (x.schcBase.toNat * 16 + 16 * cur))
      .ok (t.setMe { t.me with cur := BitVec.ofNat 11 (cur + 1), wst := 0 }))

/-- PRIO (R273). -/
def execPrio (c : BitVec 1) (p : BitVec 2) (s : State) : Host.Outcome State Fault Refusal :=
  s.finishSeq (.prio c p) (.ok (s.setMe { s.me with prio := p, comm := c == 1 }))

/-- PROFRD (R521). -/
def execProfrd (d a : BitVec 6) (s : State) : Host.Outcome State Fault Refusal :=
  s.finishSeq (.profrd d a) (.ok (s.setS d (SMap.get 0 s.here.latacc ((s.getS a).toNat % 64))))

/-- PROFRD.CLR (R521): the account is read and cleared. -/
def execProfrdClr (d a : BitVec 6) (s : State) : Host.Outcome State Fault Refusal :=
  let i := (s.getS a).toNat % 64
  let t := s.setS d (SMap.get 0 s.here.latacc i)
  s.finishSeq (.profrdClr d a) (.ok (t.setHere { t.here with latacc := SMap.del t.here.latacc i }))

end Sys2Proof.Machine
end

