-- ==== Sys2Proof/Machine/Fetch.lean ====
section
/-! DEFINITION. From the instruction store to a unit: fetch blocks (10_clusters_launch.md R256, R257), the words of a unit and
the checks of R65 in the order of R422, the registers a unit reads (R431), and the choice among ready strands (R226). -/
namespace Sys2Proof.Machine

/-! ### The words of a unit -/

/-- The word is a prefix word (R43). -/
def isPrefixWord (w : BitVec 32) : Bool := w.toNat / 2 ^ 30 == 2

/-- The prefix words of the unit at a, at most f; a word at or beyond CLIM is not fetched. -/
def Cluster.prefixes (k : Cluster) : Nat → Nat → List (BitVec 32)
  | 0, _ => []
  | f + 1, a => if a < k.clim.toNat ∧ isPrefixWord (k.word a) then k.word a :: Cluster.prefixes k f (a + 4) else []

/-- The words of a unit: its prefixes, the own address, the first word of its instruction and the word after it. -/
structure FUnit where
  pre     : List (BitVec 32)
  own     : Nat
  first   : BitVec 32
  payload : BitVec 32
deriving DecidableEq, Repr

/-- The unit at pc (R45). -/
def Cluster.unitAt (k : Cluster) (pc : Nat) : FUnit :=
  let pre := k.prefixes 3 pc
  let own := pc + 4 * pre.length
  { pre := pre, own := own, first := k.word own, payload := k.word (own + 4) }

/-- A third prefix is reported without the word after it being fetched (R60). -/
def FUnit.third (u : FUnit) : Bool := decide (3 ≤ u.pre.length)

/-- The instruction has a payload word (R43). -/
def FUnit.two (u : FUnit) : Bool := u.first.toNat / 2 ^ 30 == 3

/-- The address past the last word of the unit. -/
def FUnit.next (u : FUnit) : Nat := if u.third then u.own else u.own + (if u.two then 8 else 4)

/-- The addresses of the words of the unit at pc that lie below CLIM. -/
def Cluster.unitAddrs (k : Cluster) (pc : Nat) : List Nat :=
  ((span 0 5).map (fun i => pc + 4 * i)).filter (fun a => decide (a < (k.unitAt pc).next) && decide (a < k.clim.toNat))

/-! ### The checks -/

/-- The causes of R65 steps 1 and 2 (R29, R44, R268). -/
def State.fetchChecks (s : State) (u : FUnit) : Except Stop Unit :=
  let clim := (s.cluster (clusterOf s.curTile)).clim.toNat
  match s.me.badEntry with
  | some v => if clim ≤ v.toNat then raise cFETCH 0 v else raise cMISAL 0 v
  | none =>
    if !u.third ∧ clim ≤ u.own then raise cFETCH 0 (BitVec.ofNat 64 u.own)
    else if !u.third ∧ u.two ∧ clim ≤ u.own + 4 then raise cFETCH 0 (BitVec.ofNat 64 (u.own + 4))
    else if !u.third ∧ u.two ∧ u.own % 8 ≠ 0 then raise cMISAL 0 (BitVec.ofNat 64 u.own)
    else .ok ()

/-- An uncorrectable error of the instruction store in a word of the unit (R431): such a word cannot be decoded (log entry 50). -/
def State.storeCheck (s : State) : Except Stop Unit :=
  let k := s.cluster (clusterOf s.curTile)
  if k.errs = [] then .ok ()
  else match (k.unitAddrs s.me.pc.toNat).find? (fun a => k.errs.any (fun e => e.hard && e.loc == .store (a / 32))) with
    | some a => .error (.counted cSRAM 3 (BitVec.ofNat 64 a) (!s.supervisor) (a / 32 % 16))
    | none => .ok ()

/-- An enabled instruction breakpoint of the strand matches the unit's address (R510). -/
def State.breakpoint (s : State) : Bool :=
  !s.me.skipBp && (span 0 4).any (fun i =>
    let b := (s.here.dbg.ibp.getD (4 * s.curStrand.toNat + i) 0).toNat
    bitAt b 63 && bitsOf b 15 2 * 4 == s.me.pc.toNat)

/-- The first offending prefix word of R60, as its place and SUB; a third prefix word whose OP is unassigned too is reported with SUB 0
(log entry 50). -/
def prefixRule (pre : List (BitVec 32)) : Option (Nat × BitVec 8) :=
  let op := fun (i : Nat) => ((pre.getD i 0).toNat / 2 ^ 22) % 128
  (span 0 pre.length).findSome? (fun i =>
    if 3 ≤ op i then some (i, 0)
    else if i = 2 then some (i, 1)
    else if i = 1 ∧ op 1 = op 0 then some (i, 2)
    else none)

/-- The least X of a PEXT that leaves a bit set which the instruction of this first word needs zero (R57): its OP tells. An instruction
that does not accept PEXT sets no bound; it raises PREFIX_MISMATCH (log entry 50). -/
def pextBound (first : BitVec 32) : Nat :=
  match decodeWords (first &&& 0xDFC00000) 0 with
  | .ok i => if i.acceptsPext then i.pextLimit else 2 ^ 22
  | .error _ => 2 ^ 22

/-- A prefix word has a reserved field that is not zero or a field out of range, X of a PEXT being below a bound (R57). -/
def badPrefixWord (bound : Nat) (w : BitVec 32) : Bool :=
  match decodePrefix w with
  | .error .reserved => true
  | .ok (.pext x) => decide (bound ≤ x.toNat)
  | _ => false

/-- The instruction accepts the prefix (R59). -/
def acceptsPfx (i p : Instr) : Bool :=
  match p with
  | .prnd _ _ => i.acceptsPrnd
  | .pext _ => i.acceptsPext
  | .pone => i.acceptsPone
  | _ => false

/-- An MFS or MTS names an unassigned register, which is an encoding cause of its own TVAL (R22, R65 step 4). -/
def State.unassignedReg (s : State) (i : Instr) : Option (BitVec 10) :=
  let none_ := fun (r : BitVec 10) =>
    if 512 ≤ r.toNat then s.supervisor && (s.readSup (modOf s.curTile) r.toNat).isNone
    else (s.readReg s.curTile s.curStrand r.toNat).isNone
  match i with
  | .mfs _ r => if none_ r then some r else none
  | .mts _ r => if none_ r then some r else none
  | _ => none

/-- ILLEGAL_ENCODING with a TVAL that the instruction states itself: an unassigned register (R22), or RTT outside a handler (R41). -/
def State.encodingOf (s : State) (i : Instr) : Option Word :=
  match i with
  | .rtt => if s.me.th then none else some 0
  | i => (s.unassignedReg i).map (fun r => r.setWidth 64)

/-- R65 steps 3 to 7 for the words of a unit: the instruction and its prefixes, or the first check that fails. -/
def State.decodeUnit (s : State) (u : FUnit) : Except Stop (List Instr × Instr) :=
  let pc := s.me.pc.toNat
  let at_ := fun (i : Nat) => BitVec.ofNat 64 (pc + 4 * i)
  let word64 := fun (w : BitVec 32) => w.setWidth 64
  let badPre := u.pre.find? (badPrefixWord (if u.third then 2 ^ 22 else pextBound u.first))
  if u.third then
    match badPre with
    | some w => raise cILLENC 2 (word64 w)
    | none =>
      match prefixRule u.pre with
      | some (i, sub) => raise cILLPFX sub (at_ i)
      | none => raise cILLPFX 1 (at_ 2)
  else
    match decodeWords u.first u.payload with
    | .error .unassigned => raise cILLOP 0 (word64 u.first)
    | r =>
      match r, badPre with
      | .ok (.ill x), _ => if u.pre = [] then .ok ([], .ill x) else raise cILLOP 1 (word64 u.first)
      | _, some w => raise cILLENC 2 (word64 w)
      | .error e, none => if e = .payload then raise cILLENC 1 (word64 u.payload) else raise cILLENC 0 (word64 u.first)
      | .ok i, none =>
        match s.encodingOf i with
        | some v => raise cILLENC 0 v
        | none =>
          match prefixRule u.pre with
          | some (j, sub) => raise cILLPFX sub (at_ j)
          | none =>
            match (span 1 u.pre.length).find? (fun j => ((u.pre ++ [u.first]).getD j 0).getLsbD 29) with
            | some j => raise cORPHAN 0 (at_ j)
            | none =>
              let ps := u.pre.filterMap (fun w => (decodePrefix w).toOption)
              match (span 0 ps.length).find? (fun j => !acceptsPfx i (ps.getD j .nop)) with
              | some j => raise cPFXMIS 0 (at_ j)
              | none => .ok (ps, i)

/-! ### The registers a unit reads at issue -/

/-- The registers an instruction reads at issue, by the file numbers of R431 and their numbers: 0 scalar, 1 vector with
the destination of a predicated instruction (R158), 2 predicate, 3 descriptor, 4 token, 5 control register. s0 and p0 are
fixed. -/
def readsOf (i : Instr) : List (BitVec 8 × Nat) :=
  match i with
  | .add _ a b => [(0, a.toNat), (0, b.toNat)]
  | .sub _ a b => [(0, a.toNat), (0, b.toNat)]
  | .and _ a b => [(0, a.toNat), (0, b.toNat)]
  | .or _ a b => [(0, a.toNat), (0, b.toNat)]
  | .xor _ a b => [(0, a.toNat), (0, b.toNat)]
  | .andn _ a b => [(0, a.toNat), (0, b.toNat)]
  | .shl _ a b => [(0, a.toNat), (0, b.toNat)]
  | .shr _ a b => [(0, a.toNat), (0, b.toNat)]
  | .sra _ a b => [(0, a.toNat), (0, b.toNat)]
  | .rol _ a b => [(0, a.toNat), (0, b.toNat)]
  | .min _ a b => [(0, a.toNat), (0, b.toNat)]
  | .max _ a b => [(0, a.toNat), (0, b.toNat)]
  | .minn _ a b => [(0, a.toNat), (0, b.toNat)]
  | .maxn _ a b => [(0, a.toNat), (0, b.toNat)]
  | .adds _ a b => [(0, a.toNat), (0, b.toNat)]
  | .subs _ a b => [(0, a.toNat), (0, b.toNat)]
  | .mul _ a b => [(0, a.toNat), (0, b.toNat)]
  | .mulh _ a b => [(0, a.toNat), (0, b.toNat)]
  | .mulhn _ a b => [(0, a.toNat), (0, b.toNat)]
  | .div _ a b => [(0, a.toNat), (0, b.toNat)]
  | .divn _ a b => [(0, a.toNat), (0, b.toNat)]
  | .rem _ a b => [(0, a.toNat), (0, b.toNat)]
  | .remn _ a b => [(0, a.toNat), (0, b.toNat)]
  | .clz _ a => [(0, a.toNat)]
  | .ctz _ a => [(0, a.toNat)]
  | .popc _ a => [(0, a.toNat)]
  | .brev _ a => [(0, a.toNat)]
  | .seq _ a b => [(0, a.toNat), (0, b.toNat)]
  | .sne _ a b => [(0, a.toNat), (0, b.toNat)]
  | .slt _ a b => [(0, a.toNat), (0, b.toNat)]
  | .sge _ a b => [(0, a.toNat), (0, b.toNat)]
  | .sltn _ a b => [(0, a.toNat), (0, b.toNat)]
  | .sgen _ a b => [(0, a.toNat), (0, b.toNat)]
  | .cmov d a b => [(0, a.toNat), (0, b.toNat), (0, d.toNat)]
  | .addi _ a _ => [(0, a.toNat)]
  | .andi _ a _ => [(0, a.toNat)]
  | .ori _ a _ => [(0, a.toNat)]
  | .xori _ a _ => [(0, a.toNat)]
  | .shli _ a _ => [(0, a.toNat)]
  | .shri _ a _ => [(0, a.toNat)]
  | .srai _ a _ => [(0, a.toNat)]
  | .muli _ a _ => [(0, a.toNat)]
  | .slti _ a _ => [(0, a.toNat)]
  | .sltni _ a _ => [(0, a.toNat)]
  | .lea _ a b _ => [(0, a.toNat), (0, b.toNat)]
  | .ldih x _ => [(0, x.toNat)]
  | .bext _ a _ _ => [(0, a.toNat)]
  | .bins d a _ _ => [(0, d.toNat), (0, a.toNat)]
  | .ldI8 _ a _ => [(0, a.toNat)]
  | .ldI16 _ a _ => [(0, a.toNat)]
  | .ldI32 _ a _ => [(0, a.toNat)]
  | .ldI64 _ a _ => [(0, a.toNat)]
  | .ldN8 _ a _ => [(0, a.toNat)]
  | .ldN16 _ a _ => [(0, a.toNat)]
  | .ldN32 _ a _ => [(0, a.toNat)]
  | .st8 d a _ => [(0, d.toNat), (0, a.toNat)]
  | .st16 d a _ => [(0, d.toNat), (0, a.toNat)]
  | .st32 d a _ => [(0, d.toNat), (0, a.toNat)]
  | .st64 d a _ => [(0, d.toNat), (0, a.toNat)]
  | .ldbits _ a _ => [(0, a.toNat)]
  | .stbits d a _ => [(0, d.toNat), (0, a.toNat)]
  | .amoadd32 _ a b => [(0, a.toNat), (0, b.toNat)]
  | .amoand32 _ a b => [(0, a.toNat), (0, b.toNat)]
  | .amoor32 _ a b => [(0, a.toNat), (0, b.toNat)]
  | .amoxor32 _ a b => [(0, a.toNat), (0, b.toNat)]
  | .amomin32 _ a b => [(0, a.toNat), (0, b.toNat)]
  | .amomax32 _ a b => [(0, a.toNat), (0, b.toNat)]
  | .amoswp32 _ a b => [(0, a.toNat), (0, b.toNat)]
  | .amoadd64 _ a b => [(0, a.toNat), (0, b.toNat)]
  | .amoand64 _ a b => [(0, a.toNat), (0, b.toNat)]
  | .amoor64 _ a b => [(0, a.toNat), (0, b.toNat)]
  | .amoxor64 _ a b => [(0, a.toNat), (0, b.toNat)]
  | .amomin64 _ a b => [(0, a.toNat), (0, b.toNat)]
  | .amomax64 _ a b => [(0, a.toNat), (0, b.toNat)]
  | .amoswp64 _ a b => [(0, a.toNat), (0, b.toNat)]
  | .amocas _ a b _ n => [(0, a.toNat), (0, b.toNat), (0, n.toNat)]
  | .ldfe _ a _ => [(0, a.toNat)]
  | .ldfeKeep _ a _ => [(0, a.toNat)]
  | .stfe d a _ => [(0, d.toNat), (0, a.toNat)]
  | .fetagSetf _ a b => [(0, a.toNat), (0, b.toNat)]
  | .fetagSete _ a b => [(0, a.toNat), (0, b.toNat)]
  | .fetagPeek _ a => [(0, a.toNat)]
  | .bz x _ => [(0, x.toNat)]
  | .bnz x _ => [(0, x.toNat)]
  | .bltz x _ => [(0, x.toNat)]
  | .bgez x _ => [(0, x.toNat)]
  | .bgtz x _ => [(0, x.toNat)]
  | .blez x _ => [(0, x.toNat)]
  | .bcmp a b _ _ => [(0, a.toNat), (0, b.toNat)]
  | .jr a => [(0, a.toNat)]
  | .jalr _ a => [(0, a.toNat)]
  | .bws _ _ => [(5, 1)]
  | .bp p _ _ => [(2, p.toNat)]
  | .loop x _ => [(0, x.toNat)]
  | .mfs _ r => [(5, r.toNat)]
  | .mts a _ => [(0, a.toNat)]
  | .svc _ => [(0, 16)]
  | .rtt => [(5, 0), (5, 13)]
  | .vadd d a b p _ => [(1, d.toNat), (1, a.toNat), (1, b.toNat), (2, p.toNat)]
  | .vsub d a b p _ => [(1, d.toNat), (1, a.toNat), (1, b.toNat), (2, p.toNat)]
  | .vmul d a b p _ => [(1, d.toNat), (1, a.toNat), (1, b.toNat), (2, p.toNat)]
  | .vfma d a b p _ => [(1, d.toNat), (1, a.toNat), (1, b.toNat), (2, p.toNat)]
  | .vfms d a b p _ => [(1, d.toNat), (1, a.toNat), (1, b.toNat), (2, p.toNat)]
  | .vfnma d a b p _ => [(1, d.toNat), (1, a.toNat), (1, b.toNat), (2, p.toNat)]
  | .vmin d a b p _ => [(1, d.toNat), (1, a.toNat), (1, b.toNat), (2, p.toNat)]
  | .vmax d a b p _ => [(1, d.toNat), (1, a.toNat), (1, b.toNat), (2, p.toNat)]
  | .vabs d a p _ => [(1, d.toNat), (1, a.toNat), (2, p.toNat)]
  | .vneg d a p _ => [(1, d.toNat), (1, a.toNat), (2, p.toNat)]
  | .vdiv d a b p _ => [(1, d.toNat), (1, a.toNat), (1, b.toNat), (2, p.toNat)]
  | .vsqrt d a p _ => [(1, d.toNat), (1, a.toNat), (2, p.toNat)]
  | .vand d a b p => [(1, d.toNat), (1, a.toNat), (1, b.toNat), (2, p.toNat)]
  | .vor d a b p => [(1, d.toNat), (1, a.toNat), (1, b.toNat), (2, p.toNat)]
  | .vxor d a b p => [(1, d.toNat), (1, a.toNat), (1, b.toNat), (2, p.toNat)]
  | .vandn d a b p => [(1, d.toNat), (1, a.toNat), (1, b.toNat), (2, p.toNat)]
  | .vshl d a b p _ => [(1, d.toNat), (1, a.toNat), (1, b.toNat), (2, p.toNat)]
  | .vshr d a b p _ => [(1, d.toNat), (1, a.toNat), (1, b.toNat), (2, p.toNat)]
  | .vsra d a b p _ => [(1, d.toNat), (1, a.toNat), (1, b.toNat), (2, p.toNat)]
  | .vops d a p _ _ n => [(0, n.toNat), (1, d.toNat), (1, a.toNat), (2, p.toNat)]
  | .vcmp _ a b _ _ => [(1, a.toNat), (1, b.toNat)]
  | .vsel d a b p => [(1, d.toNat), (1, a.toNat), (1, b.toNat), (2, p.toNat)]
  | .vcvt d a _ p _ => [(1, d.toNat), (1, a.toNat), (2, p.toNat)]
  | .vbcast x b p _ => [(0, b.toNat), (1, x.toNat), (2, p.toNat)]
  | .vext x _ _ _ => [(1, x.toNat)]
  | .vins x b _ _ => [(0, b.toNat), (1, x.toNat)]
  | .vperm d a b p _ => [(1, d.toNat), (1, a.toNat), (1, b.toNat), (2, p.toNat)]
  | .vredsum _ a p _ => [(1, a.toNat), (2, p.toNat)]
  | .vredmax _ a p _ => [(1, a.toNat), (2, p.toNat)]
  | .vredmin _ a p _ => [(1, a.toNat), (2, p.toNat)]
  | .vld x b p _ => [(0, b.toNat), (1, x.toNat), (2, p.toNat)]
  | .vst x b p _ => [(0, b.toNat), (1, x.toNat), (2, p.toNat)]
  | .vldb x b p _ _ _ => [(0, b.toNat), (1, x.toNat), (2, p.toNat)]
  | .vstb x b p _ _ => [(0, b.toNat), (1, x.toNat), (2, p.toNat)]
  | .vgath x b p _ i => [(0, b.toNat), (1, x.toNat), (1, i.toNat), (2, p.toNat)]
  | .vscat x b p _ i => [(0, b.toNat), (1, x.toNat), (1, i.toNat), (2, p.toNat)]
  | .vldd _ b _ _ => [(0, b.toNat)]
  | .vstd x b p _ => [(0, b.toNat), (1, x.toNat), (2, p.toNat)]
  | .plogAnd _ a b => [(2, a.toNat), (2, b.toNat)]
  | .plogOr _ a b => [(2, a.toNat), (2, b.toNat)]
  | .plogXor _ a b => [(2, a.toNat), (2, b.toNat)]
  | .plogAndn _ a b => [(2, a.toNat), (2, b.toNat)]
  | .plogNot _ a => [(2, a.toNat)]
  | .pmov _ a => [(2, a.toNat)]
  | .pmovFrom _ s => [(0, s.toNat)]
  | .pmovTo a _ => [(2, a.toNat)]
  | .pcnt a _ => [(2, a.toNat)]
  | .zacc _ x => [(0, x.toNat)]
  | .mma _ a b k => [(3, a.toNat), (3, b.toNat), (4, k.toNat), (5, 16)]
  | .accst _ b _ _ _ _ => [(0, b.toNat)]
  | .accld _ b => [(0, b.toNat)]
  | .accsv _ b _ => [(0, b.toNat)]
  | .accanch _ x => [(0, x.toNat)]
  | .cbld _ b _ _ => [(0, b.toNat)]
  | .ldd _ b _ => [(0, b.toNat)]
  | .setd _ a _ => [(0, a.toNat)]
  | .kwait _ _ k => [(4, k.toNat)]
  | .kwany _ a _ => [(0, a.toNat)]
  | .realign _ a _ => [(0, a.toNat)]
  | .setdl a => [(0, a.toNat)]
  | .cbar _ a _ _ _ => [(0, a.toNat)]
  | .rst d a _ => [(0, d.toNat), (0, a.toNat)]
  | .vrst x b p _ => [(0, b.toNat), (1, x.toNat), (2, p.toNat)]
  | .rred d a _ => [(0, d.toNat), (0, a.toNat)]
  | .vrred x b p _ _ => [(0, b.toNat), (1, x.toNat), (2, p.toNat)]
  | .msend d a b _ => [(0, d.toNat), (0, a.toNat), (0, b.toNat)]
  | .msendEos a _ => [(0, a.toNat)]
  | .msendg d a b _ => [(0, d.toNat), (0, a.toNat), (0, b.toNat)]
  | .msendgEos a _ => [(0, a.toNat)]
  | .ldg _ a _ _ => [(0, a.toNat)]
  | .stg d a _ => [(0, d.toNat), (0, a.toNat)]
  | .redg d a _ => [(0, d.toNat), (0, a.toNat)]
  | .vldg _ a _ => [(0, a.toNat)]
  | .vstg x b p _ => [(0, b.toNat), (1, x.toNat), (1, x.toNat + 1), (2, p.toNat), (5, 17)]
  | .vredg x b p _ => [(0, b.toNat), (1, x.toNat), (1, x.toNat + 1), (2, p.toNat), (5, 17)]
  | .fetchl a k _ => [(3, a.toNat), (4, k.toNat)]
  | .fetchlNext a k _ => [(3, a.toNat), (4, k.toNat)]
  | .wbl a k => [(3, a.toNat), (4, k.toNat)]
  | .copy a k _ => [(3, a.toNat), (4, k.toNat)]
  | .copyG a k _ => [(3, a.toNat), (4, k.toNat)]
  | .coll a k => [(3, a.toNat), (4, k.toNat)]
  | .rlstatLock _ a => [(0, a.toNat)]
  | .rlstatProg _ k => [(4, k.toNat)]
  | .rlstatFaddr _ k => [(4, k.toNat)]
  | .nextt _ => [(5, 24)]
  | .profrd _ a => [(0, a.toNat)]
  | .profrdClr _ a => [(0, a.toNat)]
  | .launch _ a b k => [(0, a.toNat), (0, b.toNat), (4, k.toNat)]
  | .bindBind _ a b k => [(0, a.toNat), (0, b.toNat), (4, k.toNat)]
  | .bindUnbind _ a k => [(0, a.toNat), (4, k.toNat)]
  | .bindFence _ a k => [(0, a.toNat), (4, k.toNat)]
  | .bindUnfence _ a k => [(0, a.toNat), (4, k.toNat)]
  | .tmapMap _ a b k => [(0, a.toNat), (0, b.toNat), (4, k.toNat)]
  | .tmapInval _ a b k => [(0, a.toNat), (0, b.toNat), (4, k.toNat)]
  | .tmapGroup _ a b k => [(0, a.toNat), (0, b.toNat), (4, k.toNat)]
  | .codestCode _ a b k => [(0, a.toNat), (0, b.toNat), (4, k.toNat)]
  | .codestLocal _ a b k => [(0, a.toNat), (0, b.toNat), (4, k.toNat)]
  | .codestReg _ a b k => [(0, a.toNat), (0, b.toNat), (4, k.toNat)]
  | .codestChunk _ a b k => [(0, a.toNat), (0, b.toNat), (4, k.toNat)]
  | .codestPtab _ a b k => [(0, a.toNat), (0, b.toNat), (4, k.toNat)]
  | .startLaunch _ a k => [(0, a.toNat), (4, k.toNat)]
  | .startResume _ a b k => [(0, a.toNat), (0, b.toNat), (4, k.toNat)]
  | .startStrand _ a b k => [(0, a.toNat), (0, b.toNat), (4, k.toNat)]
  | .quiesceRequest _ a k => [(0, a.toNat), (4, k.toNat)]
  | .quiesceCkpt _ a k => [(0, a.toNat), (4, k.toNat)]
  | .quiesceCancel _ a k => [(0, a.toNat), (4, k.toNat)]
  | .quiescePark _ a k => [(0, a.toNat), (4, k.toNat)]
  | .imgmvSave _ a b k => [(0, a.toNat), (0, b.toNat), (4, k.toNat)]
  | .imgmvRestore _ a b k => [(0, a.toNat), (0, b.toNat), (4, k.toNat)]
  | .imgmvMove _ a b k => [(0, a.toNat), (0, b.toNat), (4, k.toNat)]
  | .keyld _ a b k => [(0, a.toNat), (0, b.toNat), (4, k.toNat)]
  | .keyz _ a k => [(0, a.toNat), (4, k.toNat)]
  | .scrubCluster _ a k => [(0, a.toNat), (4, k.toNat)]
  | .scrubPages _ a b k => [(0, a.toNat), (0, b.toNat), (4, k.toNat)]
  | .forceab _ a k => [(0, a.toNat), (4, k.toNat)]
  | .dumpLog _ a b k => [(0, a.toNat), (0, b.toNat), (4, k.toNat)]
  | .dumpCtx _ a b k => [(0, a.toNat), (0, b.toNat), (4, k.toNat)]
  | .dumpTrace _ a b k => [(0, a.toNat), (0, b.toNat), (4, k.toNat)]
  | _ => []

/-- The dl field of an instruction that waits under a named deadline (R229). -/
def dlOf (i : Instr) : Option (BitVec 3) :=
  match i with
  | .ldfe _ _ l => some l
  | .ldfeKeep _ _ l => some l
  | .stfe _ _ l => some l
  | .loops _ l _ => some l
  | .kwait _ l _ => some l
  | .kwany _ _ l => some l
  | .waitc l _ _ _ _ => some l
  | .fence _ l _ => some l
  | .realign _ _ l => some l
  | .cbar _ _ l _ _ => some l
  | .mrecv _ l _ => some l
  | .ldg _ _ l _ => some l
  | .vldg _ _ l => some l
  | _ => none

/-- The registers an instruction reads at issue besides its operands: the deadline that its dl names, the tokens it tests, the loop stack,
and the deadlines that a COLL carries (R393). -/
def State.readsBeside (s : State) (i : Instr) : List (BitVec 8 × Nat) :=
  let tokens := fun (mask : Nat) => ((span 0 16).filter (fun k => bitAt mask k)).map (fun k => ((4 : BitVec 8), k))
  let regs := fun (l : List Nat) => l.map (fun r => ((5 : BitVec 8), r))
  (match dlOf i with
    | some l => if l = 0 then [] else regs [if l = 7 then 2 else 2 + l.toNat]
    | none => []) ++
  (match i with
    | .kwany _ a _ => tokens (s.getS a).toNat
    | .waitc .. => tokens 0xFFFF
    | .retire => tokens 0xFFFF
    | .loop .. => regs [25, 26, 27, 28]
    | .loopi .. => regs [25, 26, 27, 28]
    | .loops .. => regs [25, 26, 27, 28]
    | .lbrk => regs [25, 26, 27, 28]
    | .coll .. => regs [2, 3, 4, 5, 6, 7, 8, 9]
    | _ => [])

/-- The registers, tokens and accumulators that an instruction writes (R31), by the file numbers of R431 and their numbers, 6 being the
accumulators; a named deadline is met before WST is written. -/
def writesOf (i : Instr) : List (BitVec 8 × Nat) :=
  match i with
  | .add d _ _ | .sub d _ _ | .and d _ _ | .or d _ _ | .xor d _ _ | .andn d _ _ | .shl d _ _ | .shr d _ _ | .sra d _ _
  | .rol d _ _ | .min d _ _ | .max d _ _ | .minn d _ _ | .maxn d _ _ | .adds d _ _ | .subs d _ _ | .mul d _ _ | .mulh d _ _
  | .mulhn d _ _ | .div d _ _ | .divn d _ _ | .rem d _ _ | .remn d _ _ | .clz d _ | .ctz d _ | .popc d _ | .brev d _
  | .seq d _ _ | .sne d _ _ | .slt d _ _ | .sge d _ _ | .sltn d _ _ | .sgen d _ _ | .cmov d _ _ | .addi d _ _ | .andi d _ _
  | .ori d _ _ | .xori d _ _ | .shli d _ _ | .shri d _ _ | .srai d _ _ | .muli d _ _ | .slti d _ _ | .sltni d _ _
  | .lea d _ _ _ | .ldk d _ | .bext d _ _ _ | .bins d _ _ _ | .ldI8 d _ _ | .ldI16 d _ _ | .ldI32 d _ _ | .ldI64 d _ _
  | .ldN8 d _ _ | .ldN16 d _ _ | .ldN32 d _ _ | .ldbits d _ _ | .amoadd32 d _ _ | .amoadd64 d _ _ | .amoand32 d _ _
  | .amoand64 d _ _ | .amoor32 d _ _ | .amoor64 d _ _ | .amoxor32 d _ _ | .amoxor64 d _ _ | .amomin32 d _ _ | .amomin64 d _ _
  | .amomax32 d _ _ | .amomax64 d _ _ | .amoswp32 d _ _ | .amoswp64 d _ _ | .amocas d _ _ _ _ | .ldfe d _ _ | .ldfeKeep d _ _
  | .fetagSetf d _ _ | .fetagSete d _ _ | .fetagPeek d _ | .jalr d _ | .mfs d _ | .kwait d _ _ | .kwany d _ _ | .fence d _ _
  | .realign d _ _ | .now d | .mrecv d _ _ | .ldg d _ _ _ | .rlstatLock d _ | .rlstatProg d _ | .rlstatFaddr d _ | .nextt d
  | .profrd d _ | .profrdClr d _ => [(0, d.toNat)]
  | .ldi d _ | .ldih d _ | .addpc d _ => [(0, d.toNat)]
  | .vext _ d _ _ => [(0, d.toNat)]
  | .pmovTo _ d | .pcnt _ d => [(0, d.toNat)]
  | .jal _ => [(0, 63)]
  | .vops d _ _ _ _ _ | .vadd d _ _ _ _ | .vsub d _ _ _ _ | .vmul d _ _ _ _ | .vfma d _ _ _ _ | .vfms d _ _ _ _
  | .vfnma d _ _ _ _ | .vmin d _ _ _ _ | .vmax d _ _ _ _ | .vabs d _ _ _ | .vneg d _ _ _ | .vdiv d _ _ _ _ | .vsqrt d _ _ _
  | .vcvt d _ _ _ _ | .vredsum d _ _ _ | .vredmax d _ _ _ | .vredmin d _ _ _ => [(1, d.toNat), (5, 10)]
  | .vand d _ _ _ | .vor d _ _ _ | .vxor d _ _ _ | .vandn d _ _ _ | .vshl d _ _ _ _ | .vshr d _ _ _ _ | .vsra d _ _ _ _
  | .vsel d _ _ _ | .vperm d _ _ _ _ | .vldg d _ _ => [(1, d.toNat)]
  | .vbcast d _ _ _ | .vins d _ _ _ | .vld d _ _ _ | .vldb d _ _ _ _ _ | .vgath d _ _ _ _ => [(1, d.toNat)]
  | .vldd x _ p _ => [(1, x.toNat), (2, p.toNat)]
  | .vcmp d _ _ _ _ => [(2, d.toNat)]
  | .plogAnd d _ _ | .plogOr d _ _ | .plogXor d _ _ | .plogAndn d _ _ | .plogNot d _ | .pmov d _ | .pmovFrom d _ => [(2, d.toNat)]
  | .ldd d _ _ | .setd d _ _ => [(3, d.toNat)]
  | .accrd c d _ _ => [(1, d.toNat), (5, 10), (6, c.toNat)]
  | .accst c _ _ _ _ _ | .accsv c _ _ => [(5, 10), (6, c.toNat)]
  | .zacc c _ | .accld c _ => [(6, c.toNat)]
  | .accanch c _ | .accadd c _ => [(5, 10), (6, c.toNat)]
  | .mma _ _ _ d | .fetchl _ d _ | .fetchlNext _ d _ | .wbl _ d | .copy _ d _ | .copyG _ d _ | .coll _ d => [(4, d.toNat)]
  | .launch d _ _ k | .bindBind d _ _ k | .tmapMap d _ _ k | .tmapInval d _ _ k | .tmapGroup d _ _ k | .codestCode d _ _ k
  | .codestLocal d _ _ k | .codestReg d _ _ k | .codestChunk d _ _ k | .codestPtab d _ _ k | .startResume d _ _ k
  | .startStrand d _ _ k | .imgmvSave d _ _ k | .imgmvRestore d _ _ k | .imgmvMove d _ _ k | .keyld d _ _ k
  | .scrubPages d _ _ k | .dumpLog d _ _ k | .dumpCtx d _ _ k | .dumpTrace d _ _ k | .bindUnbind d _ k | .bindFence d _ k
  | .bindUnfence d _ k | .startLaunch d _ k | .quiesceRequest d _ k | .quiesceCkpt d _ k | .quiesceCancel d _ k
  | .quiescePark d _ k | .keyz d _ k | .scrubCluster d _ k | .forceab d _ k => [(0, d.toNat), (4, k.toNat)]
  | .mts _ r => [(5, r.toNat)]
  | .setdl _ => [(5, 2)]
  | .waitc .. => [(5, 1)]
  | _ => []

/-- The accumulators that a matrix instruction names (R186). -/
def accsOf (i : Instr) : List (BitVec 3) :=
  match i with
  | .zacc c _ | .accanch c _ | .mma c _ _ _ | .accrd c _ _ _ | .accst c _ _ _ _ _ | .accsv c _ _ | .accld c _ => [c]
  | .accadd c a => [c, a]
  | _ => []

/-- The registers, tokens and accumulators that units of the strand issued within the last 128 cycles write: one of them may still be
unwritten (R31). No latency of R35, R184 and R213 exceeds 128 cycles, but an MMA's, which its token and R186 stand for (log entry 51). -/
def Strand.unwritten (r : Strand) (cycle : Nat) : List (BitVec 8 × Nat) :=
  (r.inFlight.filter (fun e => decide (cycle < e.2.2 + 128))).map (fun e => (e.1, e.2.1))

/-- The current strand has issued an instruction: what it writes is in flight (R31). -/
def State.noteWrites (s : State) (i : Instr) (r : Strand) : Strand :=
  { r with inFlight := r.inFlight.filter (fun e => decide (s.cycle < e.2.2 + 128)) ++ (writesOf i).map (fun e => (e.1, e.2, s.cycle)) }

/-- An instruction of the current strand reads or writes a register, token or accumulator that an earlier unit may have yet to write (R31). -/
def State.hazard (s : State) (i : Instr) : Bool :=
  let u := s.me.unwritten s.cycle
  (readsOf i ++ s.readsBeside i ++ writesOf i ++ (accsOf i).map (fun c => ((6 : BitVec 8), c.toNat))).any (fun r =>
    !((r.1 == 0 || r.1 == 2) && r.2 == 0) && u.contains r)

/-- PRIVILEGE comes before REGFILE_PARITY (R422): the instruction is one its mode or its tile may not execute. -/
def State.privileged (s : State) (i : Instr) : Bool :=
  match i with
  | .mfs _ r => decide (512 ≤ r.toNat) && !s.supervisor
  | .mts _ r =>
    if s.supervisor then
      (if 512 ≤ r.toNat then (s.writeSup (modOf s.curTile) r.toNat 0).isNone
       else (s.writeReg s.curTile s.curStrand r.toNat 0).isNone)
    else 512 ≤ r.toNat || (s.writeReg s.curTile s.curStrand r.toNat 0).isNone
  | .cbar .. | .abortv .. | .irrev | .rst .. | .vrst .. | .rred .. | .vrred .. | .msend .. | .msendEos .. | .msendg ..
  | .msendgEos .. | .coll .. | .nextt .. | .fetchlNext .. => s.supervisor
  | i => i.kind == .supervisor && !s.supervisor

/-- REGFILE_PARITY on a register read at issue (R431): SUB the file, TVAL the register number. A PONE unit of a tile that is not elected
evaluates no operand (R263). -/
def State.parity (s : State) (ps : List Instr) (i : Instr) : Except Stop Unit :=
  if s.here.errs = [] ∨ s.privileged i ∨ (ps.contains .pone && !s.elected) then .ok ()
  else match (readsOf i ++ s.readsBeside i).find? (fun r =>
      !((r.1 == 0 || r.1 == 2) && r.2 == 0) && s.here.errs.any (fun e => e.loc == .reg s.curStrand r.1 r.2)) with
    | some r => .error (.counted cPARITY r.1 (BitVec.ofNat 64 r.2) false 0)
    | none => .ok ()

/-! ### Fetch blocks -/

/-- The strand holds the blocks of all the words of its next unit (R223, R256). -/
def State.unitHeld (s : State) : Bool :=
  let k := s.cluster (clusterOf s.curTile)
  let pc := s.me.pc.toNat
  s.me.blocks.contains (pc / 32) && (k.unitAddrs pc).all (fun a => s.me.blocks.contains (a / 32))

/-- The strand asks for a block when it has no request outstanding (R256). -/
def State.request (s : State) (b : Nat) : State :=
  if s.me.req.isSome ∨ 2048 ≤ b then s else s.setMe { s.me with req := some (b, s.cycle) }

/-- A strand whose next unit is not held requests what it lacks (R256): a target outside both blocks discards them. -/
def State.requestUnit (s : State) : State :=
  let b := s.me.pc.toNat / 32
  if s.me.blocks.contains b then s.request (b + 1)
  else (s.setMe { s.me with blocks := [] }).request b

/-- A strand that starts to issue from a block keeps it and the next one, and requests the next when it lacks it (R256). -/
def State.prefetch (s : State) : State :=
  let b := s.me.pc.toNat / 32
  let s := s.setMe { s.me with blocks := s.me.blocks.filter (fun c => c == b || c == b + 1) }
  if s.me.blocks.contains (b + 1) then s else s.request (b + 1)

/-- The block reaches a strand that asks for it (R257); a block that is no longer wanted is dropped. -/
def Strand.take (r : Strand) (b : Nat) : Strand :=
  match r.req with
  | some (c, _) =>
    if c = b then
      let cur := r.pc.toNat / 32
      let keep := r.blocks.filter (fun d => d == cur || d == cur + 1)
      { r with req := none, blocks := if (b == cur || b == cur + 1) && !keep.contains b then keep ++ [b] else keep }
    else r
  | none => r

/-- The requests pending in a cluster: block, cycle and cluster strand number (R257). -/
def State.requests (s : State) (k : Nat) : List (Nat × Nat × Nat) :=
  (tilesOf k).flatMap (fun t => strandIx.filterMap (fun n =>
    match (s.strand t n).req with
    | some (b, c) => some (b, c, 4 * (t % 16) + n.toNat)
    | none => none))

/-- FETCH_BLOCK_SERVED (R257): the port of the cluster of tile State.ev.tile serves the oldest request, of the lowest cluster
strand number among equals, and the block goes to every strand of the cluster that asks for it. -/
def execFetchBlockServed (s : State) : Host.Outcome State Fault Refusal :=
  let k := clusterOf s.ev.tile
  match s.requests k with
  | [] => .next s
  | r :: l =>
    let first := l.foldl (fun a b => if b.2.1 < a.2.1 ∨ (b.2.1 = a.2.1 ∧ b.2.2 < a.2.2) then b else a) r
    let s := s.setCluster k { s.cluster k with served := some first.1 }
    .next ((tilesOf k).foldl (fun u t =>
      let x := u.tile t
      if x.strands.toList.any (fun z => z.req.isSome) then
        u.setTile t { x with strands := #v[(x.strand 0).take first.1, (x.strand 1).take first.1, (x.strand 2).take first.1, (x.strand 3).take first.1] }
      else u) s)

/-! ### The choice among ready strands -/

/-- The effective class of a strand (R225). -/
def Strand.effClass (r : Strand) : Nat := min (r.prio.toNat + (if r.comm && r.raised then 1 else 0)) 3

/-- The strand a slot issues among the candidates (R226), m being the strand it last issued. -/
def Tile.choose (x : Tile) (cands : List (BitVec 2)) (m : BitVec 2) : Option (BitVec 2) :=
  let urgent := cands.filter (fun n => decide (60 ≤ (x.strand n).age))
  match urgent with
  | a :: r => some (r.foldl (fun b n => if (x.strand b).age < (x.strand n).age then n else b) a)
  | [] =>
    let top := (cands.map (fun n => (x.strand n).effClass)).foldl max 0
    [m + 1, m + 2, m + 3, m].find? (fun n => cands.contains n && (x.strand n).effClass == top)

/-- The strand's next unit (R422): its prefixes and its instruction, or the first cause that applies. -/
def State.nextUnit (s : State) : Except Stop (List Instr × Instr) :=
  let u := (s.cluster (clusterOf s.curTile)).unitAt s.me.pc.toNat
  match s.fetchChecks u with
  | .error e => .error e
  | .ok _ =>
    if s.breakpoint then raise cBREAK 0 (s.me.pc.setWidth 64)
    else match s.storeCheck with
      | .error e => .error e
      | .ok _ =>
        match s.decodeUnit u with
        | .error e => .error e
        | .ok r => (s.parity r.1 r.2).map (fun _ => r)

/-- The tile's island changes its operating point, and none of its strands issues (R531). -/
def State.tileStill (s : State) (t : Nat) : Bool := !isMgmt t && ((s.mod (modOf t)).island (islandOf (clusterOf t))).busy

/-- A stall of R186 or R192 holds back the next unit of the current strand: it names the accumulator of the strand's running MMA, or is an
MMA while one of the strand's has not ended (R223). -/
def State.heldBack (s : State) : Bool :=
  match s.here.mmaOf s.curStrand with
  | none => false
  | some m =>
    match s.nextUnit with
    | .ok (_, i) => (accsOf i).contains m.acc || (match i with | .mma _ _ _ _ => true | _ => false)
    | .error _ => false

/-- A strand that is ready in this cycle (R223): none is while the tile's island changes its operating point (R531). A unit that R31 may hold
back is ready until the agenda makes it stall (log entry 51). -/
def State.ready (s : State) (t : Nat) (n : BitVec 2) : Bool :=
  let u := { s with curTile := t, curStrand := n }
  u.me.st == .run && u.unitHeld && !u.heldBack && !u.tileStill t

/-- n cycles pass: the strands of a tile that are ready grow older (R226). -/
def State.older (s : State) (n t : Nat) (x : Tile) : Tile :=
  let f := fun (m : BitVec 2) => if s.ready t m then { x.strand m with age := (x.strand m).age + n } else x.strand m
  { x with strands := #v[f 0, f 1, f 2, f 3] }

/-- Strand n of the tile has issued in a slot: its age returns to 0 (R226). -/
def Tile.issued (x : Tile) (n : BitVec 2) (vec : Bool) : Tile :=
  let y := x.setStrand n { x.strand n with age := 0 }
  if vec then { y with lastVector := n } else { y with lastScalar := n }

/-- The slot that a unit takes (R222): its first word tells the vector class by its space or, for a pair, by its OP: VOPS and WAITC. A unit
with a third prefix has no instruction that could tell its class: DESIGN CHOICE, it takes the scalar slot (log entry 50). -/
def FUnit.vector (u : FUnit) : Bool :=
  !u.third && ((fld u.first 30 2).toNat == 1 ||
    ((fld u.first 30 2).toNat == 3 && ((fld u.first 22 7).toNat == 6 || (fld u.first 22 7).toNat == 8)))

end Sys2Proof.Machine
end

