-- ==== Sys2Proof/Machine/GlobalEvents.lean ====
section
/-! DEFINITION. The steps of global memory: walks, read responses, the arrival of global deltas, the commit at a base die, array
acknowledgements and the end of a checkpoint capture (13_global_memory.md R330 to R336, R339, 18_preemption.md R463, R464). -/
namespace Sys2Proof.Machine

/-- The strand is in WAIT, or was when a debug halt stopped it: its requests in flight complete (R506). -/
def Strand.waits (r : Strand) : Bool := r.st == .wait || (r.st == .halt && r.before == some .wait)

/-- The address and the size of the global load in which a strand waits. -/
def Strand.loadOf (r : Strand) : Option (Word × Nat) :=
  let reg := fun (a : BitVec 6) => if a = 0 then (0 : Word) else r.s[a.toNat]'(a.isLt)
  match r.wait with
  | some w => if !r.waits then none else (match w.instr with
    | .ldg _ a _ y => some (reg a, (ldgType y).1)
    | .vldg _ a _ => some (reg a, 64)
    | _ => none)
  | none => none

/-- What a walk found is handed to the strand that asked for it (R338, R339). -/
def State.walkResult (s : State) (w : Walk) (r : Except (BitVec 8 × BitVec 8) (Nat × Nat)) : State :=
  let z := s.strand w.tile w.strand
  if w.write then
    match r, z.wait with
    | .error f, some q =>
      if z.waits && (match q.kind with | .stall _ v _ => v == w.va | _ => false) then
        s.setStrand w.tile w.strand { z with walk := some { va := w.va, write := true, cause := f.1, sub := f.2 } }
      else s
    | _, _ => s
  else
    match z.loadOf, z.gread with
    | some (a, _), some .walking =>
      if a = w.va then
        s.setStrand w.tile w.strand { z with gread := some (match r with
          | .error f => .fault f.1 f.2
          | .ok (leaf, size) => .reading (lfModule leaf) (lfPa leaf + w.va.toNat % size) (lfKslot leaf) (lfMirror leaf)) }
      else s
    | _, _ => s

/-- Two walks of one die for the same 64 KiB page of a context, of which one takes the result of the other (R331). -/
def Walk.same (a b : Walk) : Bool :=
  dieOf a.tile == dieOf b.tile && a.ctx == b.ctx && a.va.toNat / 65536 == b.va.toNat / 65536

/-- One of the four walkers of its die has taken up the walk at place i: fewer than four walks of other pages came before it, and none of
its own page (R331). -/
def State.walkerHas (s : State) (i : Nat) : Bool :=
  match s.walks[i]? with
  | none => false
  | some w =>
    let before := (s.walks.take i).filter (fun v => dieOf v.tile == dieOf w.tile)
    !before.any w.same && decide ((before.map (fun v => (v.ctx, v.va.toNat / 65536))).eraseDups.length < 4)

/-- A walk that ends serves one of those that wait for its page: the leaf enters the cache of the cluster, and the strand that asked has its
answer; it also does so when the instruction that asked has ended (R331, R339). -/
def State.walkServe (s : State) (r : Except (BitVec 8 × BitVec 8) (Nat × Nat)) (w : Walk) : State :=
  let e := s.walkEnd w.ctx w.va.toNat w.write r
  let s := match e with
    | .ok (leaf, size) => s.fillCache w.tile w.ctx w.va.toNat leaf size
    | .error _ => s
  s.walkResult w e

/-- PAGE_WALK_COMPLETE (R330, R331): walk State.ev.i ends, and with it those that wait for its result. -/
def execPageWalkComplete (s : State) : Host.Outcome State Fault Refusal :=
  match s.walks[s.ev.i]? with
  | none => .next s
  | some w =>
    if !s.walkerHas s.ev.i then .next s
    else
      let mine := s.walks.filter w.same
      let r := ({ s with walks := s.walks.filter (fun v => !w.same v) } : State).walkLeaf (some (dieOf w.tile)) w.ctx (modOf w.tile) w.va.toNat w.write
      .next ((mine.foldl (fun u v => u.walkServe r.2 v) r.1).demandNow w.ctx)

/-- GLOBAL_READ_RESPONSE (R339): data or poison reaches strand State.ev.n of tile State.ev.tile, with its DELAY (R519); with ok
false, the response of a read whose instruction has timed out. A line with a commit still to apply is served after it (R335). -/
def execGlobalReadResponse (s : State) : Host.Outcome State Fault Refusal :=
  let t := s.ev.tile
  let n := BitVec.ofNat 2 s.ev.n
  let x := s.tile t
  let z := x.strand n
  if !s.ev.ok then
    match x.orphans with
    | [] => .next s
    | a :: r => .next (s.setTile t ({ x with orphans := r }.account (baseAcct a.2) s.ev.delay))
  else
    match z.gread, z.loadOf with
    | some (.reading m pa kslot mirror), some (_, size) =>
      let c := s.ctxOf t
      if (match c with | some c => s.commitPending c m pa | none => false) then .next s
      else
        let partner := match c with | some c => if mirror then some (s.ctx c).partner else none | none => none
        let r := s.readPhys m pa size partner c x.vtid.toNat kslot
        let y := (r.1.tile t).account (baseAcct pa) s.ev.delay
        let u := r.1.setTile t (y.setStrand n { y.strand n with gread := some (.data (BitVec.ofNat 512 r.2.1) r.2.2) })
        .next (match c with | some c => u.demandNow c | none => u)
    | _, _ => .next s

/-- A write of a management tile goes to the array at once (R478); a poisoned line takes it as R325 says. -/
def State.writeNow (s : State) (m : Nat) (d : Delta) : State :=
  let line := d.addr / 64
  let k := (placeOf d.addr).stack
  let r := s.readBlock m d.addr none
  let s := r.1
  let poison := s.poisoned m d.addr || r.2
  let start : LineBuf := { bytes := Memory.slice (s.mod m).mem (64 * line) 64, known := if poison then 0 else BitVec.allOnes 64 }
  let b := (start.apply (64 * line) d).1
  if poison ∧ b.known ≠ BitVec.allOnes 64 then s.logStack m k (64 * line)
  else (s.setMod m { s.mod m with mem := Memory.blit (s.mod m).mem (64 * line) 64 b.bytes }).cleanLine m k line

/-- The tentative buffers that a delta needs have room: 1 GiB of 32-byte places each (R334). -/
def State.bufferRoom (s : State) (d : Delta) (m : Nat) (mirror : Bool) : Bool :=
  let k := (placeOf d.addr).stack
  let used := fun (w : Nat) => ((s.stackAt w k).tbuf.filter (fun e => !e.part)).length
  decide (used m < 2 ^ 25) && (!mirror || decide (used (s.ctx d.ctx).partner < 2 ^ 25))

/-- GLOBAL_DELTA_ARRIVAL (R334, R336): the delta at place State.ev.i of the messages reaches its base die, and for a MIRROR
page its partner's. -/
def execGlobalDeltaArrival (s : State) : Host.Outcome State Fault Refusal :=
  match s.net[s.ev.i]? with
  | some (.delta d) =>
    match d.dest with
    | .memory m mirror =>
      let u : State := { s with net := listDel s.net s.ev.i }
      let c := u.ctx d.ctx
      if isMgmt d.srcTile then .next ((u.writeNow m d).send (.ack d))
      else if c.fatal || !d.current c.num c.att then .next (u.send (.ack d))
      else if u.bufferRoom d m mirror then .next ((u.holdDelta d).send (.ack d))
      else .next (u.send (.refusal d))
    | _ => .next s
  | _ => .next s

/-- BASE_DIE_COMMIT (R335): the commit at place State.ev.i of the messages reaches its base die and applies. -/
def execBaseDieCommit (s : State) : Host.Outcome State Fault Refusal :=
  match s.net[s.ev.i]? with
  | some (.baseCommit c m k n) =>
    if (s.net.take s.ev.i).any (fun g => match g with | .baseCommit d w j _ => d == c && w == m && j == k | _ => false) then .next s
    else
      let u := ({ s with net := listDel s.net s.ev.i } : State).commitStack c m k n
      .next ((((u.ctxTiles c).foldl State.finishNext u).answerSyncs c).reportDone c |>.tryDecide c |>.demandNow c)
  | _ => .next s

/-- The lines of a stack whose array acknowledgements have all arrived show the host their new contents (R358). -/
def State.showNew (s : State) (c k : Nat) : State :=
  let waits := s.net.any (fun g => match g with
    | .arrayAck d j _ ckpt => d == c && j == k && !ckpt
    | .baseCommit d _ j _ => d == c && j == k
    | _ => false)
  let x := s.ctx c
  if waits then s else s.setCtx c { x with olds := x.olds.filter (fun o => (placeOf (64 * o.line)).stack != k) }

/-- ARRAY_ACKNOWLEDGEMENT (R336, R358, R464): the acknowledgement at place State.ev.i of the messages reaches the root. -/
def execArrayAcknowledgement (s : State) : Host.Outcome State Fault Refusal :=
  match s.net[s.ev.i]? with
  | some (.arrayAck c k _ ckpt) =>
    let u : State := { s with net := listDel s.net s.ev.i }
    let x := u.ctx c
    if ckpt then
      let left := x.ckAcksDue - 1
      let y := if left = 0 then { x with ckAcksDue := 0, ckReady := x.ckPending, ckPending := none, journalStuck := false }
               else { x with ckAcksDue := left }
      .next ((u.setCtx c y).tryDecide c)
    else .next ((((u.setCtx c { x with acksDue := x.acksDue - 1 }).showNew c k).tryDecide c).reportDone c)
  | _ => .next s

/-- A host-sync reaches the root of its context: the writes that entered the log before it are due at the next COMMIT (R360), those of an
earlier host-sync still on its way with them. -/
def State.syncArrives (s : State) (i : Nat) : State :=
  match s.net[i]? with
  | some (.sync c m box) =>
    let u : State := { s with net := listDel s.net i }
    let x := u.ctx c
    u.setCtx c { x with syncBox := x.syncBox ++ [(m, box)],
                        hostLog := x.hostLog.map (fun w => if w.syncs.contains (m, box) then { w with synced := true } else w) }
  | _ => s

/-- CHECKPOINT_CAPTURE_DONE (R463): tile State.ev.tile has captured its image, whose writes are then acknowledged. -/
def execCheckpointCaptureDone (s : State) : Host.Outcome State Fault Refusal :=
  let t := s.ev.tile
  match (s.tile t).capture, s.ctxOf t with
  | some p, some c => .next ((s.setTile t { s.tile t with capture := none }).send (.arrayAck c 0 p.num true))
  | _, _ => .next s

end Sys2Proof.Machine
end

