-- ==== Sys2Proof/Machine/Engine.lean ====
section
/-! DEFINITION. The staging engine: FETCHL, WBL, COPY and RLSTAT, the arrival and the capture of lines, and the reports of lines
to be read again (15_staging_engines.md R365 to R385). -/
namespace Sys2Proof.Machine

/-! ### Issue -/

/-- Locks that an engine instruction asks for. -/
def State.engLock (s : State) (k : BitVec 4) (lo len : Nat) (kind : LockKind) (use : LockUse) : Lock :=
  { lo := lo, len := len, kind := kind, use := use, strand := s.curStrand, tok := k }

/-- The lowest address at which the wanted locks conflict with those in the table (R368): a destination with any lock, a source
or a list with WRITE and TAG locks. -/
def Tile.engClash (x : Tile) (want : List Lock) : Option Nat :=
  lowest (want.flatMap (fun l => x.clashes l.lo l.len (if l.kind = .read then .load else .store)))

/-- The lines from a for n lines lie in LANDING or SCRATCH regions (R373 check 4); a management tile has no regions (R478). -/
def State.landable (s : State) (a n : Nat) : Bool :=
  s.supervisor || s.here.spanAttr (a, 64 * n) (fun v => v == 1 || v == 2)

/-- An engine instruction takes its locks, its token and a queue slot (R366, R374). -/
def State.issueEng (s : State) (op : EngOp) (want : List Lock) : Except Stop State :=
  if 16 < s.here.locks.length + want.length then .error (.stall 4 0)
  else match s.here.engClash want with
    | some a => raise cLOCK 0 (BitVec.ofNat 64 a)
    | none =>
      if 8 ≤ s.here.eng.length then .error (.stall 7 0)
      else
        let s := s.settle
        let x := s.here
        let use := match op.kind, op.next with
          | .fetchl, true => TokUse.fetchNext
          | .fetchl, false => .fetchl
          | .wbl, _ => .wbl
          | .copy, _ => .copy
        let t := s.setHere { x with locks := x.locks ++ want, eng := x.eng ++ [op] }
        .ok (t.setTok op.tok (takenToken use x.num))

/-- A new operation of the current strand. -/
def State.newEng (s : State) (kind : EngKind) (next tag glob : Bool) (d : Desc) (k : BitVec 4) (seq : BitVec 32) : EngOp :=
  { kind := kind, next := next, tag := tag, glob := glob, desc := d, strand := s.curStrand, tok := k, step := s.here.num, seq := seq,
    ents := [], j := 0, line := 0, xlated := false, out := 0, moved := false, again := [], closed := false }

/-- Checks 1 to 3 of R373 on a list descriptor: dA's number is the TVAL. -/
def State.listChecks (s : State) (a : BitVec 3) (k : BitVec 4) : Except Stop Unit :=
  let d := s.getD a
  let tv := a.setWidth 64
  if (s.getTok k).st = .pending then raise cTOKEN 0 (k.setWidth 64)
  else if d.toNat &&& fdNamed ≠ d.toNat ∨ fdNent d = 0 ∨ 256 < fdNent d ∨ fdSpan d = 0 ∨ 4096 < fdSpan d then raise cDESC 11 tv
  else if fdList d % 16 ≠ 0 ∨ fdSlo d % 64 ≠ 0 ∨ 0x40000 < fdList d + 16 * fdNent d ∨ 0x40000 < fdSlo d + 64 * fdSpan d then raise cDESC 12 tv
  else .ok ()

/-- FETCHL (R372 to R374). -/
def State.fetchl (s : State) (a : BitVec 3) (k : BitVec 4) (g : BitVec 1) (next : Bool) : Except Stop State :=
  let d := s.getD a
  let tag := g == 1
  let locks : List Lock := [s.engLock k (fdList d) (16 * fdNent d) .read .list,
    s.engLock k (fdSlo d) (64 * fdSpan d) (if tag then .tag else .write) .span]
  do
    let _ ← (if next then s.notMgmt else .ok ())
    let _ ← s.listChecks a k
    if !s.landable (fdSlo d) (fdSpan d) then raise cDESC 13 (a.setWidth 64)
    else s.issueEng (s.newEng .fetchl next tag true d k 0) locks

/-- FETCHL (R372). -/
def execFetchl (a : BitVec 3) (k : BitVec 4) (g : BitVec 1) (s : State) : Host.Outcome State Fault Refusal :=
  s.finishSeq (.fetchl a k g) (s.fetchl a k g false)

/-- FETCHL.NEXT (R372, R380). -/
def execFetchlNext (a : BitVec 3) (k : BitVec 4) (g : BitVec 1) (s : State) : Host.Outcome State Fault Refusal :=
  s.finishSeq (.fetchlNext a k g) (s.fetchl a k g true)

/-- WBL (R372 to R374): it takes its issue sequence at issue (R378). -/
def execWbl (a : BitVec 3) (k : BitVec 4) (s : State) : Host.Outcome State Fault Refusal :=
  let d := s.getD a
  s.finishSeq (.wbl a k) (do
    s.listChecks a k
    let t ← s.issueEng (s.newEng .wbl false false true d k s.here.iseq)
      [s.engLock k (fdList d) (16 * fdNent d) .read .list, s.engLock k (fdSlo d) (64 * fdSpan d) .read .source]
    .ok (t.setHere { t.here with iseq := t.here.iseq + 1 }))

/-- COPY (R371 to R374). -/
def State.copy (s : State) (a : BitVec 3) (k : BitVec 4) (g : BitVec 1) (glob : Bool) : Except Stop State :=
  let d := s.getD a
  let tv := a.setWidth 64
  let tag := g == 1
  let n := 64 * cpLen d
  let dst := s.engLock k (cpDst d) n (if tag then .tag else .write) .span
  let src := s.engLock k (cpSrc d) n .read .source
  if (s.getTok k).st = .pending then raise cTOKEN 0 (k.setWidth 64)
  else if d.toNat &&& cpNamed ≠ d.toNat ∨ cpLen d = 0 ∨ 4096 < cpLen d then raise cDESC 11 tv
  else if cpSrc d % 64 ≠ 0 ∨ cpDst d % 64 ≠ 0 ∨ 0x40000 < cpDst d + n ∨ (if glob then 2 ^ 47 ≤ cpSrc d else 0x40000 < cpSrc d + n) then
    raise cDESC 12 tv
  else if !s.landable (cpDst d) (cpLen d) then raise cDESC 13 tv
  else if !glob ∧ overlaps (cpSrc d, n) (cpDst d, n) then raise cDESC 14 tv
  else s.issueEng (s.newEng .copy false tag glob d k 0) (if glob then [dst] else [src, dst])

/-- COPY from local memory (R372). -/
def execCopy (a : BitVec 3) (k : BitVec 4) (g : BitVec 1) (s : State) : Host.Outcome State Fault Refusal :=
  s.finishSeq (.copy a k g) (s.copy a k g false)

/-- COPY.G (R372). -/
def execCopyG (a : BitVec 3) (k : BitVec 4) (g : BitVec 1) (s : State) : Host.Outcome State Fault Refusal :=
  s.finishSeq (.copyG a k g) (s.copy a k g true)

/-! ### RLSTAT -/

/-- The lock word of an address (R385). -/
def Tile.lockWord (x : Tile) (a : Nat) : Word :=
  let hits := x.locks.filter (fun l => decide (l.lo ≤ a) && decide (a < l.lo + l.len))
  let own := match hits.find? (fun l => l.kind != .read) with
    | some l => l.tok.toNat * 2 ^ 12 + l.strand.toNat * 2 ^ 8
    | none => 0
  BitVec.ofNat 64 ((16 - x.locks.length) * 2 ^ 16 + own + (if hits.any (fun l => l.kind == .tag) then 4 else 0) +
    (if hits.any (fun l => l.kind == .write) then 2 else 0) + (if hits.any (fun l => l.kind == .read) then 1 else 0))

/-- RLSTAT.LOCK (R385). -/
def execRlstatLock (d a : BitVec 6) (s : State) : Host.Outcome State Fault Refusal :=
  s.finishSeq (.rlstatLock d a)
    (if 2 ^ 18 ≤ (s.getS a).toNat then raise cBOUND 0 (s.getS a) else .ok (s.setS d (s.here.lockWord (s.getS a).toNat)))

/-- The last operation to take the token was an engine operation (R385). -/
def Token.engine (k : Token) : Bool := k.use == .fetchl || k.use == .fetchNext || k.use == .wbl || k.use == .copy

/-- The progress word of a token (R385). -/
def Tile.progress (x : Tile) (n : BitVec 2) (k : BitVec 4) : Word :=
  let t := (x.strand n).tok k
  let done := match x.eng.find? (fun e => e.strand == n && e.tok == k) with
    | some e => e.j
    | none => t.done.toNat
  if t.engine then BitVec.ofNat 64 (t.sub.toNat * 2 ^ 40 + t.cause.toNat * 2 ^ 32 + done % 512) else 0

/-- RLSTAT.PROG (R385). -/
def execRlstatProg (d : BitVec 6) (k : BitVec 4) (s : State) : Host.Outcome State Fault Refusal :=
  s.finishSeq (.rlstatProg d k) (.ok (s.setS d (s.here.progress s.curStrand k)))

/-- RLSTAT.FADDR (R385). -/
def execRlstatFaddr (d : BitVec 6) (k : BitVec 4) (s : State) : Host.Outcome State Fault Refusal :=
  s.finishSeq (.rlstatFaddr d k) (.ok (s.setS d (if (s.getTok k).engine then (s.getTok k).faddr else 0)))

/-! ### Global lines -/

/-- The operation with its progress replaced. -/
def State.setEng (s : State) (t i : Nat) (e : EngOp) : State :=
  s.setTile t { s.tile t with eng := listSet (s.tile t).eng i e }

/-- An operation ends in a fault (R379): TRANSLATION_POISON votes abort (R333). -/
def State.engFault (s : State) (t : Nat) (e : EngOp) (cause sub : BitVec 8) (addr : Nat) : State :=
  let s := if cause = cTPOISON ∧ !isMgmt t then s.voteAbort t cTPOISON else s
  s.endEng t e cause sub (BitVec.ofNat 64 addr)

/-- Translation for an engine: the tables of the tile's context, or a physical address on a management tile (R478). -/
def State.engTranslate (s : State) (t va : Nat) (write : Bool) : State × Xlate :=
  if isMgmt t then (s, .ok (va / 2 ^ 48 % 1024 * 2 ^ 54 + 12) (va % 2 ^ 48))
  else match s.ctxOf t with
    | some c => s.translate t c va write
    | none => (s, .bad (pageFault write) 1)

/-- The page of a global line is translated, and if it has DESC the window page of the line's descriptor (R375, R378): the line, or the
fault with its address; none where a translation is still to come. -/
def State.engXlate (s : State) (t va : Nat) (write : Bool) : State × Option (Except (BitVec 8 × BitVec 8 × Nat) EngLine) :=
  match s.engTranslate t va write with
  | (s, .bad c sub) => (s, some (.error (c, sub, va)))
  | (s, .miss) => (s, none)
  | (s, .ok leaf pa) =>
    if lfDesc leaf then
      match s.engTranslate t (descVa va) write with
      | (s, .bad c sub) => (s, some (.error (c, sub, descVa va)))
      | (s, .miss) => (s, none)
      | (s, .ok wleaf wpa) => (s, some (.ok { va := va, leaf := leaf, pa := pa, win := some (wleaf, wpa) }))
    else (s, some (.ok { va := va, leaf := leaf, pa := pa }))

/-- Every page that some global lines touch is translated, and for pages with DESC the window pages of their lines (R375,
R378): the lines, or the first fault. -/
def State.engPages (t : Nat) (write : Bool) : List Nat → State → State × Option (Except (BitVec 8 × BitVec 8 × Nat) (List EngLine))
  | [], s => (s, some (.ok []))
  | va :: r, s =>
    match s.engXlate t va write with
    | (s, some (.ok l)) =>
      (match State.engPages t write r s with
      | (s, some (.ok ls)) => (s, some (.ok (l :: ls)))
      | q => q)
    | (s, some (.error f)) => (s, some (.error f))
    | (s, none) => (s, none)

/-- A global line as the engine reads it: data and descriptor, poison at an address, a fault, or a commit still to apply. -/
inductive LineRead where
  | data (pa : Nat) (bytes : List Byte) (desc : Option (BitVec 16))
  | poison (pa a : Nat)
  | bad (cause sub : BitVec 8) (a : Nat)
  | later
deriving DecidableEq, Repr

/-- The engine of tile t reads a physical span of a line, committed as it is in the array. -/
def State.engPhys (s : State) (t leaf pa n : Nat) : State × Nat × Bool :=
  let c := s.ctxOf t
  s.readPhys (lfModule leaf) pa n (match c with | some c => s.partnerOf c leaf | none => none) c (s.tile t).vtid.toNat (lfKslot leaf)

/-- The engine reads a committed global line that has been translated (R335, R375, R376). -/
def State.engReadAt (s : State) (t : Nat) (l : EngLine) : State × LineRead :=
  let late : Nat → Nat → Bool := fun m pa => match s.ctxOf t with | some c => s.commitPending c m pa | none => false
  if late (lfModule l.leaf) l.pa || l.win.any (fun w => late (lfModule w.1) w.2) then (s, .later)
  else
    let r := s.engPhys t l.leaf l.pa 64
    if r.2.2 then (r.1, .poison l.pa l.va)
    else match l.win with
      | none => (r.1, .data l.pa (toBytes 64 r.2.1) none)
      | some w =>
        let d := r.1.engPhys t w.1 w.2 2
        if d.2.2 then (d.1, .poison l.pa (descVa l.va)) else (d.1, .data l.pa (toBytes 64 r.2.1) (some (BitVec.ofNat 16 d.2.1)))

/-- The engine translates the committed global line at va and reads it (R375, R377). -/
def State.engRead (s : State) (t va : Nat) : State × LineRead :=
  match s.engXlate t va false with
  | (s, none) => (s, .later)
  | (s, some (.error (c, sub, a))) => (s, .bad c sub a)
  | (s, some (.ok l)) => s.engReadAt t l

/-- A line that has been read is written to some local lines; s is the state before the read, to which a read that has to wait comes back;
a fault ends the operation (R375, R376). -/
def State.engFetch (s : State) (t : Nat) (e : EngOp) (got : State × LineRead) (locals : List Nat) (next : State → State) : State :=
  match got with
  | (_, .later) => s
  | (s, .bad c sub a) => s.engFault t e c sub a
  | (s, .poison pa a) => (s.setTile t ((s.tile t).account (baseAcct pa) s.ev.delay)).engFault t e cDPOISON 0 a
  | (s, .data pa bytes desc) =>
    let s := s.setTile t ((s.tile t).account (baseAcct pa) s.ev.delay)
    next (locals.foldl (fun u k => u.engineWrite t k bytes desc (e.tag && !e.next)) s)

/-- Entry j of a list as local memory holds it (R370). -/
def Tile.entryAt (x : Tile) (d : Desc) (j : Nat) : BitVec 128 := BitVec.ofNat 128 (x.lm (fdList d + 16 * j) 16)

/-- The engine reads entry j of the operation's list, which FETCHL unlocks with its last entry (R366, R375); an uncorrectable error
there ends the operation (R379). -/
def State.engEntry (s : State) (t i : Nat) (e : EngOp) : State :=
  match s.engineReads t [(fdList e.desc + 16 * e.j) / 64] with
  | (s, some k) => s.endEng t e cSRAM 0 (BitVec.ofNat 64 (64 * k))
  | (s, none) =>
    let s := s.setEng t i { e with ents := e.ents ++ [(s.tile t).entryAt e.desc e.j] }
    if e.kind = .fetchl ∧ e.j + 1 = fdNent e.desc then s.setTile t ((s.tile t).unlock e.strand e.tok [.list]) else s

/-- The lines of an entry, by global address. -/
def enGlobals (n : BitVec 128) : List Nat := (span 0 (enCount n)).map (fun q => enGlobal n q)

/-- The local lines of a fetch that hold the global line va. -/
def EngOp.localsOf (e : EngOp) (va : Nat) : List Nat :=
  e.ents.flatMap (fun n => (span 0 (enCount n)).filterMap (fun q => if enGlobal n q = va then some (enLocal n q / 64) else none))

/-- The position of the operation's next line in list order (R378). -/
def EngOp.position (e : EngOp) : Nat := ((e.ents.take e.j).map enCount).foldl (· + ·) 0 + e.line

/-- The operation after its next line. -/
def EngOp.nextLine (e : EngOp) (n : BitVec 128) : EngOp :=
  let f := if e.line + 1 = enCount n then { e with j := e.j + 1, line := 0, xlated := false } else { e with line := e.line + 1 }
  { f with moved := decide (f.j = fdNent f.desc) }

/-- Entry j begins: its form is checked, and its pages are translated, before any line of it moves (R375, R378). -/
def State.engBegin (s : State) (t i : Nat) (e : EngOp) (n : BitVec 128) (write : Bool) : State :=
  if enBad n (fdSlo e.desc) (fdSpan e.desc) then s.engFault t e cDESC 15 (fdList e.desc + 16 * e.j)
  else match State.engPages t write (enGlobals n) s with
    | (s, some (.error (c, sub, a))) => s.engFault t e c sub a
    | (s, some (.ok ls)) => s.setEng t i { e with xlated := true, lines := e.lines ++ ls }
    | (_, none) => s

/-- The next action of a FETCHL (R375, R380, R381): an entry of its list, the pages of the entry, a line, or a line read again. -/
def State.stepFetchl (s : State) (t i : Nat) (e : EngOp) : State :=
  match e.ents[e.j]? with
  | some n =>
    if !e.xlated then s.engBegin t i e n false
    else match e.lines[e.position]? with
      | none => s
      | some l =>
        s.engFetch t e (s.engReadAt t l) [enLocal n e.line / 64] (fun s =>
          let f := e.nextLine n
          let s := s.setEng t i f
          if f.moved ∧ !f.next then s.endEng t f 0 0 0 else s.finishNext t)
  | none =>
    if e.j < fdNent e.desc then s.engEntry t i e
    else match e.again with
      | [] => s.finishNext t
      | va :: r =>
        match e.lines.find? (fun l => l.va == va) with
        | none => s
        | some l => s.engFetch t e (s.engReadAt t l) (e.localsOf va) (fun s => (s.setEng t i { e with again := r }).finishNext t)

/-- The next line of a COPY from global memory (R377). -/
def State.stepCopyG (s : State) (t i : Nat) (e : EngOp) : State :=
  s.engFetch t e (s.engRead t (cpSrc e.desc + 64 * e.line)) [cpDst e.desc / 64 + e.line] (fun s =>
    if e.line + 1 = cpLen e.desc then (s.setEng t i { e with j := 1 }).endEng t { e with j := 1 } 0 0 0
    else s.setEng t i { e with line := e.line + 1 })

/-- The engine of a management tile would read outside the usable memory (R322, R478). -/
def EngOp.outside (e : EngOp) : Bool :=
  match e.kind with
  | .copy => e.glob && decide (memTop ≤ cpSrc e.desc + 64 * e.line)
  | _ => (match e.ents[e.j]? with
    | some n => !enBad n (fdSlo e.desc) (fdSpan e.desc) && (enGlobals n).any (fun a => decide (memTop ≤ a))
    | none => false)

/-- The places, by module and physical address, whose responses the operation awaits: those of the next line that it reads, and of the line's
descriptor (R375 to R377, R436). -/
def State.engAwaits (s : State) (t : Nat) (e : EngOp) : List (Nat × Nat) :=
  let of_ := fun (l : Option EngLine) => match l with
    | some l => (lfModule l.leaf, l.pa) :: (l.win.map (fun w => (lfModule w.1, w.2))).toList
    | none => []
  match e.kind with
  | .wbl => []
  | .copy => if e.glob then of_ (match s.engXlate t (cpSrc e.desc + 64 * e.line) false with | (_, some (.ok l)) => some l | _ => none) else []
  | .fetchl =>
    if e.xlated then of_ e.lines[e.position]?
    else match e.again with
      | va :: _ => of_ (e.lines.find? (fun l => l.va == va))
      | [] => []

/-- What follows a step of the engine: a full poison table may have made the context FATAL (R434). -/
def State.afterEngine (s : State) (t : Nat) : State := match s.ctxOf t with | some c => s.demandNow c | none => s

/-- An operation stands still that Lull has stopped (R449, R450), until it is issued again with its locks (R457 step 4). -/
def State.lulled (s : State) (t : Nat) (e : EngOp) : Bool :=
  match s.ctxOf t with
  | some c => (s.ctx c).lull && !(s.tile t).locks.any (fun l => l.use == .span && l.strand == e.strand && l.tok == e.tok)
  | none => false

/-- ENGINE_LINE_ARRIVAL (R375 to R381): the operation in slot State.ev.i of tile State.ev.tile goes on by one line. -/
def execEngineLineArrival (s : State) : Host.Outcome State Fault Refusal :=
  let t := s.ev.tile
  match (s.tile t).eng[s.ev.i]? with
  | none => .next s
  | some e =>
    if s.lulled t e then .next s
    else if isMgmt t ∧ e.outside then .fault .noMemory
    else match e.kind with
      | .fetchl => .next ((s.stepFetchl t s.ev.i e).afterEngine t)
      | .copy => if e.glob then .next ((s.stepCopyG t s.ev.i e).afterEngine t) else .next s
      | .wbl => .next s

/-! ### Local lines -/

/-- The engine reads the side band of a line (R431): an uncorrectable error is a tile event. -/
def State.engineReadsSide (s : State) (t k : Nat) : State × Bool :=
  if (s.tile t).hardAt (.side k) then (s.tileError t cSRAM 1 (64 * k) (k % 16) (!(s.tile t).restorable k), false)
  else (s.correctAt t (.side k), true)

/-- A local line and its descriptor as the engine reads them, or after an uncorrectable error the SUB of R431. -/
def State.engLocal (s : State) (t k : Nat) : State × Except (BitVec 8) (List Byte × BitVec 16) :=
  match s.engineReads t [k] with
  | (s, some _) => (s, .error 0)
  | (s, none) =>
    match s.engineReadsSide t k with
    | (s, false) => (s, .error 1)
    | (s, true) => (s, .ok ((s.tile t).bytes (64 * k) 64, ((s.tile t).bandAt k >>> 16).setWidth 16))

/-- The next line of a local COPY (R376, R377): descriptors are copied, tags are not. -/
def State.stepCopy (s : State) (t i : Nat) (e : EngOp) : State :=
  let k := cpSrc e.desc / 64 + e.line
  match s.engLocal t k with
  | (s, .error sub) => s.endEng t e cSRAM sub (BitVec.ofNat 64 (64 * k))
  | (s, .ok (bytes, desc)) =>
    let s := s.engineWrite t (cpDst e.desc / 64 + e.line) bytes (some desc) e.tag
    if e.line + 1 = cpLen e.desc then (s.setEng t i { e with j := 1 }).endEng t { e with j := 1 } 0 0 0
    else s.setEng t i { e with line := e.line + 1 }

/-- The four deltas of a captured line (R378). -/
def State.wblDeltas (s : State) (t : Nat) (e : EngOp) (leaf pa : Nat) (bytes : List Byte) (desc : Option LineDesc) : List Delta :=
  let x := s.tile t
  let m := lfModule leaf
  let cls : OakCls := if (m ≠ modOf t ∧ !isMgmt t) ∨ lfMirror leaf then .sys else .ctx
  (span 0 4).map (fun p =>
    { ctx := (s.ctxOf t).getD 0, srcVt := x.vtid.toNat, srcTile := t, strand := e.strand, num := e.step, att := x.att, seq := e.seq.toNat,
      lane := 4 * e.position + p, dest := .memory m (lfMirror leaf),
      body := .store (pa + 16 * p) 0xFFFF (BitVec.ofNat 512 (ofBytes ((bytes.drop (16 * p)).take 16))),
      desc := if p = 0 then desc else none, kslot := lfKslot leaf, cls := cls, eng := some e.tok, acct := baseAcct pa })

/-- The next line of a WBL is captured and sent, with its descriptor where its page has DESC; the engine waits while a count of OAK has no
room (R378). -/
def State.captureWbl (s : State) (t i : Nat) (e : EngOp) (n : BitVec 128) (l : EngLine) : State :=
  let k := enLocal n e.line / 64
  let cls := match s.wblDeltas t e l.leaf l.pa [] none with | d :: _ => d.cls | [] => .ctx
  if 65535 < ((s.strand t e.strand).oakOf cls).toNat + 4 then s
  else match s.engLocal t k with
    | (s, .error sub) => s.endEng t e cSRAM sub (BitVec.ofNat 64 (64 * k))
    | (s, .ok (bytes, desc)) =>
      let win := l.win.map (fun w =>
        ({ module := lfModule w.1, pa := w.2, kslot := lfKslot w.1, mirror := lfMirror w.1, value := desc } : LineDesc))
      let r := s.strand t e.strand
      let s := s.setStrand t e.strand (r.setOak cls (r.oakOf cls + 4))
      let s := (s.wblDeltas t e l.leaf l.pa bytes win).foldl (fun u d => u.send (.delta d)) s
      let f := { e.nextLine n with out := e.out + 4 }
      let s := s.setEng t i f
      if f.moved then s.setTile t ((s.tile t).unlock e.strand e.tok [.list, .source]) else s

/-- The next action of a WBL (R378): an entry of its list, the pages of the entry, a line, or its end once every delta is acknowledged; a
refusal ends it with REMOTE_FAULT (R379). -/
def State.stepWbl (s : State) (t i : Nat) (e : EngOp) : State :=
  match e.refused with
  | some lane => s.endEng t e cREMOTE 1 (BitVec.ofNat 64 ((e.ents.flatMap enGlobals).getD (lane / 4) 0))
  | none =>
    match e.ents[e.j]? with
    | some n =>
      if !e.xlated then s.engBegin t i e n true
      else match e.lines[e.position]? with
        | some l => s.captureWbl t i e n l
        | none => s
    | none =>
      if e.j < fdNent e.desc then s.engEntry t i e
      else if e.out = 0 then s.endEng t e 0 0 0 else s

/-- ENGINE_LOCAL_LINE (R376 to R379): the operation in slot State.ev.i of tile State.ev.tile goes on by one local line. -/
def execEngineLocalLine (s : State) : Host.Outcome State Fault Refusal :=
  let t := s.ev.tile
  match (s.tile t).eng[s.ev.i]? with
  | none => .next s
  | some e =>
    if isMgmt t ∧ e.kind = .wbl ∧ e.outside then .fault .noMemory
    else match e.kind with
      | .wbl => .next ((s.stepWbl t s.ev.i e).afterEngine t)
      | .copy => if e.glob then .next s else .next (s.stepCopy t s.ev.i e)
      | .fetchl => .next s

/-- REFETCH_REPORT (R381): the report at place State.ev.i of the messages reaches the fetch's tile. -/
def execRefetchReport (s : State) : Host.Outcome State Fault Refusal :=
  match s.net[s.ev.i]? with
  | some (.refetch t va) =>
    let u : State := { s with net := listDel s.net s.ev.i }
    let x := u.tile t
    let mark : EngOp → EngOp := fun e =>
      if e.kind = .fetchl ∧ e.next ∧ e.localsOf va ≠ [] ∧ !e.again.contains va then { e with again := e.again ++ [va] } else e
    .next ((u.setTile t { x with eng := x.eng.map mark }).finishNext t)
  | _ => .next s

end Sys2Proof.Machine
end

