-- ==== Sys2Proof/Machine/WaitEvents.lean ====
section
/-! DEFINITION. The end of the waits and stalls of strands: WAIT_MET, WAIT_TIMEOUT and IMPLICIT_DEADLINE
(09_strands_and_deadlines.md R228, R232 to R234, R248). -/
namespace Sys2Proof.Machine

/-- The strand that an event names becomes the current one. -/
def State.focus (s : State) : State := { s with curTile := s.ev.tile, curStrand := BitVec.ofNat 2 s.ev.n }

/-- The lock-table entries that an instruction takes (R193, R366, R393). -/
def State.lockNeed (s : State) (i : Instr) : Nat :=
  match i with
  | .mma _ a b k => (operandLock (s.getD a) s.curStrand k ++ operandLock (s.getD b) s.curStrand k).length
  | .copyG .. => 1
  | .coll a _ => cdNcon (s.getD a) + cdNland (s.getD a)
  | _ => 2

/-- The OAK fields that the deltas of an instruction of the current strand count in (R285); those of the lanes of VSTG and
VREDG that are left may be any of two. -/
def State.oakNeed (s : State) (i : Instr) : List OakCls :=
  let remote := fun (a : BitVec 6) (t g w : Bool) =>
    match s.checkRemote (s.getS a) t g w with
    | .ok r => (match r with | .group _ _ => if w then (s.destTiles r).map s.tileCls else [.ctx] | .tile u => [s.tileCls u])
    | .error _ => []
  let store := fun (a : BitVec 6) =>
    match s.storeTo (s.getS a) with
    | .place m pa k mirror => [(s.globalOut 0 m pa k mirror (.request 0 0 [] 0 0)).cls]
    | _ => []
  match i with
  | .rst _ a _ => remote a true false false
  | .vrst _ b _ _ => remote b true false false
  | .rred _ a _ => remote a true true false
  | .vrred _ b _ _ _ => remote b true true false
  | .msend _ a _ _ => remote a true false true
  | .msendEos a _ => remote a true false true
  | .msendg _ a _ _ => remote a false true true
  | .msendgEos a _ => remote a false true true
  | .stg _ a _ => store a
  | .redg _ a _ => store a
  | .coll .. => [.ctx]
  | _ => []

/-- An OAK count of the current strand has no room for the deltas of the instruction (R285). -/
def State.oakBlocked (s : State) (i : Instr) : Bool :=
  match i with
  | .vstg .. | .vredg .. => s.me.oakCtx == 65535 || s.me.oakSys == 65535
  | _ => (match s.oakRoom (s.oakNeed i) with | .ok _ => false | .error _ => true)

/-- The stall of the current strand, recorded with a SUB at an instruction, has not ended (R234). -/
def State.stallHolds (s : State) (sub : BitVec 8) (tval : Word) (i : Instr) : Bool :=
  match sub.toNat with
  | 1 => s.hazard i
  | 2 | 3 => (s.here.mmaOf s.curStrand).isSome
  | 4 => decide (16 < s.here.locks.length + s.lockNeed i)
  | 5 => !s.here.mmaq.isEmpty
  | 6 => !s.retireTokens.isEmpty
  | 7 => decide (8 ≤ s.here.eng.length)
  | 8 => if s.elected then s.poneFull else !s.postReady
  | 9 => s.oakBlocked i
  | 10 => s.walks.any (fun w => w.tile == s.curTile && w.strand == s.curStrand && w.va == tval && w.write)
  | 11 => s.here.capture.isSome
  | _ => false

/-- A waiting instruction is executed again at a test of its wait (R232). -/
def retest (i : Instr) (s : State) : Host.Outcome State Fault Refusal :=
  match i with
  | .kwait d l k => execKwait d l k s
  | .kwany d a l => execKwany d a l s
  | .waitc l nt nc ns nl => execWaitc l nt nc ns nl s
  | .fence d l c => execFence d l c s
  | .realign d a l => execRealign d a l s
  | .cbar d a l k o => execCbar d a l k o s
  | .mrecv d l q => execMrecv d l q s
  | .ldg d a l y => execLdg d a l y s
  | .vldg d a l => execVldg d a l s
  | _ => .next s

/-- The word whose tag the wait concerns, if the waiting instruction is LDFE or STFE. -/
def State.feWord (s : State) (i : Instr) : Option Nat :=
  match i with
  | .ldfe _ b _ => some (s.getS b).toNat
  | .ldfeKeep _ b _ => some (s.getS b).toNat
  | .stfe _ b _ => some (s.getS b).toNat
  | _ => none

/-- The current strand leaves WAIT to be tested; its wait stays recorded. -/
def State.awake (s : State) (w : WaitRec) (expire : Bool) : State :=
  s.setMe { s.me with st := .run, pfx := w.pfx, wait := some { w with expire := expire } }

/-- The wait of the current strand is tested (R232): the condition comes first, then an expiry that has been found. -/
def State.testWait (s : State) (w : WaitRec) (expire : Bool) : Host.Outcome State Fault Refusal :=
  match s.feWord w.instr with
  | some a =>
    let t := State.serve a 4 s
    if expire ∧ t.me.wait = some w then
      let u := s.awake w true
      u.finishSeq w.instr (.ok (u.setWst 1 u.me.pc.toNat))
    else .next t
  | none => retest w.instr (s.awake w expire)

/-- A stream examination in WAIT is made again (R148). -/
def State.testExam (s : State) (w : WaitRec) (dl : BitVec 3) (d : BitVec 48) : State :=
  (State.examine 5 (s.awake w false) (some (dl, d))).afterRetire

/-- The queue that the innermost stream loop of the current strand examines holds nothing. -/
def State.examEmpty (s : State) : Bool :=
  match innermost s.me.lstk with
  | some i =>
    let q := BitVec.ofNat 2 (entCnt (lstkAt s.me.lstk i) % 4)
    s.here.ringExists s.supervisor q && s.view.headRec q == .empty
  | none => true

/-- WAIT_MET (R232): strand State.ev.n of tile State.ev.tile finds its condition true and its instruction ends with its effects
on MET; a stall whose cause is gone lets the strand issue its unit again (R234). -/
def execWaitMet (s : State) : Host.Outcome State Fault Refusal :=
  let u := s.focus
  match u.me.st, u.me.wait with
  | .wait, some w =>
    match w.kind with
    | .named _ _ => u.testWait w false
    | .exam dl d => if u.examEmpty then .next s else .next (u.testExam w dl d)
    | .stall sub tval _ =>
      if u.stallHolds sub tval w.instr then .next s else .next (u.setMe { u.me with st := .run, wait := none })
    | .barrier => .next s
    | .aborted => .next s
  | _, _ => .next s

/-- WAIT_TIMEOUT (R232): the deadline of strand State.ev.n of tile State.ev.tile has expired; a condition that has become true
takes precedence. -/
def execWaitTimeout (s : State) : Host.Outcome State Fault Refusal :=
  let u := s.focus
  match u.me.st, u.me.wait with
  | .wait, some w =>
    match w.kind with
    | .named _ d => if u.expired u.curTile d then u.testWait w true else .next s
    | .exam dl d => if u.expired u.curTile d then .next (u.testExam w dl d) else .next s
    | _ => .next s
  | _, _ => .next s

/-- IMPLICIT_DEADLINE (R234): the stall of strand State.ev.n of tile State.ev.tile has lasted DT7, and its instruction traps. -/
def execImplicitDeadline (s : State) : Host.Outcome State Fault Refusal :=
  let u := s.focus
  match u.me.st, u.me.wait with
  | .wait, some w =>
    match w.kind with
    | .stall sub tval t0 =>
      if u.stallHolds sub tval w.instr ∧ u.expired u.curTile (t0 + (u.me.dt.getD 6 0).setWidth 48) then
        let tv := if sub = 6 then BitVec.ofNat 64 (u.retireTokens.headD 0) else tval
        .next (((u.setMe { u.me with st := .run }).trapUnit cDEADLINE sub tv false).afterRetire)
      else .next s
    | _ => .next s
  | _, _ => .next s

end Sys2Proof.Machine
end

