-- ==== Sys2Proof/Machine/Chunk.lean ====
section
/-! DEFINITION. The collective sequencer's threads: the chunk instructions, their waits, transfers between ranks and to members,
the start of a thread and its faults (16_collectives.md R396 to R412, R416, 18_preemption.md R467). -/
namespace Sys2Proof.Machine

/-! ### The current thread -/

/-- Thread th of the sequencer of module m. -/
def State.thread (s : State) (m th : Nat) : Option Thread := SMap.find (s.mod m).threads th
def State.setThread (s : State) (m th : Nat) (t : Thread) : State :=
  s.setMod m { s.mod m with threads := SMap.set (s.mod m).threads th t }

/-- The thread whose instruction is being executed. -/
def State.thr (s : State) : Thread :=
  (s.thread s.curModule s.curThread).getD { inst := 0, rank := 0, base := 0, len := 0, th := 0, nbuf := 0, pc := 0 }
def State.setThr (s : State) (t : Thread) : State := s.setThread s.curModule s.curThread t

/-- The fields of the chunk instruction being executed. -/
def State.cf (s : State) : ChunkFields := chunkFields s.thr.ir

def Thread.getG (t : Thread) (r : BitVec 4) : Word := t.g[r.toNat]'(r.isLt)
def Thread.setG (t : Thread) (r : BitVec 4) (v : Word) : Thread := { t with g := t.g.set r.toNat v r.isLt }

/-- g[A], g[B], g[C] of the instruction being executed (R399). -/
def State.gA (s : State) : Word := s.thr.getG s.cf.a
def State.gB (s : State) : Word := s.thr.getG s.cf.b
def State.gC (s : State) : Word := s.thr.getG s.cf.c

/-- g[r] is written. -/
def State.setG (s : State) (r : BitVec 4) (v : Word) : State := s.setThr (s.thr.setG r v)

/-- The instance with a number. -/
def State.instOf (s : State) (id : Nat) : Option Inst := s.insts.find? (fun i => i.id == id)

/-- The thread of rank k of an instance: its module, its number and itself. -/
def State.peer (s : State) (id k : Nat) : Option (Nat × Nat × Thread) :=
  s.mods.findSome? (fun e => e.2.threads.findSome? (fun t => if t.2.inst = id ∧ t.2.rank = k then some (e.1, t.1, t.2) else none))

/-! ### How an instruction ends -/

/-- A thread faults (R411): its instance stops and faults, COLL_FAULT is sent, and an abort token goes to the context. -/
def State.threadFault (s : State) (m th code abortc : Nat) : State :=
  match s.thread m th with
  | none => s
  | some t =>
    match s.instOf t.inst with
    | none => s
    | some i =>
      let first := match i.reqs with | r :: _ => r.vt | [] => 0
      ((s.faultInst i).collFault i t.rank m t.pc code abortc).send (.abortToken i.ctx first)

/-- Why a chunk instruction does not complete: a fault of R411 with its ABORTC code, or a wait under DL (0: under the captured
DT7). -/
inductive ChunkStop where
  | fault (code abortc : Nat)
  | wait (dl : BitVec 3)
deriving DecidableEq, Repr

/-- A fault of R411. -/
def chunkFault {α : Type} (code : Nat) : Except ChunkStop α := .error (.fault code 0)

/-- The deadline of a wait on the thread clock (R400, R401). -/
def Thread.deadlineOf (t : Thread) (dl : BitVec 3) : BitVec 48 :=
  if dl = 7 then (t.getG 15).setWidth 48
  else t.clock + ((t.dts.getD (if dl = 0 then 6 else dl.toNat - 1) 0).setWidth 48)

/-- A thread that has completed its instruction goes on at a slot. -/
def Thread.goTo (t : Thread) (pc : Nat) : Thread := { t with pc := pc, st := .running, wait := none, got := false, left := [] }

/-- The end of a chunk instruction of the current thread that goes on at slot pc; u is the state that a wait keeps. -/
def State.chunkEnd (s u : State) (pc : Nat) (e : Except ChunkStop State) : Host.Outcome State Fault Refusal :=
  .next (match e with
    | .ok t => t.setThr (t.thr.goTo pc)
    | .error (.fault c a) => s.threadFault s.curModule s.curThread c a
    | .error (.wait dl) =>
      if u.thr.wait.isSome then u
      else u.setThr { u.thr with st := .waiting, wait := some { deadline := u.thr.deadlineOf dl, dl := dl } })

/-- A chunk instruction that completes and goes on at the next slot. -/
def State.chunkNext (s : State) (e : Except ChunkStop State) : Host.Outcome State Fault Refusal := s.chunkEnd s (s.thr.pc + 1) e

/-- A wait under DL (R401): met gives the effects on a met condition, gone those of an ending with EMPTY. -/
def State.chunkWait (s : State) (cond : Bool) (met : State → Except ChunkStop State) (gone : State → State) : Except ChunkStop State :=
  if cond then (met s).map (fun t => t.setG 13 0)
  else if s.thr.wait.isNone ∧ s.cf.dl = 0 then .ok ((gone s).setG 13 4)
  else .error (.wait s.cf.dl)

/-- A wait bounded by the captured DT7 (R405, R410). -/
def State.boundWait (s : State) (cond : Bool) (met : State → Except ChunkStop State) : Except ChunkStop State :=
  if cond then met s else .error (.wait 0)

/-! ### Registers and control -/

/-- CHUNK_NOP (R403). -/
def execChunkNop (s : State) : Host.Outcome State Fault Refusal := s.chunkNext (.ok s)

/-- SETG (R403). -/
def execSetg (s : State) : Host.Outcome State Fault Refusal := s.chunkNext (.ok (s.setG s.cf.a (s.cf.imm.signExtend 64)))

/-- SETGH (R403). -/
def execSetgh (s : State) : Host.Outcome State Fault Refusal :=
  s.chunkNext (.ok (s.setG s.cf.a (BitVec.ofNat 64 (s.cf.imm.toNat * 2 ^ 32 + s.gA.toNat % 2 ^ 32))))

/-- MOVG (R403). -/
def execMovg (s : State) : Host.Outcome State Fault Refusal := s.chunkNext (.ok (s.setG s.cf.a s.gB))

/-- ADDG (R403). -/
def execAddg (s : State) : Host.Outcome State Fault Refusal := s.chunkNext (.ok (s.setG s.cf.a (s.gB + s.cf.imm.signExtend 64)))

/-- ADDGR (R403). -/
def execAddgr (s : State) : Host.Outcome State Fault Refusal := s.chunkNext (.ok (s.setG s.cf.a (s.gB + s.gC)))

/-- SUBGR (R403). -/
def execSubgr (s : State) : Host.Outcome State Fault Refusal := s.chunkNext (.ok (s.setG s.cf.a (s.gB - s.gC)))

/-- MULGR (R403). -/
def execMulgr (s : State) : Host.Outcome State Fault Refusal := s.chunkNext (.ok (s.setG s.cf.a (s.gB * s.gC)))

/-- REMGR (R403): a zero divisor faults with ARITH. -/
def execRemgr (s : State) : Host.Outcome State Fault Refusal :=
  s.chunkNext (if s.gC = 0 then chunkFault 0x0C else .ok (s.setG s.cf.a (BitVec.ofNat 64 (s.gB.toNat % s.gC.toNat))))

/-- A branch target: own slot + IMM; a target below slot 0 is a number no program holds. -/
def State.chunkTarget (s : State) : Nat := (BitVec.ofInt 64 ((s.thr.pc : Int) + s.cf.imm.toInt)).toNat

/-- BNZG (R403). -/
def execBnzg (s : State) : Host.Outcome State Fault Refusal :=
  s.chunkEnd s (if s.gA = 0 then s.thr.pc + 1 else s.chunkTarget) (.ok s)

/-- LOOPG (R403). -/
def execLoopg (s : State) : Host.Outcome State Fault Refusal :=
  s.chunkEnd s (if s.gA = 1 then s.thr.pc + 1 else s.chunkTarget) (.ok (s.setG s.cf.a (s.gA - 1)))

/-- ABORTC (R409). -/
def execAbortc (s : State) : Host.Outcome State Fault Refusal := s.chunkNext (.error (.fault 0x10 (s.cf.imm.toNat % 2 ^ 16)))

/-! ### The window -/

/-- The bytes of the window from an offset. -/
def Thread.bytes (t : Thread) (off n : Nat) : List Byte := Memory.bytes t.win off n

/-- Bytes are written into the window; a block written whole loses its error. -/
def Thread.put (t : Thread) (off : Nat) (l : List Byte) : Thread :=
  { t with win := Memory.writeBytes t.win off l,
           bad := t.bad.filter (fun b => !(decide (off ≤ 64 * b) && decide (64 * b + 64 ≤ off + l.length))) }

/-- The bytes from an offset lie within the window (BUFFER of R411). -/
def Thread.fits (t : Thread) (off n : Nat) : Bool := decide (off + n ≤ t.nbuf * 65536)

/-- A read of the window meets an uncorrectable error (SOURCE of R411). -/
def Thread.spoiled (t : Thread) (off n : Nat) : Bool := (linesOf off n).any (fun b => t.bad.contains b)

/-- A write of the window would change a byte that a posted SEND reads (HAZARD of R411). -/
def Thread.hazard (t : Thread) (off n : Nat) : Bool :=
  t.posted.any (fun p => match p with | .send _ _ o l => overlaps (o, l) (off, n) | .signal _ _ => false)

/-- The rank is one of the instance's (MEMBER of R411): below g9, and a rank that the instance has. -/
def State.badPeer (s : State) (r : Word) : Bool :=
  decide ((s.thr.getG 9).toNat ≤ r.toNat) ||
    (match s.instOf s.thr.inst with | some i => decide (i.ranks.length ≤ r.toNat) | none => true)

/-- COPY (R406). -/
def execChunkCopy (s : State) : Host.Outcome State Fault Refusal :=
  let t := s.thr
  let d := s.gA.toNat
  let src := s.gB.toNat
  let n := s.gC.toNat
  s.chunkNext (
    if !t.fits d n || !t.fits src n then chunkFault 5
    else if t.hazard d n then chunkFault 9
    else if t.spoiled src n then chunkFault 0x0E
    else .ok (s.setThr (t.put d (t.bytes src n))))

/-- The element size of a reduction type (R406). -/
def chunkSize (ty : Nat) : Nat :=
  match ty with
  | 0 | 2 | 4 => 4
  | 1 | 3 => 8
  | 5 => 2
  | _ => 16

/-- x ⊕ y on one element of types 0 to 5 (R406). -/
def chunkElem (op ty x y : Nat) : Nat :=
  let flt := fun (t : Ty) =>
    let r := match op with
      | 0 => (extAdd (decodeTy t x) (decodeTy t y) 0).1
      | 1 => (extMinMax false (decodeTy t x) (decodeTy t y)).1
      | _ => (extMinMax true (decodeTy t x) (decodeTy t y)).1
    (encodeTy t r 0 false).1
  let w := 8 * chunkSize ty
  if ty = 4 then flt tF32
  else if ty = 5 then flt tBF16
  else
    let less := if ty ≤ 1 then decide (intVal true w x ≤ intVal true w y) else decide (x ≤ y)
    match op with
    | 0 => (x + y) % 2 ^ w
    | 1 => if less then x else y
    | 2 => if less then y else x
    | 3 => x ||| y
    | 4 => x &&& y
    | _ => x ^^^ y

/-- The combination of two lists of elements; none when the anchors of an ACC80 pair differ (R407). -/
def chunkReduce (op ty : Nat) (x y : List Byte) : Option (List Byte) :=
  let z := chunkSize ty
  let n := x.length / z
  let pairs := (chunksOf z n x).zip (chunksOf z n y)
  if ty = 6 then
    if pairs.any (fun e => ((e.1.drop 12).take 2) != ((e.2.drop 12).take 2)) then none
    else some (pairs.flatMap (fun e =>
      elemBuffer (BitVec.ofNat 16 (ofBytes ((e.1.drop 12).take 2))) (accCombine (elemOfBuffer e.1) (elemOfBuffer e.2))))
  else some (pairs.flatMap (fun e => toBytes z (chunkElem op ty (ofBytes e.1) (ofBytes e.2))))

/-- REDUCE (R406, R407). -/
def execReduce (s : State) : Host.Outcome State Fault Refusal :=
  let t := s.thr
  let op := s.cf.fn.toNat % 8
  let ty := s.cf.fn.toNat / 8 % 16
  let d := s.gA.toNat
  let src := s.gB.toNat
  let n := s.gC.toNat
  s.chunkNext (
    if n % chunkSize ty ≠ 0 then chunkFault 7
    else if !t.fits d n || !t.fits src n then chunkFault 5
    else if t.hazard d n then chunkFault 9
    else if t.spoiled d n || t.spoiled src n then chunkFault 0x0E
    else match chunkReduce op ty (t.bytes d n) (t.bytes src n) with
    | none => chunkFault 0x0B
    | some l => .ok (s.setThr (t.put d l)))

/-! ### Transfers between ranks -/

/-- The posted SENDs of a thread to a rank with a tag. -/
def Thread.sendsTo (t : Thread) (rank : Nat) (tag : BitVec 8) : List (Nat × Nat) :=
  t.posted.filterMap (fun p => match p with
    | .send r g o l => if r = rank ∧ g = tag then some (o, l) else none
    | .signal _ _ => none)

/-- The places of the RECVs of a thread from a rank with a tag, in order. -/
def Thread.recvsFrom (t : Thread) (rank : Nat) (tag : BitVec 8) : List Nat :=
  (span 0 t.recvs.length).filter (fun i => match t.recvs[i]? with | some r => r.rank == rank && r.tag == tag | none => false)

/-- The j-th SEND from thread a to thread b with a tag is paired with the j-th RECV there (R404): its bytes are read now. The
state, or the fault that the pairing meets at the receiver (MATCH) or at the sender (SOURCE). -/
def State.pairUp (s : State) (a b : Nat × Nat) (tag : BitVec 8) (j : Nat) : Except (Nat × (Nat × Nat)) State :=
  match s.thread a.1 a.2, s.thread b.1 b.2 with
  | some src, some dst =>
    match (src.sendsTo dst.rank tag)[j]?, (dst.recvsFrom src.rank tag)[j]? with
    | some (off, len), some i =>
      match dst.recvs[i]? with
      | some r =>
        if r.len ≠ len then .error (8, b)
        else if src.spoiled off len then .error (0x0E, a)
        else .ok (s.setThread b.1 b.2 { dst with recvs := listSet dst.recvs i { r with data := some (src.bytes off len) } })
      | none => .ok s
    | _, _ => .ok s
  | _, _ => .ok s

/-- SEND (R404): it waits only while 8 operations are posted. A pair whose lengths differ faults the receiving thread. -/
def execSend (s : State) : Host.Outcome State Fault Refusal :=
  let k := s.gA
  let off := s.gB.toNat
  let len := s.gC.toNat
  let tag := s.cf.fn.setWidth 8
  let me := (s.curModule, s.curThread)
  let post := fun (s : State) => s.setThr { s.thr with posted := s.thr.posted ++ [.send k.toNat tag off len] }
  let paired : Except (Nat × (Nat × Nat)) State :=
    let u := post s
    match u.peer s.thr.inst k.toNat with
    | some (m, th, _) => u.pairUp me (m, th) tag ((u.thr.sendsTo k.toNat tag).length - 1)
    | none => .ok u
  let checks : Except ChunkStop Unit :=
    if s.badPeer k then chunkFault 6 else if !s.thr.fits off len then chunkFault 5 else .ok ()
  match checks with
  | .error e => s.chunkNext (.error e)
  | .ok _ =>
    if 8 ≤ s.thr.posted.length then s.chunkNext (s.chunkWait false (fun t => .ok t) (fun t => t))
    else match paired with
      | .ok u => s.chunkNext (.ok (u.setG 13 0))
      | .error (c, at_) => if at_ = me ∧ c ≠ 8 then s.chunkNext (chunkFault c) else .next (s.threadFault at_.1 at_.2 c 0)

/-- The RECV in which the thread waits ends without its transfer (R404): unpaired it is withdrawn, paired it keeps its pair. -/
def Thread.leaveRecv (t : Thread) : Thread :=
  { t with recvs := (t.recvs.filter (fun r => r.ended || r.data.isSome)).map (fun r => { r with ended := true }) }

/-- RECV (R404). -/
def execRecv (s : State) : Host.Outcome State Fault Refusal :=
  let k := s.gA
  let off := s.gB.toNat
  let len := s.gC.toNat
  let tag := s.cf.fn.setWidth 8
  let me := (s.curModule, s.curThread)
  if s.thr.wait.isSome then s.chunkNext (s.chunkWait s.thr.got (fun t => .ok t) (fun t => t))
  else if s.badPeer k then s.chunkNext (chunkFault 6)
  else if !s.thr.fits off len then s.chunkNext (chunkFault 5)
  else if s.thr.hazard off len then s.chunkNext (chunkFault 9)
  else
    let r : RecvRec := { rank := k.toNat, tag := tag, off := off, len := len, ended := false }
    let u := s.setThr { s.thr with recvs := s.thr.recvs ++ [r] }
    let paired := match u.peer s.thr.inst k.toNat with
      | some (m, th, _) => u.pairUp (m, th) me tag ((u.thr.recvsFrom k.toNat tag).length - 1)
      | none => .ok u
    match paired with
    | .ok v => s.chunkEnd v (s.thr.pc + 1) (v.chunkWait false (fun t => .ok t) (fun t => t.setThr t.thr.leaveRecv))
    | .error (c, at_) => if at_ = me then s.chunkNext (chunkFault c) else .next (s.threadFault at_.1 at_.2 c 0)

/-- The posted operations of a thread without the j-th SEND to a rank with a tag. -/
def dropSend (rank : Nat) (tag : BitVec 8) : Nat → List Posted → List Posted
  | _, [] => []
  | j, p :: l =>
    match p with
    | .send r g _ _ =>
      if r = rank ∧ g = tag then (match j with | 0 => l | j + 1 => p :: dropSend rank tag j l) else p :: dropSend rank tag j l
    | .signal _ _ => p :: dropSend rank tag j l

/-- CHUNK_TRANSFER_COMPLETE (R404): the transfer of RECV State.ev.i of thread State.ev.th of module State.ev.m is written there
and acknowledged. -/
def execChunkTransferComplete (s : State) : Host.Outcome State Fault Refusal :=
  match s.thread s.ev.m s.ev.th with
  | none => .next s
  | some t =>
    match t.recvs[s.ev.i]? with
    | none => .next s
    | some r =>
      match r.data, s.peer t.inst r.rank with
      | some l, some (m, th, src) =>
        if t.st = .stopped ∨ src.st = .stopped then .next s
        else
          let j := ((t.recvsFrom r.rank r.tag).filter (fun i => decide (i < s.ev.i))).length
          let u := s.setThread m th { src with posted := dropSend t.rank r.tag j src.posted }
          match u.thread s.ev.m s.ev.th with
          | none => .next s
          | some t =>
            let t := { t.put r.off l with recvs := listDel t.recvs s.ev.i, got := t.got || !r.ended }
            .next (u.setThread s.ev.m s.ev.th t)
      | _, _ => .next s

/-- SIGNAL (R405). -/
def execSignal (s : State) : Host.Outcome State Fault Refusal :=
  let k := s.gA
  s.chunkNext (
    if s.badPeer k then chunkFault 6
    else s.boundWait (decide (s.thr.posted.length < 8)) (fun t =>
      .ok (t.setThr { t.thr with posted := t.thr.posted ++ [.signal k.toNat (s.cf.imm.setWidth 3)] })))

/-- SIGNAL_APPLY (R405): posted operation State.ev.i of thread State.ev.th of module State.ev.m increments its peer's counter. -/
def execSignalApply (s : State) : Host.Outcome State Fault Refusal :=
  match s.thread s.ev.m s.ev.th with
  | none => .next s
  | some t =>
    match t.posted[s.ev.i]? with
    | some (.signal k c) =>
      let u := s.setThread s.ev.m s.ev.th { t with posted := listDel t.posted s.ev.i }
      (match u.peer t.inst k with
      | some (m, th, p) =>
        if t.st = .stopped then .next s
        else .next (u.setThread m th { p with sc := p.sc.set c.toNat (p.sc[c.toNat]'(c.isLt) + 1) c.isLt })
      | none => .next s)
    | _ => .next s

/-- WAIT.SIG (R405). -/
def execWaitSig (s : State) : Host.Outcome State Fault Refusal :=
  let c : BitVec 3 := s.cf.imm.setWidth 3
  s.chunkNext (s.chunkWait (decide (s.gA.toNat ≤ (s.thr.sc[c.toNat]'(c.isLt)).toNat)) (fun t => .ok t) (fun t => t))

/-- WAIT.ARM (R405). -/
def execWaitArm (s : State) : Host.Outcome State Fault Refusal :=
  let c : BitVec 3 := s.cf.imm.setWidth 3
  s.chunkNext (match s.thr.slots[c.toNat]'(c.isLt) with
    | none => chunkFault 0x0A
    | some p => s.chunkWait (p.applied == p.expect) (fun t => .ok t) (fun t => t))

/-- FENCEC (R409). -/
def execFencec (s : State) : Host.Outcome State Fault Refusal :=
  s.chunkNext (s.chunkWait s.thr.posted.isEmpty (fun t => .ok t) (fun t => t))

/-- HALT (R410): the thread ends; the root may now decide, and push deltas that no thread can place any more are refused. -/
def execHalt (s : State) : Host.Outcome State Fault Refusal :=
  if s.thr.posted.isEmpty then
    let u := s.setThr { s.thr with st := .halted, wait := none }
    match s.instOf s.thr.inst with
    | some i => .next ((u.retryPushes i.ctx).tryDecide i.ctx)
    | none => .next u
  else s.chunkNext (s.boundWait false (fun t => .ok t))

/-! ### Push slots -/

/-- The identity of an operator on an element (R412). -/
def identityOf (op ty : Nat) : Nat :=
  let w := 8 * chunkSize ty
  match op with
  | 0 => if ty = 4 then 0x80000000 else 0
  | 1 => if ty = 4 then 0x7F800000 else if ty ≤ 1 then 2 ^ (w - 1) - 1 else 2 ^ w - 1
  | 2 => if ty = 4 then 0xFF800000 else if ty ≤ 1 then 2 ^ (w - 1) else 0
  | 4 => 2 ^ w - 1
  | _ => 0

/-- A group range is armed by some thread of the instance. -/
def State.armed (s : State) (id lo len : Nat) : Bool :=
  s.mods.any (fun e => e.2.threads.any (fun t => t.2.inst == id &&
    t.2.slots.toList.any (fun p => match p with | some q => overlaps (q.lo, q.len) (lo, len) | none => false)))

/-- ARMRED (R412): push deltas that wait for it are placed (R413). -/
def execArmred (s : State) : Host.Outcome State Fault Refusal :=
  let t := s.thr
  let k : BitVec 3 := s.cf.imm.setWidth 3
  let len := (t.getG (s.cf.fn.setWidth 4)).toNat
  let op := s.cf.fn.toNat / 16 % 8
  let ty := s.cf.fn.toNat / 128 % 16
  let lo := s.gA.toNat
  let off := s.gB.toNat
  let z := chunkSize ty
  let bad : Bool := (t.slots[k.toNat]'(k.isLt)).isSome || lo % z != 0 || len % z != 0 || s.gC == 0 || s.armed t.inst lo len
  s.chunkNext (
    if !t.fits off len then chunkFault 5
    else if t.hazard off len then chunkFault 9
    else if bad then chunkFault 0x0A
    else
      let p : PushSlot := { lo := lo, len := len, off := off, op := BitVec.ofNat 3 op, ty := BitVec.ofNat 4 ty, expect := s.gC.toNat,
                            placed := 0, applied := 0 }
      let init := (span 0 (len / z)).flatMap (fun _ => toBytes z (identityOf op ty))
      let u := s.setThr { t.put off init with slots := t.slots.set k.toNat (some p) k.isLt }
      .ok (match s.instOf t.inst with | some i => u.retryPushes i.ctx | none => u))

/-! ### Transfers to and from members -/

/-- The request of member k of an instance. -/
def Inst.member (i : Inst) (k : Nat) : Option CollReq := i.reqs[k]?

/-- The members on a rank, by index (R396): a member's rank is that of the tile that made its request. -/
def Inst.membersOn (i : Inst) (rank : Nat) : List Nat :=
  (span 0 i.reqs.length).filter (fun k => match i.reqs[k]? with | some r => i.ranks[rank]? == some (modOf r.tile) | none => false)

/-- The range that a GATHER (land false) or a DELIVER (land true) names at a member (R408). -/
def CollReq.range (r : CollReq) (land : Bool) (rng : Nat) : Option (Nat × Nat) :=
  ((if land then landRanges r.desc r.pblk else conRanges r.desc r.pblk).map rangeOf)[rng]?

/-- The fields of GATHER, DELIVER and MCAST: window offset, range offset, length, range number, ACC. -/
def State.xferArgs (s : State) : Nat × Nat × Nat × Nat × Bool :=
  (s.gB.toNat, s.gC.toNat, (s.thr.getG (s.cf.fn.setWidth 4)).toNat, s.cf.fn.toNat / 16 % 4, bitAt s.cf.fn.toNat 6)

/-- The window bytes as they are delivered: with ACC, ToRaw of every element (R407). -/
def deliverBytes (acc : Bool) (l : List Byte) : List Byte :=
  if acc then (chunksOf 16 (l.length / 16) l).flatMap (fun e => rawElem (BitVec.ofNat 16 (ofBytes ((e.drop 12).take 2))) (elemOfBuffer e))
  else l

/-- Contribution bytes as they are gathered: with ACC, the buffer form; none when they are no valid raw image (R407). -/
def gatherBytes (acc : Bool) (l : List Byte) : Option (List Byte) :=
  if acc then
    let es := chunksOf 16 (l.length / 16) l
    let anc := fun (e : List Byte) => ofBytes ((e.drop 12).take 2)
    let first := anc (es.headD [])
    if es.any (fun e => !(rawValid e) || anc e != first) then none
    else some (es.flatMap (fun e => elemBuffer (BitVec.ofNat 16 first) (ofRaw e)))
  else some l

/-- Reads of a member's lines for the sequencer (R411, R429): corrected errors are counted, an uncorrectable one stops it. -/
def State.seqReads (s : State) (t : Nat) : List Nat → State × Bool
  | [] => (s, true)
  | k :: r =>
    if (s.tile t).hardAt (.line k) then (s.countError t cSRAM (k % 16), false) else State.seqReads (s.correctAt t (.line k)) t r

/-- The context of an instance can be reached: a transfer of one that is not resident, or that Lull has quiesced, is parked
(R416, R449). -/
def State.reachable (s : State) (c : Nat) : Bool := (s.ctx c).resident && !(s.ctx c).lull

/-- One member's transfer (R408): through the tile map as it stands; none while the member cannot be reached; else the state in
which it may fault, and its result. -/
def State.moveMember (s : State) (i : Inst) (k : Nat) (land : Bool) : Option (State × Except ChunkStop State) :=
  let a := s.xferArgs
  let off := a.1
  let n := a.2.2.1
  let acc := a.2.2.2.2
  if !s.reachable i.ctx then none
  else match i.member k with
    | none => none
    | some r =>
      match r.range land a.2.2.2.1, (s.ctx i.ctx).tileOf r.vt with
      | some g, some t =>
        if (s.cluster (clusterOf t)).lost then none
        else
          let lo := g.1 + a.2.1
          if land then
            if s.thr.spoiled off n then some (s, chunkFault 0x0E)
            else
              let u := (linesOf lo n).foldl (fun u l => u.captureLine t l) s
              some (s, .ok (u.setTile t ((u.tile t).writeBytes lo (deliverBytes acc (s.thr.bytes off n)))))
          else
            match s.seqReads t (linesOf lo n) with
            | (u, false) => some (u, chunkFault 0x0E)
            | (u, true) =>
              match gatherBytes acc ((u.tile t).bytes lo n) with
              | none => some (u, chunkFault 0x0B)
              | some l => some (u, .ok (u.setThr (u.thr.put off l)))
      | _, _ => none

/-- The checks of GATHER, DELIVER and MCAST over some members (R408). -/
def State.xferChecks (s : State) (i : Inst) (ks : List Nat) (land : Bool) : Except ChunkStop Unit :=
  let a := s.xferArgs
  let n := a.2.2.1
  let mine := i.membersOn s.thr.rank
  let extent := fun (k : Nat) => match i.member k with
    | some r => (match r.range land a.2.2.2.1 with | some g => decide (a.2.1 + n ≤ g.2) | none => false)
    | none => false
  if ks.any (fun k => !mine.contains k) then chunkFault 6
  else if !(ks.all extent) || n % 16 != 0 || (a.2.2.2.2 && n % 64 != 0) then chunkFault 7
  else if !s.thr.fits a.1 n then chunkFault 5
  else if !land && s.thr.hazard a.1 n then chunkFault 9
  else .ok ()

/-- GATHER, DELIVER and MCAST (R408): the members still to reach are left to CHUNK_WAIT_MET, one at a time in order. -/
def State.xfer (s : State) (land many : Bool) : Host.Outcome State Fault Refusal :=
  match s.instOf s.thr.inst with
  | none => .next s
  | some i =>
    if s.thr.wait.isSome then
      match s.thr.left with
      | [] => s.chunkNext (s.chunkWait true (fun t => .ok t) (fun t => t))
      | k :: r =>
        (match s.moveMember i k land with
        | none => .next s
        | some (w, .error e) => w.chunkNext (.error e)
        | some (_, .ok u) =>
          let v := u.setThr { u.thr with left := r }
          if r.isEmpty then s.chunkNext (v.chunkWait true (fun t => .ok t) (fun t => t)) else .next v)
    else
      let ks := if many then i.membersOn s.thr.rank else [s.gA.toNat]
      match s.xferChecks i ks land with
      | .error e => s.chunkNext (.error e)
      | .ok _ =>
        let u := s.setThr { s.thr with left := ks }
        if s.xferArgs.2.2.1 = 0 then s.chunkNext (s.chunkWait true (fun t => .ok t) (fun t => t))
        else if s.cf.dl = 0 ∧ !s.reachable i.ctx then
          .next (u.setThr { u.thr with st := .waiting, wait := some { deadline := 0, dl := 0 } })
        else s.chunkEnd u (s.thr.pc + 1) (u.chunkWait false (fun t => .ok t) (fun t => t))

/-- GATHER (R408). -/
def execGather (s : State) : Host.Outcome State Fault Refusal := s.xfer false false

/-- DELIVER (R408). -/
def execDeliver (s : State) : Host.Outcome State Fault Refusal := s.xfer true false

/-- MCAST (R408). -/
def execMcast (s : State) : Host.Outcome State Fault Refusal := s.xfer true true

/-! ### Waits, bounds and the start of a thread -/

/-- A waiting chunk instruction is executed again at a test of its wait. -/
def chunkRetest (i : Instr) (s : State) : Host.Outcome State Fault Refusal :=
  match i with
  | .send => execSend s
  | .recv => execRecv s
  | .waitSig => execWaitSig s
  | .waitArm => execWaitArm s
  | .gather => execGather s
  | .deliver => execDeliver s
  | .mcast => execMcast s
  | .signal => execSignal s
  | .halt => execHalt s
  | .fencec => execFencec s
  | _ => .next s

/-- The thread that an event names becomes the current one. -/
def State.focusThread (s : State) : State := { s with curModule := s.ev.m, curThread := s.ev.th }

/-- The waiting instruction of the current thread. -/
def State.chunkInstr (s : State) : Instr := match decodeChunk s.thr.ir with | .ok i => i | .error _ => .chunkNop

/-- CHUNK_WAIT_MET (R401, R404, R405, R408 to R410): thread State.ev.th of module State.ev.m is tested; a GATHER, DELIVER or MCAST
reaches its next member. -/
def execChunkWaitMet (s : State) : Host.Outcome State Fault Refusal :=
  let u := s.focusThread
  if u.thr.st = .waiting then chunkRetest u.chunkInstr u else .next s

/-- The instruction transfers to or from members. -/
def isXfer (i : Instr) : Bool := match i with | .gather | .deliver | .mcast => true | _ => false

/-- The condition of the current thread's wait holds. -/
def State.chunkMet (s : State) : Bool :=
  let t := s.thr
  let c : BitVec 3 := s.cf.imm.setWidth 3
  match s.chunkInstr with
  | .send | .signal => decide (t.posted.length < 8)
  | .recv => t.got
  | .waitSig => decide (s.gA.toNat ≤ (t.sc[c.toNat]'(c.isLt)).toNat)
  | .waitArm => (match t.slots[c.toNat]'(c.isLt) with | some p => p.applied == p.expect | none => true)
  | .gather | .deliver | .mcast => t.left.isEmpty
  | .halt | .fencec => t.posted.isEmpty
  | _ => false

/-- The clock of a context stands still at a debug halt, and with it the clocks of its threads and of its starts (R228, R400). -/
def State.frozen (s : State) (c : Nat) : Bool := !(s.ctx c).running && (s.ctxTiles c).any (fun t => (s.tile t).stopped)

/-- The deadline of the current thread's wait has expired on its clock, which runs (R228, R400); that of a parked transfer is set aside
(R416). -/
def State.chunkExpired (s : State) : Bool :=
  match s.thr.wait with
  | some w =>
    let aside := match s.instOf s.thr.inst with | some i => s.frozen i.ctx || (isXfer s.chunkInstr && !s.reachable i.ctx) | none => false
    s.thr.st == .waiting && !aside && expiredAt s.thr.clock w.deadline
  | none => false

/-- The lowest thread number that is free in a module. -/
def Module.freeThread (m : Module) : Option Nat := (span 0 64).find? (fun k => (SMap.find m.threads k).isNone)

/-- Chunks of a module's buffers in use: the windows of its threads (R387, R410). -/
def Module.chunksUsed (m : Module) : Nat := (m.threads.map (fun t => t.2.nbuf)).foldl (· + ·) 0

/-- A module can give an instance its thread and window now (R396). -/
def State.canStart (s : State) (m : Nat) (i : Inst) : Bool :=
  (s.mod m).freeThread.isSome && decide ((s.mod m).chunksUsed + bitsOf ((s.mod m).entry i.handle).w0.toNat 55 48 ≤ 16384)

/-- CHUNK_WAIT_EXPIRY (R401): the deadline of thread State.ev.th of module State.ev.m has expired; a condition that has become true
takes precedence. -/
def execChunkWaitExpiry (s : State) : Host.Outcome State Fault Refusal :=
  let u := s.focusThread
  match u.thr.wait with
  | none => .next s
  | some w =>
    if w.dl = 0 ∨ !u.chunkExpired then .next s
    else if u.chunkMet then chunkRetest u.chunkInstr u
    else if u.thr.th = 0 then .next (u.threadFault u.curModule u.curThread 4 0)
    else
      let t := if u.chunkInstr = .recv then u.thr.leaveRecv else u.thr
      let t := (t.setG 13 1).setG 14 (BitVec.ofNat 64 t.pc)
      .next (u.setThr (t.goTo (t.base + t.th)))

/-- A rank of an instance has waited for its thread past the captured DT7 (R396). -/
def Inst.startExpired (i : Inst) (m : Nat) : Bool :=
  i.st == .running && i.toStart.contains m &&
    (match i.reqs with | r :: _ => expiredAt i.clock ((r.dts.getD 6 0).setWidth 48) | [] => false)

/-- CHUNK_BOUND_EXPIRY (R396, R405, R410): the DT7 bound of SIGNAL or HALT of thread State.ev.th of module State.ev.m expires, or, with
ok false, that of the start of instance State.ev.i there. -/
def execChunkBoundExpiry (s : State) : Host.Outcome State Fault Refusal :=
  if s.ev.ok then
    let u := s.focusThread
    match u.thr.wait with
    | none => .next s
    | some w =>
      if w.dl ≠ 0 ∨ isXfer u.chunkInstr ∨ !u.chunkExpired then .next s
      else if u.chunkMet then chunkRetest u.chunkInstr u
      else .next (u.threadFault u.curModule u.curThread 4 0)
  else
    match s.instOf s.ev.i with
    | none => .next s
    | some i =>
      if i.startExpired s.ev.m ∧ !s.canStart s.ev.m i ∧ !s.frozen i.ctx then
        let rank := (i.ranks.takeWhile (fun r => r != s.ev.m)).length
        let first := match i.reqs with | r :: _ => r.vt | [] => 0
        .next (((s.faultInst i).collFault i rank s.ev.m 0 0x0D 0).send (.abortToken i.ctx first))
      else .next s

/-- The registers of a thread at its start (R396). -/
def startRegs (i : Inst) (rank : Nat) : Vector (BitVec 64) 16 :=
  let mine := i.membersOn rank
  Vector.ofFn (fun (r : Fin 16) =>
    match r.val, i.reqs with
    | 8, _ => BitVec.ofNat 64 rank
    | 9, _ => BitVec.ofNat 64 i.ranks.length
    | 10, _ => BitVec.ofNat 64 i.reqs.length
    | 11, _ => BitVec.ofNat 64 mine.length
    | 12, _ => BitVec.ofNat 64 (mine.headD 0)
    | k, q :: _ => if k < cdNarg q.desc ∧ k < 8 then BitVec.ofNat 64 (pbWord q.pblk k) else 0
    | _, [] => 0)

/-- THREAD_START (R396): module State.ev.m gives instance State.ev.i a thread and a window, if both are free. -/
def execThreadStart (s : State) : Host.Outcome State Fault Refusal :=
  let m := s.ev.m
  match s.instOf s.ev.i, (s.mod m).freeThread with
  | some i, some k =>
    let e := (s.mod m).entry i.handle
    let nbuf := bitsOf e.w0.toNat 55 48
    if i.st ≠ .running ∨ !i.toStart.contains m ∨ 16384 < (s.mod m).chunksUsed + nbuf then .next s
    else
      let rank := (i.ranks.takeWhile (fun r => r != m)).length
      let base := bitsOf e.w0.toNat 16 0
      let t : Thread :=
        { inst := i.id, rank := rank, g := startRegs i rank, base := base, len := bitsOf e.w1.toNat 17 0, th := bitsOf e.w0.toNat 39 23,
          nbuf := nbuf, pc := base, dts := match i.reqs with | r :: _ => r.dts | [] => [] }
      let u := s.setThread m k t
      .next { u with insts := u.insts.map (fun j => if j.id = i.id then { j with toStart := j.toStart.filter (fun r => r != m) } else j) }
  | _, _ => .next s

/-- ABORT_TOKEN (R411, R467, R538): the token at place State.ev.i of the messages reaches its context's root. -/
def execAbortToken (s : State) : Host.Outcome State Fault Refusal :=
  match s.net[s.ev.i]? with
  | some (.abortToken c t) =>
    let u : State := { s with net := listDel s.net s.ev.i }
    if u.hasCtx c then .next ((u.stopInstances c).demandDecision c (.fatal cREMOTE t)) else .next u
  | _ => .next s

/-! ### A turn of a thread -/

/-- The slot at the thread's PC, or FETCH (R403). -/
def State.chunkFetch (s : State) : Except ChunkStop (BitVec 64) :=
  let t := s.thr
  if t.pc < t.base ∨ t.base + t.len ≤ t.pc then chunkFault 3 else .ok (SMap.get 0 (s.mod s.curModule).store t.pc)

/-- The fault of a slot that does not decode (R411). -/
def chunkError : DecodeError → Nat
  | .unassigned => 1
  | _ => 2

end Sys2Proof.Machine
end

