-- ==== Sys2Proof/Machine/Supervisor.lean ====
section
/-! DEFINITION. The supervisor instructions of the management tiles and the end of their operations (20_module_host.md R481 to R487,
R496 to R498, with 10_clusters_launch.md R266 to R268, 18_preemption.md R445 to R462, 22_debug.md R522), the tree that START
builds (11_supersteps.md R299), and the steps of the units that serve them. -/
namespace Sys2Proof.Machine

/-! ### Global memory as a supervisor operation sees it -/

/-- The n bytes at a physical address of module m, read part by part within lines (R323, R324): the state after the reads, the
bytes, and whether poison was met. -/
def State.readSpan (s : State) (m a n : Nat) : State × List Byte × Bool :=
  (linesOf a n).foldl (fun (r : State × List Byte × Bool) k =>
    let lo := max a (64 * k)
    let hi := min (a + n) (64 * k + 64)
    let q := r.1.readPhys m lo (hi - lo) none none 0
    (q.1, r.2.1 ++ toBytes (hi - lo) q.2.1, r.2.2 || q.2.2)) (s, [], false)

/-- The span lies in the usable memory of some module (R322, R478). -/
def physSpanOk (a n : Nat) : Bool := a / 2 ^ 58 == 0 && decide (physOffset a + n ≤ memTop)

/-! ### Contexts and clusters -/

/-- The context runs: it has been started and is neither held nor parked after FATAL. -/
def Ctx.runs (c : Ctx) : Bool := c.started && !c.held && !c.fatal

/-- Every strand of the cluster is IDLE. -/
def State.allIdle (s : State) (k : Nat) : Bool :=
  (tilesOf k).all (fun t => (s.tile t).strands.toList.all (fun r => r.st == .idle))

/-- The context of the cluster is held. -/
def State.clusterHeld (s : State) (k : Nat) : Bool := match (s.cluster k).ctx with | some c => (s.ctx c).held | none => false

/-- The context of a cluster is held, parked after FATAL or not started (R484). -/
def State.clusterStill (s : State) (k : Nat) : Bool :=
  match (s.cluster k).ctx with | some c => s.hasCtx c && !(s.ctx c).runs | none => false

/-- The cluster that a virtual cluster of the context is mapped to, when it is bound to the context. -/
def State.mappedTo (s : State) (c v : Nat) : Option Nat :=
  match SMap.find (s.ctx c).tmap v with
  | some k => if (s.cluster k).ctx = some c then some k else none
  | none => none

/-- A KEYZ of the context has not completed (R496). -/
def State.keyzPending (s : State) (c : Nat) : Bool :=
  s.mods.any (fun e => e.2.ops.any (fun o => (match o.instr with | .keyz .. => true | _ => false) && o.target == 4 * c + 1))

/-- The lowest context number that LAUNCH may allocate (R484, R496). -/
def State.freeCtx (s : State) : Option Nat := (span 0 64).find? (fun c => !s.hasCtx c && !s.keyzPending c)

/-- The context as LAUNCH leaves it (R484, R486), m the module of its supervisor; the owner is not in the block (log entry 4). -/
def ctxOfBlock (m : Nat) (owner : Word) (l : List Byte) : Ctx :=
  let f := fun (o n : Nat) => ofBytes ((l.drop o).take n)
  { home := m, owner := owner, tiles := f 0 4, abortLim := f 4 2, lowWater := BitVec.ofNat 16 (f 6 2), root := f 8 8, plim := f 16 4,
    partner := f 20 2, prot := bitAt (f 22 1) 0, spill := f 24 8, save := f 32 8, slot0 := f 40 8, slot1 := f 48 8, logAt := f 56 6,
    logSize := if f 62 2 = 0 then 64 else f 62 2 }

/-- A field of a launch block is out of range (R443, R483, R486). -/
def badLaunchBlock (l : List Byte) : Bool :=
  let f := fun (o n : Nat) => ofBytes ((l.drop o).take n)
  f 0 4 == 0 || f 0 4 % 16 != 0 || decide (2 ^ 27 < f 0 4) || f 4 2 == 0 || decide (2 ^ 48 ≤ f 8 8) || f 8 8 % 4096 != 0 || decide (1024 ≤ f 20 2) ||
    decide (1 < f 22 1) || f 23 1 != 0 || [24, 32, 40, 48].any (fun o => f o 8 / 2 ^ 58 != 0)

/-- BIND.bind takes effect (R484). -/
def State.bindCluster (s : State) (k c : Nat) : State :=
  s.setCluster k { s.cluster k with ctx := some c, vci := none, owner := (s.ctx c).owner, elect := 0, started := false, gone := false }

/-- A stack keeps nothing of the contexts that are gone: no tentative write, no journal entry, and no mark that their journal is full (R465,
R496). -/
def Stack.forget (x : Stack) (gone : Nat → Bool) : Stack :=
  { x with tbuf := x.tbuf.filter (fun d => !gone d.ctx), journal := x.journal.filter (fun j => !gone j.ctx),
           journalFull := x.journalFull.filter (fun c => !gone c) }

/-- A strand that becomes IDLE (R484). -/
def Strand.toIdle (r : Strand) : Strand :=
  { r with st := .idle, wait := none, stall := none, park := none, arrival := none, gread := none, walk := none, vseq := none,
           stepping := false, before := none, restored := none, refusal := false, oakTile := 0, oakCtx := 0, oakSys := 0 }

/-- BIND.unbind takes effect (R484): of a lost cluster only the record changes, and its context stays as it is (R499). -/
def State.unbindCluster (s : State) (k : Nat) : State :=
  let x := s.cluster k
  let u := s.setCluster k { x with ctx := none, vci := none, started := false, gone := false }
  if x.lost ∨ x.gone then u else
  let u := (tilesOf k).foldl (fun (v : State) t =>
    v.setTile t { v.tile t with strands := (v.tile t).strands.map Strand.toIdle, bar := .opened }) u
  match x.ctx with
  | some c => if u.ctxTiles c = [] then u.setCtx c { u.ctx c with resident := false } else u
  | none => u

/-- TMAP.map takes effect (R484). -/
def State.mapCluster (s : State) (c v k : Nat) : State :=
  let x := s.ctx c
  let s := s.setCtx c { x with tmap := SMap.set x.tmap v k }
  let s := match SMap.find x.tmap v with
    | some old => if old ≠ k ∧ (s.cluster old).vci = some v then s.setCluster old { s.cluster old with vci := none } else s
    | none => s
  let s := s.setCluster k { s.cluster k with vci := some v }
  (span 0 16).foldl (fun (u : State) j => u.setTile (16 * k + j) { u.tile (16 * k + j) with vtid := BitVec.ofNat 27 (16 * v + j) }) s

/-- The lines in a module that hold the entries a walk for va reads, from table t over the levels given. -/
def tablePath (mem : Memory) (va : Nat) : List Nat → Nat → List Nat
  | [], _ => []
  | lvl :: r, t =>
    let pa := t + 8 * tableIndex lvl va
    let e := Memory.num mem pa 8
    pa / 64 :: (if lfV e && !lfLeaf e then tablePath mem va r (lfPa e) else [])

/-- The lines in a module that hold the tables below table t, over the levels given. -/
def tableLines (mem : Memory) : List Nat → Nat → List Nat
  | [], _ => []
  | lvl :: r, t =>
    let n := if lvl = 4 then 32 else 512
    linesOf t (8 * n) ++ (if r = [] then [] else (span 0 n).flatMap (fun i =>
      let e := Memory.num mem (t + 8 * i) 8
      if lfV e && !lfLeaf e then tableLines mem r (lfPa e) else []))

/-- The caches drop their entries of a context, or of one page of it (R331, R332). -/
def State.dropCached (s : State) (c va scope : Nat) : State :=
  { s with
    clusters := s.clusters.map (fun e => (e.1, { e.2 with tcache := e.2.tcache.filter (fun (x : TcEntry) =>
      !(x.ctx == c && (scope == 1 || va / x.size == x.page))) })),
    dies := s.dies.map (fun e => (e.1, { e.2 with wcache := e.2.wcache.filter (fun (x : WcEntry) =>
      !(x.ctx == c && (scope == 1 || x.covers c va))) })) }

/-- TMAP.inval takes effect (R332, R484): a table line of what is invalidated that has been rewritten leaves the poison registry
(R333). -/
def State.invalidate (s : State) (c va scope : Nat) : State :=
  let root := (s.ctx c).root
  let lines := fun (md : Module) => if scope = 1 then tableLines md.mem [1, 2, 3, 4] root else tablePath md.mem va [1, 2, 3, 4] root
  let clean := fun (m : Nat) (md : Module) =>
    if md.registry = [] then md else { md with registry := md.registry.filter (fun k => s.poisoned m (64 * k) || !(lines md).contains k) }
  { s.dropCached c va scope with mods := s.mods.map (fun e => (e.1, clean e.1 e.2)) }

/-- GRPM with group g added in the lowest free place, or taken out (R293). -/
def grpmSet (v : Word) (g : Nat) (inside : Bool) : Word :=
  let n := v.toNat
  let valid := fun (i : Nat) => bitAt n (32 + i)
  let num := fun (i : Nat) => bitsOf n (8 * i + 7) (8 * i)
  match (span 0 4).find? (fun i => valid i && num i == g) with
  | some i => if inside then v else BitVec.ofNat 64 (n - 2 ^ (32 + i) - g * 2 ^ (8 * i))
  | none =>
    if inside then
      match (span 0 4).find? (fun i => !valid i) with
      | some i => BitVec.ofNat 64 (n - num i * 2 ^ (8 * i) + 2 ^ (32 + i) + g * 2 ^ (8 * i))
      | none => v
    else v

/-- The members that a bitmap of n bits names. -/
def bitmapMembers (l : List Byte) (n : Nat) : List Nat :=
  (span 0 n).filter (fun i => (l.getD (i / 8) 0).getLsbD (i % 8))

/-- A member would belong to more than four groups (R293). -/
def Ctx.groupsFull (c : Ctx) (g : Nat) (members : List Nat) : Bool :=
  members.any (fun v => decide (4 ≤ (c.groups.filter (fun e => e.1 != g && e.2.contains v)).length))

/-- TMAP.group takes effect (R484). -/
def State.setGroup (s : State) (c g : Nat) (members : List Nat) : State :=
  let x := s.ctx c
  let s := s.setCtx c { x with groups := SMap.set x.groups g members }
  (span 0 x.tiles).foldl (fun (u : State) v =>
    match x.tileOf v with
    | some t => u.setTile t { u.tile t with grpm := grpmSet (u.tile t).grpm g (members.contains v) }
    | none => u) s

/-- The bytes of the group bitmap of a TMAP.group block. -/
def State.groupBitmap (s : State) (args : List Byte) : State × List Byte × Bool :=
  let a := ofBytes ((args.drop 8).take 8)
  let n := ofBytes ((args.drop 16).take 4)
  s.readSpan (physModule a) (physOffset a) ((n + 7) / 8)

/-! ### CODEST -/

/-- The tiles of a cluster that a mask names. -/
def maskTiles (k mask : Nat) : List Nat := (tilesOf k).filter (fun t => bitAt mask (t % 16))

/-- CODEST.code takes effect (R255, R484): the whole store is written. -/
def State.storeCode (s : State) (k : Nat) (l : List Byte) : State :=
  s.setCluster k { s.cluster k with store := Memory.writeBytes [] 0 l, clim := BitVec.ofNat 17 l.length, errs := [] }

/-- A store that CODEST could not fill holds values that the architecture does not fix (R484, log entry 4); CLIM stays as it
was, of which the spec says nothing (log entry 56). -/
def State.spoilCode (s : State) (k : Nat) : State :=
  { s.setCluster k { s.cluster k with store := Memory.writeBytes [] 0 ((span 0 65536).map (fun i => Config.freeByte (s.free + i))) } with
    free := s.free + 65536 }

/-- The line descriptors of a local image that begins at dst go into the side band, two bytes for each line (R78). -/
def Tile.placeDescs (x : Tile) (dst : Nat) (descs : List Byte) : Tile :=
  (span 0 (descs.length / 2)).foldl (fun (y : Tile) i => y.setDesc (dst / 64 + i) (BitVec.ofNat 16 (ofBytes ((descs.drop (2 * i)).take 2)))) x

/-- CODEST.local takes effect (R484), with the descriptors of the image's lines (R78, log entry 53). -/
def State.storeLocal (s : State) (tiles : List Nat) (dst : Nat) (l descs : List Byte) : State :=
  tiles.foldl (fun (u : State) t => u.setTile t (((u.tile t).writeBytes dst l).placeDescs dst descs)) s

/-- The register numbers below 512 that are assigned (R23, R24). -/
def assignedReg (r : Nat) : Bool :=
  decide (r ≤ 36) || r == 256 || r == 257 || (decide (260 ≤ r) && decide (r ≤ 264)) || (decide (270 ≤ r) && decide (r ≤ 272)) ||
    (decide (280 ≤ r) && decide (r ≤ 343))

/-- STAT.ST of a code (R26). -/
def stOfCode (n : Nat) : StrandSt :=
  match n with
  | 1 => .run | 2 => .wait | 3 => .park | 4 => .halt | 5 => .retired | _ => .idle

/-- A value put over what the hardware computes for register r. -/
def Strand.force (z : Strand) (r : Nat) (v : Word) : Strand := { z with forced := SMap.set z.forced r v }

/-- A value is put into a register of strand n of tile t, RO fields included (R484). A field that the hardware computes from other state
(PTID, STRN, RETU, RETC, ELECTED) reads as put until the strand starts again (log entry 14); the mode is no such field, for no instruction
changes it (R36), and reserved bits stay zero (R10). -/
def State.forceReg (s : State) (t : Nat) (n : BitVec 2) (r : Nat) (v : Word) : State :=
  let x := s.tile t
  let z := x.strand n
  let w := v.toNat
  let put : Strand → State := fun y => s.setTile t (x.setStrand n y)
  match r with
  | 0 => s.setTile t ({ x with irv := bitAt w 8 }.setStrand n ({ z with st := stOfCode (bitsOf w 11 9), th := bitAt w 1 }))
  | 9 => put { z with dt := z.dt.set 6 (v.setWidth 32) }
  | 10 => put { z with flg := v.setWidth 19 }
  | 12 => put { z with tcause := v.setWidth 18 }
  | 14 => put { z with tval := v }
  | 18 => put { z with sen := v.setWidth 16 &&& 0xFFFC }
  | 19 => s.setTile t { x with num := w / 2 ^ 16, att := w % 2 ^ 16 }
  | 22 => put { z with prio := v.setWidth 2, comm := v.getLsbD 2, raised := v.getLsbD 3 }
  | 24 => put { z with schcBase := BitVec.ofNat 14 (bitsOf w 49 36), schcLen := BitVec.ofNat 11 (bitsOf w 26 16), cur := v.setWidth 11 }
  | 29 => s.setTile t { x with vtid := v.setWidth 27 }
  | 30 => put (z.force 30 (BitVec.ofNat 64 (w % 2 ^ 18)))
  | 31 => put (z.force 31 (BitVec.ofNat 64 (w % 4)))
  | 32 => put { z with oakTile := v.setWidth 16, oakCtx := BitVec.ofNat 16 (w / 2 ^ 16), oakSys := BitVec.ofNat 16 (w / 2 ^ 32) }
  | 33 => put (z.force 33 (BitVec.ofNat 64 (w % 2 ^ 17)))
  | 34 => put (z.force 34 v)
  | 35 =>
    let u := s.setCluster (clusterOf t) { s.cluster (clusterOf t) with elect := v.setWidth 4 }
    u.setTile t (x.setStrand n (z.force 35 v))
  | 36 => match s.ctxOf t with | some c => s.setCtx c { s.ctx c with clock := v.setWidth 48 } | none => s
  | 264 => s.setTile t { x with grpm := BitVec.ofNat 64 (w % 2 ^ 36) }
  | 270 => s.setTile t { x with ewin := BitVec.ofNat 64 (w % 2 ^ 48) }
  | 271 => s.setTile t { x with ethr := BitVec.ofNat 64 (w % 2 ^ 16) }
  | 272 => s.setTile t { x.window (s.refTick (modOf t)) with ecnt := BitVec.ofNat 64 (w / 2 ^ 63 % 2 * 2 ^ 63 + bitsOf w 39 32 * 2 ^ 32 + w % 2 ^ 16) }
  | _ =>
    if 260 ≤ r ∧ r ≤ 263 then
      let q := BitVec.ofNat 2 (r - 260)
      let c := qPack (qHead v) (qTail v) (qEn v) (qLog v) (qBase v)
      s.setTile t { x.setQcfg q c with chead := x.chead.set q.toNat (BitVec.ofNat 16 (qHead v)) q.isLt }
    else if 280 ≤ r ∧ r ≤ 343 then s.setTile t { x with latacc := SMap.set x.latacc (r - 280) v }
    else (s.writeReg t n r v).getD s

/-- CODEST.reg takes effect (R484): a tile-wide register is written once in each tile; a register of a strand is written only while the
context is held (R268). -/
def State.storeReg (s : State) (tiles : List Nat) (r strands : Nat) (v : Word) : State :=
  tiles.foldl (fun (u : State) t =>
    if 256 ≤ r then u.forceReg t 0 r v
    else if !u.clusterHeld (clusterOf t) then u
    else (strandIx.filter (fun n => bitAt strands n.toNat)).foldl (fun (w : State) n => w.forceReg t n r v) u) s

/-- A thread runs, or an instance is pending, on a handle of module m (R484). -/
def State.handleBusy (s : State) (m h : Nat) : Bool :=
  s.insts.any (fun i => i.handle == h && (i.ranks.contains m && (i.toStart.contains m && i.st == .running))) ||
    (s.mod m).threads.any (fun t => (t.2.st == .running || t.2.st == .waiting) && s.insts.any (fun i => i.id == t.2.inst && i.handle == h)) ||
    s.ctxs.any (fun e => e.2.reqs.any (fun r => cdHandle r.2.desc == h && modOf r.2.tile == m))

/-- A thread runs, or an instance is pending, on program-store slots lo to lo + n - 1 of module m (R484). -/
def State.slotsBusy (s : State) (m lo n : Nat) : Bool :=
  (s.mod m).threads.any (fun t => (t.2.st == .running || t.2.st == .waiting) && overlaps (t.2.base, t.2.len) (lo, n)) ||
    (s.mod m).ptab.any (fun e => s.handleBusy m e.1 && bitAt e.2.w0.toNat 63 &&
      overlaps (bitsOf e.2.w0.toNat 16 0, bitsOf e.2.w1.toNat 17 0) (lo, n))

/-- CODEST.chunk takes effect (R387, R484). -/
def State.storeChunk (s : State) (m first : Nat) (l : List Byte) : State :=
  let words := chunksOf 8 (l.length / 8) l
  s.setMod m { s.mod m with store := (span 0 words.length).foldl (fun st i =>
    SMap.set st (first + i) (BitVec.ofNat 64 (ofBytes (words.getD i [])))) (s.mod m).store }

/-- The entry of a CODEST.ptab block, its reserved bits zero (R388). -/
def ptabEntry (args : List Byte) : PtabEntry :=
  let w0 := ofBytes (args.take 8)
  let w1 := ofBytes ((args.drop 8).take 8)
  { w0 := BitVec.ofNat 64 (w0 / 2 ^ 63 * 2 ^ 63 + bitsOf w0 55 48 * 2 ^ 48 + bitsOf w0 39 23 * 2 ^ 23 + bitsOf w0 16 0)
    w1 := BitVec.ofNat 64 (bitsOf w1 39 32 * 2 ^ 32 + bitsOf w1 17 0) }

/-- CODEST.ptab refuses the entry with RANGE (R388). -/
def badPtab (args : List Byte) : Bool :=
  let e := ptabEntry args
  let len := bitsOf e.w1.toNat 17 0
  let owner := bitsOf e.w1.toNat 39 32
  bitAt e.w0.toNat 63 && (bitsOf e.w0.toNat 55 48 == 0 || len == 0 || decide (131072 < len) || decide (131072 < bitsOf e.w0.toNat 16 0 + len) ||
    (decide (64 ≤ owner) && decide (owner ≤ 254)))

/-! ### START -/

/-- The clusters of a context, lost ones left out. -/
def State.ctxClusters (s : State) (c : Nat) : List Nat :=
  (s.clusters.filter (fun e => e.2.ctx == some c && !e.2.quar)).map (fun e => e.1)

/-- A node of a tree that is about to open superstep num. -/
def treeNode (id : NodeId) (parent : Option NodeId) (kids : List NodeId) (num : Nat) : TreeNode :=
  { id := id, parent := parent, kids := kids, arrived := [], forwarded := false, leaving := [], num := num }

/-- The tree over some clusters (R299): its root, the lowest node whose subtree holds them all, and its nodes. R299 gives the cross-module
nodes and levels no shape: DESIGN CHOICE, one cross-module node stands over all modules of the partition (log entry 57). -/
def buildTree (ks : List Nat) (num : Nat) : NodeId × List TreeNode :=
  let dies := (ks.map (fun k => k / 1024)).eraseDups
  let mods := (ks.map (fun k => k / 16384)).eraseDups
  let leafs := fun (parent : Nat → Option NodeId) =>
    ks.map (fun k => treeNode (.cluster k) (parent k) ((tilesOf k).map .tile) num)
  let dieNodes := fun (parent : Nat → Option NodeId) =>
    dies.map (fun d => treeNode (.die d) (parent d) ((ks.filter (fun k => k / 1024 == d)).map .cluster) num)
  let modNodes := fun (parent : Option NodeId) =>
    mods.map (fun m => treeNode (.module m) parent ((dies.filter (fun d => d / 16 == m)).map .die) num)
  match ks, dies, mods with
  | [k], _, _ => (.cluster k, leafs (fun _ => none))
  | _, [d], _ => (.die d, leafs (fun k => some (.die (k / 1024))) ++ dieNodes (fun _ => none))
  | _, _, [m] => (.module m, leafs (fun k => some (.die (k / 1024))) ++ dieNodes (fun d => some (.module (d / 16))) ++ modNodes none)
  | _, _, _ =>
    (.cross, leafs (fun k => some (.die (k / 1024))) ++ dieNodes (fun d => some (.module (d / 16))) ++ modNodes (some .cross) ++
      [treeNode .cross none (mods.map .module) num])

/-- The deadline table of the launch, from bytes 96 to 123 of its request (R268, R491); without a request, the reset values. -/
def Ctx.launchDts (c : Ctx) : Vector (BitVec 32) 7 :=
  if c.launch = [] then #v[0, 0, 0, 0, 0, 0, 0x100000]
  else Vector.ofFn (fun i => BitVec.ofNat 32 (ofBytes ((c.launch.drop (96 + 4 * i.val)).take 4)))

/-- Strand n of virtual tile v with the schedule table of the launch record (R271, R456): that of the launch request, or as START found it
where no request made the context. -/
def Ctx.schedule (c : Ctx) (v : Nat) (n : BitVec 2) (r : Strand) : Strand :=
  if c.launch = [] then
    match SMap.find c.startTiles v with
    | some x => { r with schcBase := (x.strand n).schcBase, schcLen := (x.strand n).schcLen }
    | none => r
  else { r with schcBase := BitVec.ofNat 14 (ofBytes ((c.launch.drop 160).take 2)),
                schcLen := BitVec.ofNat 11 (ofBytes ((c.launch.drop 162).take 2)) }

/-- The egress queue of the context in module m stands below its low-water mark (R225). -/
def Ctx.egressLow (c : Ctx) (m : Nat) : Bool := decide (SMap.get 0 c.egress m < c.lowWater.toNat * 1024)

/-- A tile at START (R226, R268, R271): each strand begins at the entry that its schedule table names; low tells RAISED (R225). -/
def Tile.start (x : Tile) (c : Ctx) (low : Bool) : Tile :=
  let begin_ := fun (n : BitVec 2) =>
    let y := c.schedule x.vtid.toNat n (x.strand n)
    ({ y with age := 0, raised := low }).fresh [] c.launchDts 0 (BitVec.ofNat 16 (x.lm (16 * y.schcBase.toNat) 2)) .run (Vector.replicate 16 {}) 0
  let st := #v[begin_ 0, begin_ 1, begin_ 2, begin_ 3]
  { x with lastScalar := 3, lastVector := 3, strands := st, num := 1, att := 0, iseq := 0, bar := .opened, vote := 0, code := 0, lost := false, hold := false, irv := false,
           aflags := 0, cb := Vector.replicate 4 0, ta := 0, tb := 0, mmaq := [], locks := [], eng := [], landed := [], sbuf := [],
           pre := [], accPre := [], loose := [], inbox := [], posts := Vector.replicate 4 [], overflow := Vector.replicate 4 [],
           refusedQ := [], refusedN := Vector.replicate 4 0, donePart := 0, capture := none,
           chead := x.qcfg.map (fun q => BitVec.ofNat 16 (qHead q)), snap := st.map Strand.snapshot, snapRega0 := x.rega0,
           snapRega1 := x.rega1 }

/-- What the supervisor keeps of the launch of a context that no launch request made (R464): its tiles and its code as they stand. -/
def State.keepStart (s : State) (c : Nat) : State :=
  let x := s.ctx c
  if x.launch ≠ [] then s
  else
    let vs := span 0 (x.tiles / 16)
    s.setCtx c { x with
      startTiles := (s.ctxTiles c).foldl (fun m t => SMap.set m (s.tile t).vtid.toNat (s.tile t)) []
      startCode := vs.foldl (fun m v => match SMap.find x.tmap v with
        | some k => SMap.set m v ((s.cluster k).store, (s.cluster k).clim)
        | none => m) [] }

/-- START.launch takes effect (R268, R485). -/
def State.startLaunchCtx (s : State) (c : Nat) : State :=
  let s := s.keepStart c
  let ks := s.ctxClusters c
  let x := s.ctx c
  let t := buildTree ks 1
  let s := s.setCtx c { x with started := true, resident := true, running := true, held := false, fatal := false, lull := false, done := false,
                               clock := 0, num := 1, att := 0, nodes := t.2, top := t.1, decided := none, left := [], nodeVote := none,
                               durable := 0, durSlot := 1, ckPending := none, ckReady := none, limit := none, retried := false, irrev := false,
                               downAt := none, badLink := none, cut := [], netCut := [], egress := [], ranOn := 0 }
  let s := ks.foldl (fun (u : State) k => u.setCluster k { u.cluster k with started := true }) s
  (s.ctxTiles c).foldl (fun (u : State) t => u.setTile t ((u.tile t).start (u.ctx c) ((u.ctx c).egressLow (modOf t)))) s

/-- The locks of a next fetch issued again (R457). -/
def EngOp.relock (e : EngOp) : List Lock :=
  let l := fun (lo len : Nat) (kind : LockKind) (use : LockUse) =>
    ({ lo := lo, len := len, kind := kind, use := use, strand := e.strand, tok := e.tok } : Lock)
  [l (fdList e.desc) (16 * fdNent e.desc) .read .list, l (fetchSpan e.desc).1 (fetchSpan e.desc).2 (if e.tag then .tag else .write) .span]

/-- A next fetch that Lull cancels, to be issued again (R448 step 2, R457 step 4). -/
def EngOp.rewind (e : EngOp) : EngOp :=
  { e with ents := [], j := 0, line := 0, xlated := false, moved := false, again := [], closed := true, lines := [] }

/-- A next fetch issued again reads the entries of its list, and unlocks it, before the resume form of START (R457 step 4, R472); an
uncorrectable error there ends it (R379). -/
def State.readList (s : State) (t : Nat) (e : EngOp) : State :=
  match s.engineReads t (linesOf (fdList e.desc) (16 * fdNent e.desc)) with
  | (s, some k) => s.endEng t e cSRAM 0 (BitVec.ofNat 64 (64 * k))
  | (s, none) =>
    let x := s.tile t
    let y := { x with eng := x.eng.map (fun (f : EngOp) => if f.strand = e.strand ∧ f.tok = e.tok then { f with ents := x.entriesOf f } else f) }
    s.setTile t (y.unlock e.strand e.tok [.list])

/-- The lists of the tile's next fetches are read. -/
def State.readLists (s : State) (t : Nat) : State :=
  ((s.tile t).eng.filter (fun e => e.next && decide (e.ents.length < fdNent e.desc))).foldl (fun u e => u.readList t e) s

/-- The state of the strand, or while it is halted the state it held before (R506). -/
def Strand.underHalt (r : Strand) : StrandSt := if r.st = .halt then r.before.getD .run else r.st

/-- The strand enters a state, under a halt the one it returns to (R34, R506). -/
def Strand.enter (r : Strand) (q : StrandSt) : Strand := if r.st = .halt then { r with before := some q } else { r with st := q }

/-- A tile resumes (R226, R457 step 5), with no record of an attempt that it has left (R265): the next fetches that Lull has cancelled and that have no locks yet take them again; with go its
strands run at SEN, but for those whose image records RETIRED. -/
def Tile.resume (x : Tile) (go low : Bool) : Tile :=
  let wake := fun (z : Strand) =>
    let r : Strand := { z with age := 0, raised := low, restored := none }
    let atSen : Strand := { r with pc := r.sen, park := none }
    match z.restored with
    | some q => atSen.enter (if q = .run ∧ !go then .park else q)
    | none => if r.underHalt = .park ∧ go then atSen.enter .run else r
  let posts := x.posts.map (fun l => l.filter (fun r => !r.stale x))
  let unlocked := fun (e : EngOp) => e.next && !x.locks.any (fun l => l.use == .span && l.strand == e.strand && l.tok == e.tok)
  { x with strands := x.strands.map wake, posts := posts, locks := x.locks ++ (x.eng.filter unlocked).flatMap EngOp.relock, lastScalar := 3, lastVector := 3,
           bar := .opened, vote := 0, code := 0, lost := false, hold := false }

/-- The transfers of the context's threads that were parked start their waits afresh (R416). -/
def State.unparkTransfers (s : State) (c : Nat) : State :=
  let mine := (s.insts.filter (fun i => i.ctx == c)).map (fun i => i.id)
  { s with mods := s.mods.map (fun e => (e.1, { e.2 with threads := e.2.threads.map (fun t =>
      let z := t.2
      let xfer := match decodeChunk z.ir with | .ok i => isXfer i | .error _ => false
      (t.1, if mine.contains z.inst ∧ z.st = .waiting ∧ xfer = true then { z with st := .running, wait := none, left := [] } else z)) })) }

/-- A PREEMPT of the host that is still to be answered stands at the root again, once the hold that it brought has been spent on a restore, a
migration or a resume (R444, R446). -/
def State.renewPreempt (s : State) (c : Nat) : State :=
  let x := s.ctx c
  if x.preBox.isSome ∧ x.preempt.isNone then s.setCtx c { x with preempt := some (x.clock + BitVec.ofNat 48 x.plim) } else s

/-- START.resume takes effect (R457, R458, R485): the status is SSN_MISMATCH when a tile's number is not the block's, and then
the root decides FATAL before any strand issues; so does a demand that stood while the context was held (R538). -/
def State.resumeCtx (s : State) (c num : Nat) : State × Nat :=
  let tiles := s.ctxTiles c
  let stale := tiles.any (fun t => (s.tile t).num != num)
  let x := s.ctx c
  let att := match tiles with | t :: _ => (s.tile t).att | [] => x.att
  let tree := buildTree (s.ctxClusters c) num
  let fatal := stale || (match x.demand with | some (.fatal _ _) => true | _ => false)
  let s := s.setCtx c { x with held := false, lull := false, resident := true, started := true, running := !fatal, num := num, att := att,
                               limit := none, ranOn := 0, queued := false,
                               nodes := tree.2, top := tree.1, decided := none, left := [], nodeVote := none }
  let s := (s.ctxClusters c).foldl (fun (u : State) k => u.setCluster k { u.cluster k with started := true }) s
  let s := tiles.foldl (fun (u : State) t => u.setTile t ((u.tile t).resume (!fatal) ((u.ctx c).egressLow (modOf t)))) s
  let s := tiles.foldl State.readLists s
  let s := s.setCtx c { s.ctx c with done := s.allRetired c }
  let s := s.unparkTransfers c
  if stale then (s.ssnMismatch c, 0x13)
  else
    let s := (s.renewPreempt c).demandNow c
    (if (s.ctx c).decided.isSome then s else (s.ctxTiles c).foldl State.formArrival s, 0)

/-- START.strand takes effect (R487). -/
def State.resumeStrand (s : State) (t : Nat) (n : BitVec 2) (addr : Nat) (atTpc results : Bool) (l : List Byte) : State :=
  let r := s.strand t n
  let r := if results then { r with s := (span 0 8).foldl (fun v i =>
      setAt v (16 + i) (BitVec.ofNat 64 (ofBytes ((l.drop (64 + 8 * i)).take 8)))) r.s } else r
  let r := { r with th := false, st := .run, wait := none, stall := none }
  match r.park with
  | none =>
    let pc := if atTpc then r.tpc else BitVec.ofNat 16 addr
    s.setStrand t n { r with pc := pc &&& 0xFFFC, badEntry := if pc.toNat % 4 = 0 then none else some (pc.setWidth 64) }
  | some p =>
    let r := { r with park := none, wst := 7, wtoAddr := 0, wtoCount := 0 }
    let u : State := { s.setStrand t n r with curTile := t, curStrand := n }
    let goOn := fun (pc : Nat) (q : Vector Word 4 × Landing) => match q.2 with
      | .at a => if a = 0x10000 then u.takeTrap cFETCH 0 0x10000 pc false else (u.setMe { u.me with lstk := q.1 }).arriveAt a
      | .exam => State.examine 5 ((u.setMe { u.me with lstk := q.1 }).arriveAt pc) none
    let v := match p.unit, p.fin with
      | some (pc, next), _ => (goOn pc.toNat (completeLoops pc.toNat next r.lstk)).afterRetire
      | none, some f => goOn r.pc.toNat (backEdges f.toNat 5 r.lstk (f.toNat + 4))
      | none, none => u
    { v with curTile := s.curTile, curStrand := s.curStrand }

/-! ### QUIESCE and Lull -/

/-- Every strand not yet in PARK or RETIRED enters PARK; the strands of a context not started stay IDLE (R437, R484). mine
names the tiles. -/
def State.parkTiles (s : State) (c : Nat) (mine : Nat → Bool) : State :=
  ((s.ctxTiles c).filter mine).foldl (fun (u : State) t =>
    u.setTile t { u.tile t with strands := (u.tile t).strands.map (fun r =>
      if r.st = .park ∨ r.st = .retired ∨ (r.st = .idle ∧ !(s.ctx c).started) then r else { r with st := .park, wait := none, stall := none, arrival := none }) }) s

/-- Every tile of the context is parked (R466 step 1, R484). -/
def State.parkAll (s : State) (c : Nat) : State := s.parkTiles c (fun _ => true)

/-- A message in flight that concerns a context. -/
def State.concerns (s : State) (c : Nat) (g : Msg) : Bool :=
  match g with
  | .delta d => d.ctx == c && !isMgmt d.srcTile
  | .ack d => d.ctx == c && !isMgmt d.srcTile
  | .refusal d => d.ctx == c && !isMgmt d.srcTile
  | .arrive d _ _ _ => d == c
  | .withdraw d _ _ _ => d == c
  | .wconf d _ _ _ => d == c
  | .decide d _ _ _ => d == c
  | .baseCommit d _ _ _ => d == c
  | .arrayAck d _ _ _ => d == c
  | .sync _ _ _ => false
  | .post t _ _ => s.ctxOf t == some c
  | .refetch t _ => s.ctxOf t == some c
  | .abortToken _ _ => false
  | .haltRequest _ d => d == c

/-- Every engine class of the context has reached the end of its unit of work, and nothing of it is in flight;
a list entry whose first line has been written is completed first (R449, R450, R470). -/
def State.quiet (s : State) (c : Nat) : Bool :=
  let x := s.ctx c
  s.hasCtx c && !x.runs && x.decided.isNone && x.acksDue == 0 && !s.net.any (s.concerns c) && !s.walks.any (fun w => w.ctx == c) &&
    (s.ctxTiles c).all (fun t =>
      let y := s.tile t
      y.orphans.isEmpty && y.capture.isNone && y.eng.all (fun e => e.line == 0) && y.strands.toList.all (fun r => r.st == .park || r.st == .retired || r.st == .idle))

/-- A tile at Lull's report: the matrix unit is idle, a next fetch is cancelled and keeps its token, any other engine operation has
stopped (R448, R449). -/
def Tile.atLull (x : Tile) : Tile :=
  let y := (x.eng.filter (fun e => !e.next)).foldl (fun (y : Tile) e => y.cancelEng e.strand e.tok) x
  let y := (y.eng.filter (fun e => e.next)).foldl (fun (y : Tile) e => y.unlock e.strand e.tok [.list, .span]) y
  { y with eng := y.eng.map EngOp.rewind, mmaq := [], locks := y.locks.filter (fun l => l.use != .mma) }

/-- Lull reports (R449, R450). -/
def State.reportLull (s : State) (c : Nat) : State :=
  let s := (s.ctxTiles c).foldl (fun (u : State) t => u.setTile t (u.tile t).atLull) s
  s.setCtx c { s.ctx c with lull := true, running := false }

/-! ### Images -/

/-- IMGMV.save takes effect (R451, R454): kind as R452 numbers it. -/
def State.saveImage (s : State) (t kind a : Nat) : State :=
  let s := s.imageReads t (kind == 2)
  let c := (s.ctxOf t).getD 0
  (s.writeImage t kind (s.ctx c).durable (physModule a) (physOffset a)).writeOverflow t

/-- The token and the operation that a carry-over record names come back to the tile (R455, R457 steps 3 and 4). -/
def Tile.carryOver (x : Tile) (l : List Byte) : Tile :=
  let f := fun (o n : Nat) => ofBytes ((l.drop o).take n)
  let n := BitVec.ofNat 2 (f 1 1)
  let k := BitVec.ofNat 4 (f 2 1)
  let d : Desc := BitVec.ofNat 256 (f 32 32)
  let step := f 8 8
  let take := fun (y : Tile) (use : TokUse) => y.setStrand n ((y.strand n).setTok k { st := .pending, use := use, step := step })
  match f 0 1 with
  | 1 =>
    let e : EngOp := { kind := .fetchl, next := true, tag := bitAt (f 3 1) 0, glob := true, desc := d, strand := n, tok := k, step := step,
                       seq := 0, ents := [], j := 0, line := 0, xlated := false, out := 0, moved := false, again := [], closed := true }
    take { x with eng := x.eng ++ [e], locks := x.locks ++ e.relock } .fetchNext
  | 2 =>
    let p : BitVec 1024 := BitVec.ofNat 1024 (f 64 128)
    let lock := fun (kind : LockKind) (r : Nat × Nat) => ({ lo := r.1, len := r.2, kind := kind, use := .coll, strand := n, tok := k } : Lock)
    take { x with locks := x.locks ++ ((conRanges d p).map rangeOf).map (lock .read) ++ ((landRanges d p).map rangeOf).map (lock .write) } .coll
  | _ => x

/-- The tile whose image lies at base of a memory, its overflow lists given (R457 step 2). -/
def Tile.fromImage (x : Tile) (mem : Memory) (base free : Nat) (overflow : Vector (List (List Byte)) 4) : Tile :=
  let y := { x.ofImage mem base free with overflow := overflow }
  let y := (span 0 64).foldl (fun (y : Tile) i => y.carryOver (Memory.bytes mem (base + 0x1000 + 256 * i) 256)) y
  { y with snap := y.strands.map Strand.snapshot }

/-- IMGMV.restore takes effect (R457 step 2): the clock of the context takes the image's value. -/
def State.restoreImage (s : State) (t a : Nat) : State :=
  let c := (s.ctxOf t).getD 0
  let mem := (s.mod (physModule a)).mem
  let base := physOffset a
  let area := (s.ctx c).spillAt (Memory.num mem (base + 4) 4)
  let list := fun (q : Nat) =>
    let o := base + 0x500 + 48 + 16 * q
    splitRecords (Memory.num mem (o + 8) 4)
      (Memory.bytes (s.mod (physModule area)).mem (physOffset area + Memory.num mem o 4) (Memory.num mem (o + 4) 4))
  let u := { s.setTile t ((s.tile t).fromImage mem base s.free (Vector.ofFn (fun i => list i.val))) with free := s.free + 262144 }
  u.setCtx c { u.ctx c with clock := BitVec.ofNat 48 (Memory.num mem (base + 16) 6) }

/-- IMGMV.move takes effect (R460): no image is written to memory. -/
def State.moveImage (s : State) (t dst : Nat) : State :=
  let s := s.imageReads t false
  let m := modOf t
  let base := 2 ^ 50
  let mem := ((s.writeImage t 0 0 m base).mod m).mem
  { s.setTile dst ((s.tile dst).fromImage mem base s.free (s.tile t).overflow) with free := s.free + 262144 }

/-- The first uncorrectable error in what an image of the tile holds. -/
def Tile.imageBad (x : Tile) : Option ErrAt :=
  (x.errs.find? (fun e => e.hard && x.inImage false e.loc)).map (fun e => e.loc)

/-! ### Scrubs -/

/-- A tile in the state of R20. The error counts, the latency accounts and the debug registers belong to the physical tile and stay (R438,
R456). -/
def Tile.wiped (x : Tile) : Tile :=
  { ({ } : Tile) with ewin := x.ewin, ethr := x.ethr, ecnt := x.ecnt, winAt := x.winAt, latacc := x.latacc, dbg := x.dbg }

/-- A cluster in the state of R20, with a zero store and CLIM 0, and no owner (R497). -/
def State.wipeCluster (s : State) (k : Nat) : State :=
  let s := (tilesOf k).foldl (fun (u : State) t => u.setTile t (u.tile t).wiped) s
  s.setCluster k { s.cluster k with store := [], clim := 0, owner := 0, elect := 0, errs := [], tcache := [], vci := none, started := false }

/-- The addresses of the data block that a stack keeps in a stripe row, or of all seven blocks of the stripe whose parity it keeps there
(R322). -/
def blocksAt (k row : Nat) : List Nat :=
  let base := k / 8 * quadrantSize + row * 7 * 256
  let p := row % 8
  if k % 8 = p then (span 0 7).map (fun j => base + 256 * j) else [base + 256 * (if k % 8 < p then k % 8 else k % 8 - 1)]

/-- Pages of a module are written zero with their parity, lose their poison marks, and can be read again (R497). -/
def State.wipePages (s : State) (m page pages : Nat) : State :=
  let lo := 65536 * page
  let n := 65536 * pages
  let md := s.mod m
  let clean := fun (l : List Nat) => l.filter (fun k => !(decide (lo ≤ 64 * k) && decide (64 * k < lo + n)))
  let rewritten := fun (k row : Nat) => (blocksAt k row).all (fun a => decide (lo ≤ a) && decide (a < lo + n))
  s.setMod m { md with mem := Memory.clear md.mem lo n, registry := clean md.registry, stk := md.stk.map (fun (e : Nat × Stack) =>
    (e.1, { e.2 with poison := clean e.2.poison, bad := e.2.bad.filter (fun row => !rewritten e.1 row), full := e.2.full && decide ((clean e.2.poison).length = e.2.poison.length) })) }

/-- A scrub begins: its resources are quarantined and it is listed (R497, R498). -/
def State.beginScrub (s : State) (m : Nat) (o : ScrubOp) : State :=
  let s := match o.cluster with | some k => s.setCluster k { s.cluster k with quar := true } | none => s
  s.setMod m { s.mod m with scrubs := (s.mod m).scrubs ++ [o] }

/-- A scrub of module m has done its work, and the quarantine of what it covers is lifted (R497), but for a cluster that is lost (R499); a cluster that had passed its self-test is released (R524, log entry 15). -/
def State.endScrub (s : State) (m i : Nat) : State :=
  match (s.mod m).scrubs[i]? with
  | none => s
  | some o =>
    let s := s.setMod m { s.mod m with scrubs := listDel (s.mod m).scrubs i }
    match o.cluster with
    | some k =>
      let u := s.wipeCluster k
      let x := u.cluster k
      let tested := ((u.mod (modOfCluster k)).island (islandOf k)).tested
      u.setCluster k { x with quar := x.lost, released := x.released || (tested && !x.failed && !x.lost) }
    | none => s.wipePages m o.page o.pages

/-- Page p of a scrub of module m is zeroed and its quarantine lifted, while others of the operation remain (R497). -/
def State.scrubPage (s : State) (m i p : Nat) : State :=
  match (s.mod m).scrubs[i]? with
  | none => s
  | some o =>
    if o.cluster.isSome ∨ p < o.page ∨ o.page + o.pages ≤ p ∨ o.done.contains p then s
    else (s.setMod m { s.mod m with scrubs := listSet (s.mod m).scrubs i { o with done := o.done ++ [p] } }).wipePages m p 1

/-- The scrub with the resources of an operation is still in progress. -/
def State.scrubbing (s : State) (cluster : Option Nat) (m page pages : Nat) : Bool :=
  (s.mod m).scrubs.any (fun o => o.cluster == cluster && o.page == page && o.pages == pages)

/-! ### Dumps -/

/-- The physical address of a module's 4 GiB dump region (R522, log entry 13): it lies within the module's memory. -/
def dumpBase (m : Nat) : Nat := 2 ^ 48 * m + min (Config.dumpOffset m) (memTop - 2 ^ 32)

/-- A dump section (R522): its kind, subject and body as the cells of a memory from address 0, with the body's length; the
status is 2 for a header alone, 1 when the limit cuts it. -/
def State.writeDump (s : State) (kind subject dst limit : Nat) (body : Memory) (len : Nat) (header : Bool) : State :=
  let m := physModule dst
  let whole := if header then 64 else 64 + len
  let n := min whole limit
  let status := if header then 2 else if limit < whole then 1 else 0
  let entry := toBytes 8 (dst - dumpBase m) ++ toBytes 4 n ++ [BitVec.ofNat 8 kind, BitVec.ofNat 8 subject] ++ toBytes 2 status
  let section_ := Memory.writeBytes [] 0 entry ++ (if header then [] else body.map (fun c => (c.1 + 64, c.2)))
  s.setMod m { s.mod m with mem := Memory.blit (s.mod m).mem (physOffset dst) n section_ }

/-- The body of a log section. -/
def logBody (l : List (BitVec 256)) : List Byte := l.flatMap (fun e => toBytes 32 e.toNat)

/-- The error log of die d of module m, 16 for Axlos (R522). -/
def State.logOf (s : State) (m d : Nat) : List (BitVec 256) := if d = 16 then (s.mod m).log else (s.die (16 * m + d)).log

/-- The body of a ctx section: one image of each virtual tile, as it stands (R522). -/
def State.ctxBody (s : State) (c : Nat) : Memory :=
  let base := 2 ^ 50
  let x := s.ctx c
  let u := (span 0 x.tiles).foldl (fun (u : State) v =>
    match x.tileOf v with
    | some t => u.writeImage t 2 x.durable x.home (base + imageSize * v)
    | none => u) s
  Memory.slice (u.mod x.home).mem base (imageSize * x.tiles)

/-- The body of a trace section (R522): the records oldest first, absent ones zero. -/
def Die.traceBody (d : Die) : List Byte :=
  toBytes 8 d.itctl.toNat ++ toBytes 8 d.ittrig.toNat ++ toBytes 8 d.itpos.toNat ++ d.itrecs.flatMap (fun r => toBytes 128 r.toNat)

/-! ### Acceptance -/

/-- A field of a block: n bytes from o. -/
def blockNum (l : List Byte) (o n : Nat) : Nat := ofBytes ((l.drop o).take n)

/-- Every byte of the block from lo up to hi is zero. -/
def zeroBytes (l : List Byte) (lo hi : Nat) : Bool := ((l.drop lo).take (hi - lo)).all (fun b => b == 0)

/-- The cluster of module m that a physical cluster number names (R484), and whether it exists. -/
def clusterNo (m a : Nat) : Nat := 16384 * m + a
def clusterExists (a : Nat) : Bool := ptidExists (16 * a)

/-- The tile of module m that a PTID names. -/
def tileNo (m p : Nat) : Nat := 262144 * m + p

/-- The first code whose condition is met; the list rises in its codes (R482, R483). -/
def firstCode : List (Nat × Bool) → Nat
  | [] => 0
  | (c, b) :: r => if b then c else firstCode r

/-- LAUNCH (R484). -/
def State.refuseLaunch (s : State) (a : Nat) (l : List Byte) : Nat :=
  firstCode [(4, a != 0 || badLaunchBlock l), (6, s.freeCtx.isNone)]

/-- BIND.bind (R484, R499). -/
def State.refuseBind (s : State) (m a : Nat) (l : List Byte) : Nat :=
  let x := s.cluster (clusterNo m a)
  let c := blockNum l 0 1
  firstCode [(1, x.ctx.isSome || x.lost), (2, s.hasCtx c && x.owner != 0 && x.owner != (s.ctx c).owner), (3, x.quar || x.failed || !x.released),
    (4, !clusterExists a || !zeroBytes l 1 64), (5, !s.hasCtx c), (7, x.fenced)]

/-- BIND.unbind (R484, R499). -/
def State.refuseUnbind (s : State) (m a : Nat) : Nat :=
  firstCode [(4, !clusterExists a), (8, !(s.cluster (clusterNo m a)).lost && !s.clusterStill (clusterNo m a))]

/-- BIND.fence and BIND.unfence (R484, R499). -/
def State.refuseFence (s : State) (m a : Nat) (undo : Bool) : Nat :=
  firstCode [(1, undo && (s.cluster (clusterNo m a)).lost), (4, !clusterExists a)]

/-- TMAP.map (R484, R499). -/
def State.refuseMap (s : State) (m a : Nat) (l : List Byte) : Nat :=
  let p := blockNum l 4 2
  let x := s.cluster (clusterNo m p)
  firstCode [(1, x.lost), (2, x.ctx != some a), (4, !clusterExists p || decide ((s.ctx a).tiles ≤ 16 * blockNum l 0 4) || !zeroBytes l 6 64),
    (5, !s.hasCtx a), (8, (s.ctx a).runs)]

/-- TMAP.inval (R484). -/
def State.refuseInval (s : State) (a : Nat) (l : List Byte) : Nat :=
  firstCode [(4, decide (1 < blockNum l 8 1) || !zeroBytes l 9 64), (5, !s.hasCtx a)]

/-- TMAP.group (R293, R484). -/
def State.refuseGroup (s : State) (a : Nat) (l : List Byte) : Nat :=
  let n := blockNum l 16 4
  let bad := !zeroBytes l 1 8 || !zeroBytes l 20 64 || decide ((s.ctx a).tiles < n) || !physSpanOk (blockNum l 8 8) ((n + 7) / 8) ||
    (s.ctx a).groupsFull (blockNum l 0 1) (bitmapMembers (s.groupBitmap l).2.1 n)
  firstCode [(4, bad), (5, !s.hasCtx a)]

/-- CODEST.code (R255, R484). -/
def State.refuseCode (s : State) (m a : Nat) (l : List Byte) : Nat :=
  let k := clusterNo m a
  let n := blockNum l 8 4
  firstCode [(1, (s.cluster k).lost || !s.allIdle k),
    (4, !clusterExists a || n % 4 != 0 || decide (65536 < n) || !physSpanOk (blockNum l 0 8) n || !zeroBytes l 12 64)]

/-- CODEST.local (R484). -/
def State.refuseLocal (s : State) (m a : Nat) (l : List Byte) : Nat :=
  let k := clusterNo m a
  let n := blockNum l 8 4
  firstCode [(1, (s.cluster k).lost || !(s.allIdle k || s.clusterHeld k)),
    (4, !clusterExists a || decide (2 ^ 18 < blockNum l 12 4 + n) || !physSpanOk (blockNum l 0 8) n || !zeroBytes l 18 64)]

/-- CODEST.reg (R484). -/
def State.refuseReg (s : State) (m a : Nat) (l : List Byte) : Nat :=
  let k := clusterNo m a
  let r := blockNum l 0 2
  let exempt := decide (270 ≤ r) && decide (r ≤ 272)
  firstCode [(1, (s.cluster k).lost || !(exempt || s.allIdle k || s.clusterHeld k)),
    (4, !clusterExists a || r == 23 || !assignedReg r || decide (15 < blockNum l 4 1) || !zeroBytes l 5 8 || !zeroBytes l 16 64)]

/-- CODEST.chunk (R387, R484). -/
def State.refuseChunk (s : State) (m a : Nat) (l : List Byte) : Nat :=
  let n := blockNum l 8 4
  firstCode [(1, s.slotsBusy m a (n / 8)),
    (4, n % 8 != 0 || decide (131072 < a + n / 8) || !physSpanOk (blockNum l 0 8) n || !zeroBytes l 12 64)]

/-- CODEST.ptab (R388, R484); the reserved bits of an entry are not written. -/
def State.refusePtab (s : State) (m a : Nat) (l : List Byte) : Nat :=
  firstCode [(1, s.handleBusy m a),
    (4, decide (1024 ≤ a) || badPtab l || !zeroBytes l 16 64)]

/-- START.launch (R484). -/
def State.refuseStart (s : State) (a : Nat) : Nat :=
  firstCode [(4, (span 0 ((s.ctx a).tiles / 16)).any (fun v => (s.mappedTo a v).isNone)), (5, !s.hasCtx a), (8, (s.ctx a).started)]

/-- START.resume (R484). -/
def State.refuseResume (s : State) (a : Nat) (l : List Byte) : Nat :=
  firstCode [(4, !zeroBytes l 8 64), (5, !s.hasCtx a), (8, !(s.ctx a).held)]

/-- START.strand (R484, R487, R499). -/
def State.refuseStrand (s : State) (m a : Nat) (l : List Byte) : Nat :=
  let t := tileNo m a
  let st := (s.strand t (BitVec.ofNat 2 (blockNum l 2 1))).st
  firstCode [(1, (s.cluster (clusterOf t)).lost || st != .park),
    (4, !ptidExists a || decide (3 < blockNum l 2 1) || decide (3 < blockNum l 3 1) || !zeroBytes l 4 64), (8, s.clusterHeld (clusterOf t))]

/-- QUIESCE.request and QUIESCE.ckpt (R484). -/
def State.refuseQuiesce (s : State) (a : Nat) : Nat := firstCode [(5, !s.hasCtx a), (8, (s.ctx a).held)]

/-- QUIESCE.cancel and KEYZ (R484). -/
def State.refuseNoCtx (s : State) (a : Nat) : Nat := firstCode [(5, !s.hasCtx a)]

/-- QUIESCE.park (R484). -/
def State.refusePark (s : State) (a : Nat) : Nat := firstCode [(5, !s.hasCtx a), (8, (s.ctx a).runs)]

/-- The context of a tile is held and Lull has reported (R484). -/
def State.imageReady (s : State) (t : Nat) : Bool := match s.ctxOf t with | some c => (s.ctx c).held && (s.ctx c).lull | none => false

/-- IMGMV.save (R484, R499). -/
def State.refuseSave (s : State) (m a : Nat) (l : List Byte) : Nat :=
  let t := tileNo m a
  firstCode [(1, (s.cluster (clusterOf t)).lost),
    (4, !ptidExists a || decide (2 < blockNum l 8 1) || !physSpanOk (blockNum l 0 8) imageSize || !zeroBytes l 9 64), (8, !s.imageReady t)]

/-- IMGMV.restore (R484, R499). -/
def State.refuseRestore (s : State) (m a : Nat) (l : List Byte) : Nat :=
  let t := tileNo m a
  firstCode [(1, (s.cluster (clusterOf t)).lost),
    (4, !ptidExists a || !physSpanOk (blockNum l 0 8) imageSize || !zeroBytes l 8 64), (8, !s.imageReady t)]

/-- IMGMV.move (R484, R499). -/
def State.refuseMove (s : State) (m a : Nat) (l : List Byte) : Nat :=
  let t := tileNo m a
  let p := blockNum l 0 4
  let d := clusterOf (tileNo m p)
  firstCode [(1, (s.cluster (clusterOf t)).lost || (s.cluster d).lost), (2, (s.cluster d).ctx.isNone || s.ctxOf t != (s.cluster d).ctx),
    (4, !ptidExists a || !ptidExists p || !zeroBytes l 4 64), (8, !s.imageReady t)]

/-- KEYLD (R484). -/
def State.refuseKeyld (s : State) (m a : Nat) (l : List Byte) : Nat :=
  let n := blockNum l 0 1
  let other := match SMap.find (s.mod m).keys n with | some k => k.ctx != a | none => false
  firstCode [(2, other), (4, n == 0 || decide (63 < n) || !zeroBytes l 1 64), (5, !s.hasCtx a), (8, (s.ctx a).runs)]

/-- SCRUB.cluster (R484, R499). -/
def State.refuseScrub (s : State) (m a : Nat) : Nat :=
  let k := clusterNo m a
  firstCode [(1, (s.cluster k).lost || (s.cluster k).ctx.isSome || !s.allIdle k), (4, !clusterExists a)]

/-- SCRUB.pages (R484): the run lies in the usable memory. -/
def State.refusePages (a : Nat) (l : List Byte) : Nat :=
  firstCode [(4, a % 65536 != 0 || !physSpanOk a (65536 * blockNum l 0 4) || !zeroBytes l 4 64)]

/-- FORCEAB (R484). -/
def State.refuseForce (s : State) (a : Nat) : Nat := firstCode [(5, !s.hasCtx a), (8, (s.ctx a).held || !(s.ctx a).started)]

/-- The destination and the limit of a DUMP lie outside the dump region (R484, R522). -/
def badDump (l : List Byte) : Bool :=
  let dst := blockNum l 0 8
  let base := dumpBase (physModule dst)
  decide (dst < base) || decide (base + 2 ^ 32 < dst + blockNum l 8 4) || dst / 2 ^ 58 != 0 || !zeroBytes l 12 64

/-- DUMP.log and DUMP.trace (R484). -/
def refuseDump (a : Nat) (l : List Byte) : Nat := firstCode [(4, decide (16 < a) || badDump l)]

/-- DUMP.ctx (R484). -/
def State.refuseDumpCtx (s : State) (a : Nat) (l : List Byte) : Nat := firstCode [(4, badDump l), (5, !s.hasCtx a)]

/-- The refusal code of a supervisor instruction issued in module m, a being s[sa] and l its block; 0 when it is accepted. -/
def State.refusal (s : State) (m : Nat) (i : Instr) (a : Nat) (l : List Byte) : Nat :=
  match i with
  | .launch .. => s.refuseLaunch a l
  | .bindBind .. => s.refuseBind m a l
  | .bindUnbind .. => s.refuseUnbind m a
  | .bindFence .. => s.refuseFence m a false
  | .bindUnfence .. => s.refuseFence m a true
  | .tmapMap .. => s.refuseMap m a l
  | .tmapInval .. => s.refuseInval a l
  | .tmapGroup .. => s.refuseGroup a l
  | .codestCode .. => s.refuseCode m a l
  | .codestLocal .. => s.refuseLocal m a l
  | .codestReg .. => s.refuseReg m a l
  | .codestChunk .. => s.refuseChunk m a l
  | .codestPtab .. => s.refusePtab m a l
  | .startLaunch .. => s.refuseStart a
  | .startResume .. => s.refuseResume a l
  | .startStrand .. => s.refuseStrand m a l
  | .quiesceRequest .. => s.refuseQuiesce a
  | .quiesceCkpt .. => s.refuseQuiesce a
  | .quiesceCancel .. => s.refuseNoCtx a
  | .quiescePark .. => s.refusePark a
  | .imgmvSave .. => s.refuseSave m a l
  | .imgmvRestore .. => s.refuseRestore m a l
  | .imgmvMove .. => s.refuseMove m a l
  | .keyld .. => s.refuseKeyld m a l
  | .keyz .. => s.refuseNoCtx a
  | .scrubCluster .. => s.refuseScrub m a
  | .scrubPages .. => State.refusePages a l
  | .forceab .. => s.refuseForce a
  | .dumpLog .. => refuseDump a l
  | .dumpCtx .. => s.refuseDumpCtx a l
  | .dumpTrace .. => refuseDump a l
  | _ => 4

/-- What an operation acts on, as a number: operations on one target take effect in the order of acceptance (R482). -/
def supTarget (m : Nat) (i : Instr) (a : Nat) : Nat :=
  match i with
  | .bindBind .. | .bindUnbind .. | .bindFence .. | .bindUnfence .. | .codestCode .. | .codestLocal .. | .codestReg .. | .scrubCluster .. =>
    4 * clusterNo m a
  | .startStrand .. | .imgmvSave .. | .imgmvRestore .. | .imgmvMove .. => 4 * tileNo m a + 2
  | .codestPtab .. => 4 * a + 3
  | .codestChunk .. => 4 * (1024 + a) + 3
  | .scrubPages .. => 4 * (2 ^ 20 + a / 65536) + 3
  | .dumpLog .. | .dumpTrace .. => 4 * (2 ^ 50 + a) + 3
  | _ => 4 * a + 1

/-- The number of bytes of the block that an instruction takes (R482, R484). -/
def blockSize (i : Instr) : Nat :=
  match i with
  | .keyld .. | .startStrand .. => 128
  | _ => 64

/-! ### Operations -/

/-- A run of pages or a cluster to be scrubbed. -/
def scrubOf (m : Nat) (i : Instr) (a : Nat) (l : List Byte) : Nat × ScrubOp :=
  match i with
  | .scrubCluster .. => (m, { cluster := some (clusterNo m a), page := 0, pages := 0 })
  | _ => (physModule a, { cluster := none, page := physOffset a / 65536, pages := blockNum l 0 4 })

/-- What an operation that works for a while does as it begins: a scrub (R497), a forced abort (R445), a park (R484). -/
def State.beginOp (s : State) (m : Nat) (i : Instr) (a : Nat) (l : List Byte) : State :=
  match i with
  | .scrubCluster .. | .scrubPages .. => s.beginScrub (scrubOf m i a l).1 (scrubOf m i a l).2
  | .forceab .. => s.demandDecision a .force
  | .quiescePark .. => s.parkAll a
  | _ => s

/-- What an operation does besides its token (R484), with the status it ends with. -/
def State.opEffect (s : State) (m : Nat) (o : SupOp) : State × Nat :=
  let l := o.args
  let a := blockNum l 128 8
  let k := clusterNo m a
  let mask := maskTiles k (blockNum l 16 2)
  let src := blockNum l 0 8
  let read := fun (n : Nat) => s.readSpan (physModule src) (physOffset src) n
  match o.instr with
  | .bindBind .. => (s.bindCluster k (blockNum l 0 1), 0)
  | .bindUnbind .. => (s.unbindCluster k, 0)
  | .bindFence .. => (s.setCluster k { s.cluster k with fenced := true }, 0)
  | .bindUnfence .. => (s.setCluster k { s.cluster k with fenced := false }, 0)
  | .tmapMap .. => (s.mapCluster a (blockNum l 0 4) (clusterNo m (blockNum l 4 2)), 0)
  | .tmapInval .. => (s.invalidate a (blockNum l 0 8) (blockNum l 8 1), 0)
  | .tmapGroup .. =>
    let r := s.groupBitmap l
    if r.2.2 then (r.1, 0x24) else (r.1.setGroup a (blockNum l 0 1) (bitmapMembers r.2.1 (blockNum l 16 4)), 0)
  | .codestCode .. =>
    let r := read (blockNum l 8 4)
    if r.2.2 then (r.1.spoilCode k, 0x24) else (r.1.storeCode k r.2.1, 0)
  | .codestLocal .. =>
    let n := blockNum l 8 4
    let dst := blockNum l 12 4
    let r := read n
    if r.2.2 then (mask.foldl (fun (u : State) t => u.forget t dst n) r.1, 0x24) else (r.1.storeLocal mask dst r.2.1 (s.ev.bytes.take (2 * (linesOf dst n).length)), 0)
  | .codestReg .. => (s.storeReg (maskTiles k (blockNum l 2 2)) (blockNum l 0 2) (blockNum l 4 1) (BitVec.ofNat 64 (blockNum l 8 8)), 0)
  | .codestChunk .. =>
    let n := blockNum l 8 4
    let r := read n
    if r.2.2 then
      ({ r.1.storeChunk m a ((span 0 n).map (fun i => Config.freeByte (s.free + i))) with free := s.free + n }, 0x24)
    else (r.1.storeChunk m a r.2.1, 0)
  | .codestPtab .. => (s.setMod m { s.mod m with ptab := SMap.set (s.mod m).ptab a (ptabEntry l) }, 0)
  | .startLaunch .. => (s.startLaunchCtx a, 0)
  | .startResume .. => s.resumeCtx a src
  | .startStrand .. =>
    (s.resumeStrand (tileNo m a) (BitVec.ofNat 2 (blockNum l 2 1)) (blockNum l 0 2) (bitAt (blockNum l 3 1) 0) (bitAt (blockNum l 3 1) 1) l, 0)
  | .quiesceRequest .. => (s.setCtx a { s.ctx a with preempt := some ((s.ctx a).clock + BitVec.ofNat 48 (s.ctx a).plim) }, 0)
  | .quiesceCkpt .. => (s.setCtx a { s.ctx a with ckReq := true }, 0)
  | .quiesceCancel .. => (s.setCtx a { s.ctx a with preempt := none }, 0)
  | .imgmvSave .. =>
    let t := tileNo m a
    match (s.tile t).imageBad with
    | some e => (s.countError t cSRAM e.bank, 0x30)
    | none => (s.saveImage t (blockNum l 8 1) src, 0)
  | .imgmvRestore .. =>
    let r := read imageSize
    if r.2.2 then (r.1, 0x24) else (r.1.restoreImage (tileNo m a) src, 0)
  | .imgmvMove .. =>
    let t := tileNo m a
    match (s.tile t).imageBad with
    | some e => (s.countError t cSRAM e.bank, 0x30)
    | none => (s.moveImage t (tileNo m (blockNum l 0 4)), 0)
  | .keyld .. =>
    let key : KeySlot := { ctx := a, key := BitVec.ofNat 512 (blockNum l 64 64) }
    let u := s.setMod m { s.mod m with keys := SMap.set (s.mod m).keys (blockNum l 0 1) key }
    (u.setTile o.tile ((u.tile o.tile).writeBytes (blockNum l 136 8) (List.replicate 128 0)), 0)
  | .keyz .. => (s.setMod m { s.mod m with keys := (s.mod m).keys.filter (fun e => e.2.ctx != a) }, 0)
  | .dumpLog .. =>
    let body := logBody (s.logOf m a)
    (s.writeDump 0 a src (blockNum l 8 4) (Memory.writeBytes [] 0 body) body.length false, 0)
  | .dumpCtx .. =>
    let x := s.ctx a
    let s := if x.prot then s else (s.ctxTiles a).foldl (fun (u : State) t => u.imageReads t true) s
    (s.writeDump 1 a src (blockNum l 8 4) (if x.prot then [] else s.ctxBody a) (imageSize * x.tiles) x.prot, 0)
  | .dumpTrace .. =>
    let d := if a = 16 then ({ } : Die) else s.die (16 * m + a)
    (s.writeDump 2 a src (blockNum l 8 4) (Memory.writeBytes [] 0 d.traceBody) (24 + 65536 * 128) false, 0)
  | _ => (s, 0)

/-- A CODEST on a cluster of the context was accepted, in any module, before the operation at place i of module m (R267, R485). -/
def State.codestBefore (s : State) (m i c : Nat) : Bool :=
  let stores := fun (o : SupOp) => match o.instr with
    | .codestCode .. | .codestLocal .. | .codestReg .. => decide ((s.cluster (o.target / 4)).ctx = some c)
    | _ => false
  ((s.mod m).ops.take i).any stores ||
    (match (s.mod m).ops[i]? with
    | some p => s.mods.any (fun e => e.1 != m && e.2.ops.any (fun o => stores o && decide (o.since < p.since)))
    | none => false)

/-- Nothing accepted earlier for the target of the operation at place i of module m is open (R482). -/
def State.opFirst (s : State) (m i : Nat) (o : SupOp) : Bool := !((s.mod m).ops.take i).any (fun p => p.target == o.target)

/-- The operation works for a while once it has begun: a scrub (R497), a forced abort (R445), a park (R484). -/
def works (i : Instr) : Bool :=
  match i with
  | .forceab .. | .quiescePark .. | .scrubCluster .. | .scrubPages .. => true
  | _ => false

/-- The operation at place i of module m can end now: it is the first for its target, and what it waits for has come about. -/
def State.opReady (s : State) (m i : Nat) (o : SupOp) : Bool :=
  let a := blockNum o.args 128 8
  s.opFirst m i o &&
    (match o.instr with
    | .startLaunch .. => !s.codestBefore m i a
    | .forceab .. => !s.hasCtx a || (s.ctx a).held || (s.ctx a).fatal
    | .quiescePark .. => !s.hasCtx a || (s.ctx a).lull || !(s.ctx a).started
    | .scrubCluster .. | .scrubPages .. =>
      let q := scrubOf m o.instr a o.args
      !s.scrubbing q.2.cluster q.1 q.2.page q.2.pages
    | _ => true)

/-- The operation at place i of module m begins to work, once it is the first for its target (R482). -/
def State.startOp (s : State) (m i : Nat) : State :=
  match (s.mod m).ops[i]? with
  | some o =>
    if works o.instr ∧ !o.begun ∧ s.opFirst m i o then
      (s.setMod m { s.mod m with ops := listSet (s.mod m).ops i { o with begun := true } }).beginOp m o.instr (blockNum o.args 128 8) o.args
    else s
  | none => s

/-- The strand that START.strand names has been restarted by an abort since the acceptance (R487). -/
def State.restarted (s : State) (m : Nat) (o : SupOp) : Bool :=
  match o.instr with
  | .startStrand .. =>
    let x := s.tile (tileNo m (blockNum o.args 128 8))
    x.num * 65536 + x.att != blockNum o.args 136 8
  | _ => false

/-- The operation is over and its token becomes SET with a status (R482). -/
def State.endOp (s : State) (m i : Nat) (o : SupOp) (status : Nat) : State :=
  let s := s.setMod m { s.mod m with ops := listDel (s.mod m).ops i }
  let r := s.strand o.tile o.strand
  s.setStrand o.tile o.strand (r.setTok o.tok { r.tok o.tok with st := .set, status := BitVec.ofNat 8 status })

/-- SUPERVISOR_OP_COMPLETE (R482): operation State.ev.i of module State.ev.m ends, or, where it had to wait for an earlier one, begins;
State.ev.value 0x33 is a link failure met on the way (R436), after which it has no effect. -/
def execSupervisorOpComplete (s : State) : Host.Outcome State Fault Refusal :=
  let m := s.ev.m
  match (s.mod m).ops[s.ev.i]? with
  | none => .next s
  | some o =>
    if o.begun then
      .next (if !s.opReady m s.ev.i o then s else s.endOp m s.ev.i o (if s.ev.value = 0x33 then 0x33 else 0))
    else if !s.opFirst m s.ev.i o ∨ (!works o.instr ∧ !s.opReady m s.ev.i o) then .next s
    else
      let code := if s.restarted m o then 1 else s.refusal m o.instr (blockNum o.args 128 8) o.args
      if code ≠ 0 then .next (s.endOp m s.ev.i o (0x80 + code))
      else if s.ev.value = 0x33 then .next (s.endOp m s.ev.i o 0x33)
      else if works o.instr then .next (s.startOp m s.ev.i)
      else
        let r := s.opEffect m o
        .next (r.1.endOp m s.ev.i o r.2)

/-! ### The instructions -/

/-- The block of a supervisor instruction (R482); none for a form without one. -/
def State.supBlock (s : State) (b : Option (BitVec 6)) (n : Nat) : Except Stop (State × List Byte) :=
  match b with
  | none => .ok (s, [])
  | some b =>
    let a := s.getS b
    if 2 ^ 18 < a.toNat + n then raise cBOUND 0 (a + BitVec.ofNat 64 (n - 1))
    else if a.toNat % 64 ≠ 0 then raise cMISAL 0 a
    else (s.readLines a (linesOf a.toNat n)).map (fun t => (t, t.view.bytes a.toNat n))

/-- A supervisor instruction (R481, R482): the operands d, a, b and k; an operation keeps its block in 128 bytes, then s[sa], then
the block's address, or the superstep and attempt of the tile that START.strand names. -/
def State.supIssue (s : State) (i : Instr) (d a : BitVec 6) (b : Option (BitVec 6)) (k : BitVec 4) : Host.Outcome State Fault Refusal :=
  let m := modOf s.curTile
  s.finishSeq i (do
    if !s.supervisor then raise cPRIV 0 ((s.cluster (clusterOf s.curTile)).word s.own |>.setWidth 64)
    else if (s.getTok k).st = .pending then raise cTOKEN 0 (k.setWidth 64)
    else
      let r ← s.supBlock b (blockSize i)
      let t := r.1
      let v := (s.getS a).toNat
      let code := t.refusal m i v r.2
      if code ≠ 0 then .ok (t.setS d (BitVec.ofNat 64 code))
      else
        let x := t.tile (tileNo m v)
        let extra := match i with | .startStrand .. => x.num * 65536 + x.att | _ => (match b with | some b => (s.getS b).toNat | none => 0)
        let args := r.2 ++ List.replicate (128 - r.2.length) 0 ++ toBytes 8 v ++ toBytes 8 extra
        let op : SupOp := { instr := i, tile := s.curTile, strand := s.curStrand, tok := k, target := supTarget m i v, args := args, since := s.cycle }
        let t := (t.setS d 0).setTok k { (takenToken .supervisor t.here.num) with st := .pending }
        .ok ((t.setMod m { t.mod m with ops := (t.mod m).ops ++ [op] }).startOp m (t.mod m).ops.length))

/-- LAUNCH (R484): it completes at once, with the context number as its result. -/
def execLaunch (d a b : BitVec 6) (k : BitVec 4) (s : State) : Host.Outcome State Fault Refusal :=
  let m := modOf s.curTile
  s.finishSeq (.launch d a b k) (do
    if !s.supervisor then raise cPRIV 0 ((s.cluster (clusterOf s.curTile)).word s.own |>.setWidth 64)
    else if (s.getTok k).st = .pending then raise cTOKEN 0 (k.setWidth 64)
    else
      let r ← s.supBlock (some b) 64
      let t := r.1
      let code := t.refuseLaunch (s.getS a).toNat r.2
      match t.freeCtx with
      | some c =>
        if code ≠ 0 then .ok (t.setS d (BitVec.ofNat 64 code))
        else
          let u := ({ t with free := t.free + 1 }).setCtx c (ctxOfBlock m (Config.freeWord t.free) r.2)
          .ok ((u.setS d (BitVec.ofNat 64 (256 * c))).setTok k { (takenToken .supervisor u.here.num) with st := .set })
      | none => .ok (t.setS d (BitVec.ofNat 64 code)))

/-- BIND.bind (R484). -/
def execBindBind (d a b : BitVec 6) (k : BitVec 4) (s : State) : Host.Outcome State Fault Refusal :=
  s.supIssue (.bindBind d a b k) d a (some b) k

/-- BIND.unbind (R484). -/
def execBindUnbind (d a : BitVec 6) (k : BitVec 4) (s : State) : Host.Outcome State Fault Refusal :=
  s.supIssue (.bindUnbind d a k) d a none k

/-- BIND.fence (R484). -/
def execBindFence (d a : BitVec 6) (k : BitVec 4) (s : State) : Host.Outcome State Fault Refusal :=
  s.supIssue (.bindFence d a k) d a none k

/-- BIND.unfence (R484). -/
def execBindUnfence (d a : BitVec 6) (k : BitVec 4) (s : State) : Host.Outcome State Fault Refusal :=
  s.supIssue (.bindUnfence d a k) d a none k

/-- TMAP.map (R484). -/
def execTmapMap (d a b : BitVec 6) (k : BitVec 4) (s : State) : Host.Outcome State Fault Refusal :=
  s.supIssue (.tmapMap d a b k) d a (some b) k

/-- TMAP.inval (R332, R484). -/
def execTmapInval (d a b : BitVec 6) (k : BitVec 4) (s : State) : Host.Outcome State Fault Refusal :=
  s.supIssue (.tmapInval d a b k) d a (some b) k

/-- TMAP.group (R293, R484). -/
def execTmapGroup (d a b : BitVec 6) (k : BitVec 4) (s : State) : Host.Outcome State Fault Refusal :=
  s.supIssue (.tmapGroup d a b k) d a (some b) k

/-- CODEST.code (R255, R484). -/
def execCodestCode (d a b : BitVec 6) (k : BitVec 4) (s : State) : Host.Outcome State Fault Refusal :=
  s.supIssue (.codestCode d a b k) d a (some b) k

/-- CODEST.local (R484). -/
def execCodestLocal (d a b : BitVec 6) (k : BitVec 4) (s : State) : Host.Outcome State Fault Refusal :=
  s.supIssue (.codestLocal d a b k) d a (some b) k

/-- CODEST.reg (R484). -/
def execCodestReg (d a b : BitVec 6) (k : BitVec 4) (s : State) : Host.Outcome State Fault Refusal :=
  s.supIssue (.codestReg d a b k) d a (some b) k

/-- CODEST.chunk (R387, R484). -/
def execCodestChunk (d a b : BitVec 6) (k : BitVec 4) (s : State) : Host.Outcome State Fault Refusal :=
  s.supIssue (.codestChunk d a b k) d a (some b) k

/-- CODEST.ptab (R388, R484). -/
def execCodestPtab (d a b : BitVec 6) (k : BitVec 4) (s : State) : Host.Outcome State Fault Refusal :=
  s.supIssue (.codestPtab d a b k) d a (some b) k

/-- START.launch (R484, R485). -/
def execStartLaunch (d a : BitVec 6) (k : BitVec 4) (s : State) : Host.Outcome State Fault Refusal :=
  s.supIssue (.startLaunch d a k) d a none k

/-- START.resume (R457, R485). -/
def execStartResume (d a b : BitVec 6) (k : BitVec 4) (s : State) : Host.Outcome State Fault Refusal :=
  s.supIssue (.startResume d a b k) d a (some b) k

/-- START.strand (R487). -/
def execStartStrand (d a b : BitVec 6) (k : BitVec 4) (s : State) : Host.Outcome State Fault Refusal :=
  s.supIssue (.startStrand d a b k) d a (some b) k

/-- QUIESCE.request (R446). -/
def execQuiesceRequest (d a : BitVec 6) (k : BitVec 4) (s : State) : Host.Outcome State Fault Refusal :=
  s.supIssue (.quiesceRequest d a k) d a none k

/-- QUIESCE.ckpt (R462). -/
def execQuiesceCkpt (d a : BitVec 6) (k : BitVec 4) (s : State) : Host.Outcome State Fault Refusal :=
  s.supIssue (.quiesceCkpt d a k) d a none k

/-- QUIESCE.cancel (R484). -/
def execQuiesceCancel (d a : BitVec 6) (k : BitVec 4) (s : State) : Host.Outcome State Fault Refusal :=
  s.supIssue (.quiesceCancel d a k) d a none k

/-- QUIESCE.park (R484). -/
def execQuiescePark (d a : BitVec 6) (k : BitVec 4) (s : State) : Host.Outcome State Fault Refusal :=
  s.supIssue (.quiescePark d a k) d a none k

/-- IMGMV.save (R451, R484). -/
def execImgmvSave (d a b : BitVec 6) (k : BitVec 4) (s : State) : Host.Outcome State Fault Refusal :=
  s.supIssue (.imgmvSave d a b k) d a (some b) k

/-- IMGMV.restore (R457, R484). -/
def execImgmvRestore (d a b : BitVec 6) (k : BitVec 4) (s : State) : Host.Outcome State Fault Refusal :=
  s.supIssue (.imgmvRestore d a b k) d a (some b) k

/-- IMGMV.move (R460, R484). -/
def execImgmvMove (d a b : BitVec 6) (k : BitVec 4) (s : State) : Host.Outcome State Fault Refusal :=
  s.supIssue (.imgmvMove d a b k) d a (some b) k

/-- KEYLD (R484). -/
def execKeyld (d a b : BitVec 6) (k : BitVec 4) (s : State) : Host.Outcome State Fault Refusal :=
  s.supIssue (.keyld d a b k) d a (some b) k

/-- KEYZ (R484). -/
def execKeyz (d a : BitVec 6) (k : BitVec 4) (s : State) : Host.Outcome State Fault Refusal :=
  s.supIssue (.keyz d a k) d a none k

/-- SCRUB.cluster (R497). -/
def execScrubCluster (d a : BitVec 6) (k : BitVec 4) (s : State) : Host.Outcome State Fault Refusal :=
  s.supIssue (.scrubCluster d a k) d a none k

/-- SCRUB.pages (R497). -/
def execScrubPages (d a b : BitVec 6) (k : BitVec 4) (s : State) : Host.Outcome State Fault Refusal :=
  s.supIssue (.scrubPages d a b k) d a (some b) k

/-- FORCEAB (R445). -/
def execForceab (d a : BitVec 6) (k : BitVec 4) (s : State) : Host.Outcome State Fault Refusal :=
  s.supIssue (.forceab d a k) d a none k

/-- DUMP.log (R522). -/
def execDumpLog (d a b : BitVec 6) (k : BitVec 4) (s : State) : Host.Outcome State Fault Refusal :=
  s.supIssue (.dumpLog d a b k) d a (some b) k

/-- DUMP.ctx (R522, R523). -/
def execDumpCtx (d a b : BitVec 6) (k : BitVec 4) (s : State) : Host.Outcome State Fault Refusal :=
  s.supIssue (.dumpCtx d a b k) d a (some b) k

/-- DUMP.trace (R522). -/
def execDumpTrace (d a b : BitVec 6) (k : BitVec 4) (s : State) : Host.Outcome State Fault Refusal :=
  s.supIssue (.dumpTrace d a b k) d a (some b) k

/-! ### The units that serve the supervisor -/

/-- EVENT_DELIVERY (R479): the oldest event that module State.ev.m keeps enters its ring, if there is room. -/
def execEventDelivery (s : State) : Host.Outcome State Fault Refusal :=
  let m := s.ev.m
  match (s.mod m).events with
  | [] => .next s
  | e :: r =>
    match s.deliverEvent m e with
    | some u => .next (u.setMod m { u.mod m with events := r })
    | none => .next s

/-- PLIM_EXPIRY (R447): the pre-emption limit of context State.ev.i has passed without a decision; a forced abort follows. -/
def execPlimExpiry (s : State) : Host.Outcome State Fault Refusal :=
  let c := s.ev.i
  let x := s.ctx c
  match x.preempt with
  | some d =>
    if x.runs ∧ x.running ∧ x.decided.isNone ∧ x.demand.isNone ∧ expiredAt x.clock d then .next (s.demandDecision c .force) else .next s
  | none => .next s

/-- A scrub that a reset has stopped can run again: its island is powered, or the quadrants of its pages serve (R498, R526). -/
def State.scrubReady (s : State) (m : Nat) (o : ScrubOp) : Bool :=
  match o.cluster with
  | some k => (s.cluster k).powered
  | none => decide (SMap.get 3 (s.mod m).service (quadrantOf o.page) < 2) &&
      decide (SMap.get 3 (s.mod m).service (quadrantOf (o.page + o.pages - 1)) < 2)

/-- SCRUB_RESTART (R498, R526): after a reset, scrub State.ev.i of module State.ev.m begins again from its start; its resources have
stayed quarantined. -/
def execScrubRestart (s : State) : Host.Outcome State Fault Refusal :=
  let m := s.ev.m
  match (s.mod m).scrubs[s.ev.i]? with
  | some o =>
    if o.stopped ∧ s.scrubReady m o then
      .next (s.setMod m { s.mod m with scrubs := listSet (s.mod m).scrubs s.ev.i { o with stopped := false, done := [] } })
    else .next s
  | none => .next s

end Sys2Proof.Machine
end

