-- ==== Sys2Proof/Machine/Bringup.lean ====
section
/-! DEFINITION. The reset of a module and its boot (20_module_host.md R491 to R495, 23_bringup_reference.md R524 to R529),
self-test, the training of stacks, and the islands with their operating points (R530 to R533, with
21_program_collective_failure.md R499). -/
namespace Sys2Proof.Machine

/-! ### Firmware images -/

/-- The accepted keys (R493): without EXCLUSIVE the fused key stays accepted beside the owner's (log entry 15). -/
def Module.acceptedKeys (md : Module) : List (BitVec 256) :=
  match md.ownerKey with
  | none => [Config.jalatrixKey]
  | some k => if md.exclusive then [k] else [k, Config.jalatrixKey]

/-- A signature over a digest verifies under an accepted key (R493). -/
def Module.verifies (md : Module) (digest sig : BitVec 512) : Bool := md.acceptedKeys.any (fun k => Config.ed25519Verify k digest sig)

/-- The version of a firmware image (R529). -/
def imageVersion (l : List Byte) : Nat := blockNum l 4 4

/-- A slot is valid (R493, R529): the form of its header, its version, and the signature over its header and body. -/
def Module.slotValid (md : Module) (l : List Byte) : Bool :=
  let body := (l.drop 128).take (blockNum l 8 4)
  decide (128 ≤ l.length) && blockNum l 0 4 == 0x44580031 && decide (blockNum l 8 4 ≤ 2 ^ 26) && zeroBytes l 13 64 && decide (md.floor.toNat ≤ imageVersion l) &&
    md.verifies (Config.sha512 (l.take 64 ++ body)) (BitVec.ofNat 512 (blockNum l 64 64))

/-- The slot that the boot ROM runs (R493): the valid slot of the higher version, A on a tie; none enters recovery. -/
def Module.bootSlot (md : Module) : Option (List Byte) :=
  match md.slotValid md.flashA, md.slotValid md.flashB with
  | true, true => some (if imageVersion md.flashA < imageVersion md.flashB then md.flashB else md.flashA)
  | true, false => some md.flashA
  | false, true => some md.flashB
  | false, false => none

/-- M2 (R495). -/
def Module.measure (md : Module) (image : List Byte) : BitVec 512 :=
  let b := fun (x : BitVec 512) => toBytes 64 x.toNat
  let m0 := Config.sha512 Config.bootRom
  let m1 := Config.sha512 (b m0 ++ b (Config.sha512 image))
  let owner := match md.ownerKey with | some k => toBytes 32 k.toNat | none => List.replicate 32 0
  Config.sha512 (b m1 ++ b (Config.sha512 owner))

/-! ### Module reset -/

/-- A management tile whose store the boot ROM has loaded: its strands run from address 0 (log entry 15). -/
def State.bootTile (s : State) (m j : Nat) (code : List Byte) : State :=
  let t := mgmtTile m j
  let s := s.setCluster (clusterOf t) { s.cluster (clusterOf t) with store := Memory.writeBytes [] 0 (code.take 65536), clim := 65536 }
  s.setTile t { s.tile t with strands := (s.tile t).strands.map (fun r => { r with st := .run }) }

/-- A module is reset (R15, R20, R498, R524): what the always-on store keeps stays, global memory too (log entry 3); the contexts
of its Axlos are gone. -/
def State.clearModule (s : State) (m : Nat) : State :=
  let gone := (s.ctxs.filter (fun e => e.2.home == m)).map (fun e => e.1)
  let away := s.clusters.filter (fun e => (match e.2.ctx with | some c => gone.contains c | none => false) && modOfCluster e.1 != m)
  let s := gone.foldl (fun (u : State) c => u.tellDeps c (fun _ => .failed)) (away.foldl (fun (u : State) e => u.unbindCluster e.1) s)
  let s : State := { s with mods := s.mods.map (fun (e : Nat × Module) =>
    (e.1, { e.2 with stk := e.2.stk.map (fun (k : Nat × Stack) => (k.1, k.2.forget gone.contains)) })) }
  let md := s.mod m
  let kept : Module :=
    { mem := md.mem, ownerKey := md.ownerKey, exclusive := md.exclusive, enrol := md.enrol, floor := md.floor, flashA := md.flashA,
      flashB := md.flashB, scrubs := md.scrubs.map (fun o => { o with stopped := true, done := [] }), refZero := s.cycle / 16, phase := 1,
      parts := md.parts, strap := md.strap }
  let mine := fun (t : Nat) => modOf t == m
  let dead := fun (g : Msg) => gone.any (fun c => s.concerns c g) || (match g with
    | .delta d => mine d.srcTile
    | .ack d => mine d.srcTile
    | .refusal d => mine d.srcTile
    | .post t _ _ => mine t
    | .refetch t _ => mine t
    | .baseCommit _ w _ _ => w == m
    | .abortToken c _ => gone.contains c
    | .sync c _ _ => gone.contains c
    | .haltRequest t _ => mine t
    | _ => false)
  let wipe := fun (e : Nat × Cluster) =>
    if modOfCluster e.1 = m then (e.1, ({ owner := e.2.owner, quar := e.2.quar, failed := e.2.failed } : Cluster)) else e
  { s with tiles := s.tiles.filter (fun e => !mine e.1), clusters := s.clusters.map wipe, dies := s.dies.filter (fun e => e.1 / 16 != m),
           mods := SMap.set s.mods m kept, ctxs := s.ctxs.filter (fun e => !gone.contains e.1), net := s.net.filter (fun g => !dead g),
           insts := s.insts.filter (fun i => !gone.contains i.ctx), walks := s.walks.filter (fun w => !mine w.tile && !gone.contains w.ctx) }

/-- Phases 1 and 2 of the bring-up (R493, R524, R529): the boot ROM loads the chosen slot, or recovery is entered. -/
def State.boot (s : State) (m : Nat) (strap : Bool) : State :=
  let md := s.mod m
  match (if strap then none else md.bootSlot) with
  | none => s.setMod m { md with recovery := true, phase := 2 }
  | some image =>
    let floor := if bitAt (blockNum image 12 1) 0 then max md.floor.toNat (imageVersion image) else md.floor.toNat
    let s := s.setMod m { md with recovery := false, phase := 3, floor := BitVec.ofNat 32 floor, m2 := md.measure image }
    (span 0 8).foldl (fun (u : State) j => u.bootTile m j (image.drop 128)) s

/-- A module is reset and boots, the recovery strap as given (R524, R529). -/
def State.resetModule (s : State) (m : Nat) (strap : Bool) : State :=
  let u := s.clearModule m
  (u.setMod m { u.mod m with strap := strap }).boot m strap

/-- MODULE_RESET (R524): module State.ev.m is reset; ok false is the recovery strap. -/
def execModuleReset (s : State) : Host.Outcome State Fault Refusal := .next (s.resetModule s.ev.m (!s.ev.ok))

/-! ### Islands -/

/-- The clusters of island i of module m (R530). -/
def islandClusters (m i : Nat) : List Nat :=
  (span 0 25).map (fun j => 16384 * m + i / 16 * 1024 + (5 * (i % 16 / 4) + j / 5) * 32 + (5 * (i % 4) + j % 5))

/-- Every tile of the cluster loses its state, the instruction store too (R499, R530): a context that runs on it, or stands held there, has
lost it until it is restored. -/
def State.loseTiles (s : State) (k : Nat) : State :=
  let s := (tilesOf k).foldl (fun (u : State) t => { u with tiles := SMap.del u.tiles t }) s
  let x := s.cluster k
  let gone := match x.ctx with | some c => (s.ctx c).started && (s.ctx c).resident | none => false
  s.setCluster k { x with store := [], clim := 0, errs := [], tcache := [], served := none, powered := false, gone := gone }

/-- An island loses its supply (R499, R500): its clusters are lost and quarantined, a scrub of one of them stops, the contexts with a lost tile
count the time from now, and ISLAND_DOWN is sent. -/
def State.islandDown (s : State) (m i : Nat) : State :=
  let s := (islandClusters m i).foldl (fun (u : State) k =>
    let v := u.loseTiles k
    v.setCluster k { v.cluster k with lost := true, quar := true }) s
  let x := (s.mod m).island i
  let ks := islandClusters m i
  let md := (s.mod m).setIsland i { x with op := 7, target := 7, busy := false, hot := false }
  let hit := fun (o : ScrubOp) => match o.cluster with | some k => ks.contains k | none => false
  let s := s.setMod m { md with scrubs := md.scrubs.map (fun o => if hit o then { o with stopped := true } else o) }
  let s : State := { s with ctxs := s.ctxs.map (fun e =>
    (e.1, if e.2.resident ∧ ks.any (fun k => (s.cluster k).ctx == some e.1) then { e.2 with downAt := some (e.2.downAt.getD (e.2.clock + BitVec.ofNat 48 e.2.plim)) } else e.2)) }
  s.moduleEvent m 0x0010 i 0

/-- ISLAND_POWER_LOSS (R499): island State.ev.th of module State.ev.m. -/
def execIslandPowerLoss (s : State) : Host.Outcome State Fault Refusal :=
  if ((s.mod s.ev.m).island s.ev.th).op = 7 then .next s else .next (s.islandDown s.ev.m s.ev.th)

/-- THERMAL_THROTTLE (R532): the temperature State.ev.value of island State.ev.th of module State.ev.m; at 105 °C the island goes to one point
below the one it is at, if it is not on its way there or further down. -/
def execThermalThrottle (s : State) : Host.Outcome State Fault Refusal :=
  let m := s.ev.m
  let x := (s.mod m).island s.ev.th
  let temp := s.ev.value.toNat % 256
  let x := { x with temp := BitVec.ofNat 8 temp, hot := x.hot || decide (105 ≤ temp) }
  let down := x.op.toNat % 7 - 1
  let bound := (if x.busy then x.target else x.op).toNat
  if 105 ≤ temp ∧ down < bound ∧ bound ≤ 3 then
    let u := s.setMod m ((s.mod m).setIsland s.ev.th (x.goTo (BitVec.ofNat 3 down)))
    .next (u.moduleEvent m 0x0012 s.ev.th (down + temp * 256))
  else .next (s.setMod m ((s.mod m).setIsland s.ev.th x))

/-- THERMAL_RECOVER (R526, R532, R533): the temperature State.ev.value has stayed below 95 °C for 100 ms, and the island goes up by one
point until it is at its request. -/
def execThermalRecover (s : State) : Host.Outcome State Fault Refusal :=
  let m := s.ev.m
  let md := s.mod m
  let x := md.island s.ev.th
  let temp := s.ev.value.toNat % 256
  let x := { x with temp := BitVec.ofNat 8 temp }
  let up : Bool := !x.busy && decide (x.op.toNat < x.req.toNat) && decide (x.req.toNat ≤ 3) && !md.lowFlow && !md.reduced
  let cool : Island := { x with hot := x.hot && decide (x.op.toNat + 1 < x.req.toNat) }
  .next (s.setMod m (md.setIsland s.ev.th (if 95 ≤ temp then x else if up then cool.goTo (x.op + 1) else cool)))

/-- THERMAL_SHUTDOWN (R532): an island at OP0 that has reached 115 °C is turned off. -/
def execThermalShutdown (s : State) : Host.Outcome State Fault Refusal :=
  let m := s.ev.m
  let x := (s.mod m).island s.ev.th
  let temp := s.ev.value.toNat % 256
  let u := s.setMod m ((s.mod m).setIsland s.ev.th { x with temp := BitVec.ofNat 8 temp })
  if 115 ≤ temp ∧ x.op = 0 then .next (u.islandDown m s.ev.th) else .next u

/-- LOW_COOLANT_FLOW (R533): every island that runs, or is being powered, goes to OP0 and is held there. -/
def execLowCoolantFlow (s : State) : Host.Outcome State Fault Refusal :=
  let m := s.ev.m
  let md := s.mod m
  let hold := fun (x : Island) => if x.target ≠ 7 ∧ (x.op ≠ 0 ∨ x.busy) then x.goTo 0 else x
  .next (s.setMod m { md with lowFlow := true, islands := md.islands.map (fun e => (e.1, hold e.2)) })

/-- The islands that run, or are being powered, go to their requests as far as they may (R526, R532, R533). -/
def Module.release (md : Module) : Module :=
  let back := fun (x : Island) => if x.target ≠ 7 ∧ x.req.toNat ≤ 3 then x.goTo (md.allowed x x.req) else x
  { md with islands := md.islands.map (fun e => (e.1, back e.2)) }

/-- COOLANT_FLOW_RESTORED (R533): the islands go back to their requests. -/
def execCoolantFlowRestored (s : State) : Host.Outcome State Fault Refusal :=
  let m := s.ev.m
  let md := s.mod m
  .next (if md.lowFlow then s.setMod m ({ md with lowFlow := false }).release else s)

/-- ISLCTL_WRITE (R531): ISLCTL of module State.ev.m is written State.ev.value. -/
def execIslctlWrite (s : State) : Host.Outcome State Fault Refusal := .next (s.writeIslctl s.ev.m s.ev.value)

/-- HREF_WRITE (R480): HREF of module State.ev.m is written State.ev.value. -/
def execHrefWrite (s : State) : Host.Outcome State Fault Refusal := .next (s.writeHref s.ev.m s.ev.value)

/-- ISLAND_TRANSITION_DONE (R530, R531): island State.ev.th of module State.ev.m reaches its target; a lost cluster that is powered
again stays quarantined (R499), and an island that goes off loses its tiles' state. -/
def execIslandTransitionDone (s : State) : Host.Outcome State Fault Refusal :=
  let m := s.ev.m
  let x := (s.mod m).island s.ev.th
  if x.busy = false then .next s
  else
    let u := s.setMod m ((s.mod m).setIsland s.ev.th { x with op := x.target, busy := false })
    .next (if x.target = 7 then (islandClusters m s.ev.th).foldl (fun (v : State) k => v.loseTiles k) u
      else if x.op = 7 then
        (islandClusters m s.ev.th).foldl (fun (v : State) k => v.setCluster k { v.cluster k with powered := true, lost := false }) u
      else u)

/-! ### Self-test and training -/

/-- A cluster holds the part that a location code names (R527). -/
def codeNames (m k code : Nat) : Bool :=
  let kind := bitsOf code 31 28
  let die := bitsOf code 27 24
  let mine := 16384 * m + die * 1024 + bitsOf code 23 19 * 32 + bitsOf code 18 14
  if kind ≤ 1 then mine == k else kind == 2 && decide (k / 1024 = 16 * m + die) && islandOf k % 16 == bitsOf code 23 20

/-- The service of a quadrant all of whose stacks have trained or are declared failed (R525). -/
def State.serviceOf (s : State) (m q : Nat) : Nat := min ((span (8 * q) 8).filter (fun k => s.stackFailed m k)).length 2

/-- The phase that bring-up has come to (R524, R526). Phases 4 and 5 overlap: the number is 4 until every island is tested, and then 5 while a
quadrant is undecided; it is 3 until the first island is tested or the first stack trained (log entry 15). With both at an end the islands rise
to the nominal point, and the host hears of full service. -/
def State.bringupEnd (s : State) (m : Nat) : State :=
  let md := s.mod m
  if !md.reduced then s
  else if !(span 0 256).all (fun i => (md.island i).tested) then s.setMod m { md with phase := 4 }
  else if !(span 0 4).all (fun q => decide (SMap.get 3 md.service q < 3)) then s.setMod m { md with phase := 5 }
  else
    let rise := fun (x : Island) => if x.target ≠ 7 then { x with req := 3 } else x
    (s.setMod m ({ md with phase := 6, islands := md.islands.map (fun e => (e.1, rise e.2)) } : Module).release).notice m 9 255 0 1

/-- A cluster that holds a failing part is not released and stays quarantined until a self-test of its island passes it (R527). -/
def State.failCluster (s : State) (k : Nat) : State := s.setCluster k { s.cluster k with failed := true, released := false }

/-- The clusters of a module that hold the part that a location code names (R527). -/
def namedClusters (m code : Nat) : List Nat :=
  ((span 0 256).flatMap (islandClusters m)).filter (fun k => codeNames m k code)

/-- SELF_TEST_COMPLETE (R524, R527): self-test of island State.ev.th of module State.ev.m, which is powered, has named the failing parts
State.ev.nums; a number from 2^32 on is 2^32 plus the code of a part of KIND 3 to 9 that has passed (log entry 15). A cluster of the island that
passes and is not quarantined is released; a failing part stays quarantined until a later test passes it, wherever it stands. -/
def execSelfTestComplete (s : State) : Host.Outcome State Fault Refusal :=
  let m := s.ev.m
  let i := s.ev.th
  let x := (s.mod m).island i
  let codes := s.ev.nums.filter (fun c => decide (c < 2 ^ 32))
  let passed := (s.ev.nums.filter (fun c => decide (2 ^ 32 ≤ c))).map (fun c => c - 2 ^ 32)
  if (s.mod m).phase < 3 ∨ x.op = 7 ∨ x.busy then .next s
  else
    let u := codes.foldl (fun (u : State) code => (u.moduleEvent m 0x0013 code s.ev.value.toNat).notice m 8 255 0 code) s
    let u := (islandClusters m i).foldl (fun (v : State) k =>
      v.setCluster k { v.cluster k with failed := false, released := !(v.cluster k).quar }) u
    let u := (codes.flatMap (namedClusters m)).foldl State.failCluster u
    let md := u.mod m
    let parts := ((md.parts ++ codes.filter (fun c => decide (3 ≤ bitsOf c 31 28) && decide (bitsOf c 31 28 ≤ 9))).filter
      (fun c => !passed.contains c)).eraseDups
    let u := u.setMod m { md.setIsland i { x with tested := true } with parts := parts }
    let u := u.setMod m { u.mod m with service := (u.mod m).service.map (fun e => (e.1, if e.2 < 3 then u.serviceOf m e.1 else e.2)) }
    .next (u.bringupEnd m)

/-- STACK_TRAINING_DONE (R525): stack State.ev.th of module State.ev.m has trained, or with ok false is declared failed; with the
last of its quadrant the service is known. -/
def execStackTrainingDone (s : State) : Host.Outcome State Fault Refusal :=
  let m := s.ev.m
  let k := s.ev.th
  let x := s.stackAt m k
  if 32 ≤ k ∨ x.trained ∨ x.failed then .next s
  else
    let u := s.setStack m k { x with trained := s.ev.ok, failed := !s.ev.ok }
    let q := k / 8
    if (span (8 * q) 8).all (fun j => (u.stackAt m j).trained || (u.stackAt m j).failed) then
      let n := u.serviceOf m q
      let v := u.setMod m { u.mod m with service := SMap.set (u.mod m).service q n }
      .next ((v.moduleEvent m 0x0014 q n).bringupEnd m)
    else .next (u.bringupEnd m)

end Sys2Proof.Machine
end

