-- ==== Sys2Proof/Machine/Trace.lean ====
section
/-! DEFINITION. The issue trace of a die (22_debug.md R517, R518): one record for each cycle of the traced cluster. -/
namespace Sys2Proof.Machine

/-- The cluster ITCTL selects on die d (R518). -/
def tracedCluster (d : Nat) (ctl : Word) : Nat := d * 1024 + bitsOf ctl.toNat 23 19 * 32 + bitsOf ctl.toNat 18 14

/-- What an idle slot of a tile shows (R517): 1 a strand in RUN that lacks words of its unit, 2 one that a stall holds back, 0 one
whose unit takes the other slot; with none in RUN, 2 a strand that a stall holds in WAIT, 3 all in WAIT, 4 all in HALT, 5 all IDLE or RETIRED,
and 0 any other mixture, such as strands in PARK (log entry 44). -/
def State.idleCode (s : State) (t : Nat) : Nat :=
  let x := s.tile t
  let l := x.strands.toList
  let at_ := fun (n : BitVec 2) => ({ s with curTile := t, curStrand := n } : State)
  let runs := strandIx.filter (fun n => (x.strand n).st == .run)
  if runs.any (fun n => !(at_ n).unitHeld) then 1
  else if runs.any (fun n => (at_ n).heldBack) then 2
  else if !runs.isEmpty then 0
  else if l.any (fun r => r.st == .wait && (match r.wait with | some w => (match w.kind with | .stall _ _ _ => true | _ => false) | none => false)) then 2
  else if l.all (fun r => r.st == .wait) then 3
  else if l.all (fun r => r.st == .halt) then 4
  else if l.all (fun r => r.st == .idle || r.st == .retired) then 5
  else 0

/-- An issue in a cycle: tile, slot, strand, unit address, and 0 plain, 1 trap taken, 2 TMARK. -/
structure Issue where
  tile : Nat
  vec  : Bool
  n    : BitVec 2
  pc   : Nat
  code : Nat
  mark : Option (BitVec 22)
  trap : Option (BitVec 8)
deriving DecidableEq, Repr

/-- The record of a cycle of cluster k (R517), cnt being the cycle count since arming. -/
def State.issueRecord (s : State) (k cnt : Nat) (l : List Issue) : BitVec 1024 :=
  let slots := (span 0 32).flatMap (fun j =>
    let t := 16 * k + j / 2
    let e := match l.find? (fun q => q.tile == t && q.vec == decide (j % 2 = 1)) with
      | some q => 2 ^ 23 + q.n.toNat * 2 ^ 21 + q.pc / 4 % 2 ^ 14 * 2 ^ 7 + q.code * 2 ^ 4
      | none => s.idleCode t * 2 ^ 4
    toBytes 3 e)
  let served := match (s.cluster k).served with | some b => b * 32 % 2 ^ 16 + 1 | none => 0
  BitVec.ofNat 1024 (ofBytes (slots ++ toBytes 8 cnt ++ toBytes 2 served))

/-- An issue of the cycle matches ITTRIG (R518). -/
def triggers (trig : Word) (l : List Issue) : Bool :=
  let v := bitsOf trig.toNat 21 0
  match bitsOf trig.toNat 63 56 with
  | 0 => true
  | 1 => l.any (fun q => match q.mark with | some m => m.toNat == v | none => false)
  | 2 => l.any (fun q => q.pc == v)
  | 3 => l.any (fun q => match q.trap with | some c => c.toNat == v | none => false)
  | _ => false

/-- How many records follow the trigger (R518). -/
def traceLeft (ctl : Word) : Nat :=
  match bitsOf ctl.toNat 3 2 with
  | 0 => 65535
  | 1 => 32767
  | _ => 0

/-- A cycle of the die's traced cluster: while armed its cycles are counted, and it is recorded unless recording has stopped; the first
record after an arming takes the place of what an earlier one has left (log entry 16). Tiles of a protected context are not recorded
(R523). -/
def State.traceDie (s : State) (d : Nat) (l : List Issue) : State :=
  let x := s.die d
  let k := tracedCluster d x.itctl
  let hidden := match (s.cluster k).ctx with | some c => (s.ctx c).prot | none => false
  if bitAt x.itctl.toNat 0 ∧ !bitAt x.itctl.toNat 1 then
    let y := { x with itcycles := x.itcycles + 1 }
    let y :=
      if x.itleft = some 0 ∨ hidden = true then y
      else
        let rec_ := s.issueRecord k x.itcycles l
        let recs := if x.itcount = 0 then [rec_] else x.itrecs ++ [rec_]
        let recs := if 65536 < recs.length then recs.drop 1 else recs
        let fires := x.itleft.isNone && triggers x.ittrig l
        let left := match x.itleft with
          | some n => some (n - 1)
          | none => if fires then some (traceLeft x.itctl) else none
        let wrapped := decide (65536 ≤ x.itcount)
        let pos := if fires then x.itcount % 65536 else bitsOf x.itpos.toNat 15 0
        { y with itrecs := recs, itcount := x.itcount + 1, itleft := left, itpos := BitVec.ofNat 64 (pos + (if wrapped then 65536 else 0)) }
    (s.setDie d y).setCluster k { s.cluster k with served := none }
  else s

/-- A cycle passes for the issue traces: the die of an issue, if its traced cluster is the tile's, sees the issue. -/
def State.traceAll (s : State) (l : List Issue) : State :=
  if s.dies = [] then s
  else (SMap.keys s.dies).foldl (fun u d =>
    u.traceDie d (l.filter (fun q => clusterOf q.tile == tracedCluster d (u.die d).itctl))) s

/-- The same for a cycle with at most one issue. -/
def State.traceCycle (s : State) (i : Option Issue) : State := s.traceAll i.toList

end Sys2Proof.Machine
end

