-- ==== Sys2Proof/Machine/DebugPort.lean ====
section
/-! DEFINITION. The debug port (22_debug.md R504 to R518, R523): the debug registers, halt, resume and step, inspection of a halted
tile, the control of the traces; and the stop of a context's clock (09_strands_and_deadlines.md R228) and the change of its egress
queue (R225). -/
namespace Sys2Proof.Machine

/-! ### Registers -/

/-- The tile shows the issue-trace registers of its die (R504). -/
def tracePort (t : Nat) : Bool := t % 16384 == 0

/-- DCTL (R505). -/
def Debug.dctl (d : Debug) : Word :=
  BitVec.ofNat 64 ((if d.xin then 2 ^ 17 else 0) + (if d.xout then 2 ^ 16 else 0) + d.hr.toNat * 16 + (if d.en then 8 else 0) +
    (if d.halted then 4 else 0))

/-- The value of a debug register (R504, R505, R514, R518); an unassigned number reads zero, and so does every register but DACC of
a tile of a protected context (R523). -/
def State.readDebug (s : State) (t r : Nat) : Word :=
  let d := (s.tile t).dbg
  let e := s.die (dieOf t)
  if r = 577 then d.dacc
  else if s.hiddenTile t then 0
  else match r with
    | 576 => d.dctl
    | 578 => d.ddata
    | 604 => BitVec.ofNat 64 (d.skip.toNat * 2 ^ 32 + d.stale.toNat)
    | 605 => d.btBase
    | 606 => d.btLim
    | 607 => d.btPtr
    | 608 => d.btCtl.setWidth 64
    | 612 => if tracePort t then e.itctl else 0
    | 613 => if tracePort t then e.ittrig else 0
    | 614 => if tracePort t then e.itpos else 0
    | _ =>
      if 580 ≤ r ∧ r ≤ 595 then d.ibp.getD (r - 580) 0
      else if 596 ≤ r ∧ r ≤ 599 then d.wpa.getD (r - 596) 0
      else if 600 ≤ r ∧ r ≤ 603 then d.wpc.getD (r - 600) 0
      else 0

def State.setDbg (s : State) (t : Nat) (d : Debug) : State := s.setTile t { s.tile t with dbg := d }

/-! ### Halt, resume and step -/

/-- The context's clock may run: it is resident, not held, and no tile of it is halted (R228, R442). -/
def State.clockMayRun (s : State) (c : Nat) : Bool :=
  let x := s.ctx c
  x.started && x.resident && !x.held && !(s.ctxTiles c).any (fun t => (s.tile t).stopped)

/-- The context's clock goes on when no tile of it is halted any more (R228). -/
def State.restartClock (s : State) (t : Nat) : State :=
  match s.ctxOf t with
  | some c => if s.clockMayRun c then s.setCtx c { s.ctx c with running := true } else s
  | none => s

/-- A strand returns to the state it held before the halt; a step it has begun is none any more (R506). -/
def Strand.unhalt (r : Strand) : Strand :=
  if r.st = .halt then { r with st := r.before.getD .run, before := none } else { r with stepping := false }

/-- The first unit that each strand issues after a resume is not matched against the breakpoints (R506). -/
def State.passBreakpoints (s : State) (t : Nat) : State :=
  s.setTile t { s.tile t with strands := (s.tile t).strands.map (fun r => { r with skipBp := true }) }

/-- HALT is written (R506): a tile that is halted stays so, and a strand that steps there ends its step. -/
def State.debugHalt (s : State) (t : Nat) : State :=
  if (s.tile t).dbg.halted ∧ (s.tile t).stopped then s else s.haltTile t 1

/-- RESUME is written (R506 to R508): a held decision is run before any strand issues, and withheld deltas are placed. -/
def State.debugResume (s : State) (t : Nat) : State :=
  let x := s.tile t
  if !x.dbg.halted then s
  else
    let held := x.dbg.decision
    let s := s.setTile t { x with strands := x.strands.map Strand.unhalt, dbg := { x.dbg with halted := false, decision := none } }
    let s := match held, s.ctxOf t with
      | some d, some c => s.runDecision c t d
      | _, _ => s
    (((s.placeWithheld t).restartClock t).formArrival t).passBreakpoints t

/-- STEP is written with a mask of strands (R509): the tile stays halted, and while a strand steps it counts as resumed for the clock alone
(State.clockMayRun). -/
def State.debugStep (s : State) (t mask : Nat) : State :=
  let x := s.tile t
  let steps := fun (n : BitVec 2) => bitAt mask n.toNat && (x.strand n).st == .halt && (x.strand n).before.getD .run == .run
  if !x.dbg.halted ∨ !strandIx.any steps then s
  else
    let f := fun (n : BitVec 2) =>
      let r := x.strand n
      if steps n then { r with st := .run, before := none, skipBp := true, stepping := true, stepAt := r.pc } else r
    (s.setTile t { x with strands := #v[f 0, f 1, f 2, f 3] }).restartClock t

/-- The fields XIN, XOUT and EN of a write to DCTL (R505). -/
def State.dctlFields (s : State) (t : Nat) (v : Word) : State :=
  s.setDbg t { (s.tile t).dbg with xin := v.getLsbD 17, xout := v.getLsbD 16, en := v.getLsbD 3 }

/-! ### Access -/

/-- The fields of an access command (R512). -/
def daOp (v : Word) : Nat := bitsOf v.toNat 63 60
def daStrand (v : Word) : BitVec 2 := BitVec.ofNat 2 (bitsOf v.toNat 59 58)
def daFile (v : Word) : Nat := bitsOf v.toNat 57 54
def daIndex (v : Word) : Nat := bitsOf v.toNat 47 32
def daArg (v : Word) : Nat := bitsOf v.toNat 31 0

/-- An access ends: OP returns to 0 and ST holds its outcome (R512). -/
def Debug.endAccess (d : Debug) (st : Nat) : Debug :=
  let v := d.dacc.toNat
  { d with dacc := BitVec.ofNat 64 (bitsOf v 59 54 * 2 ^ 54 + st * 2 ^ 50 + bitsOf v 47 0), tokUntil := none }

/-- A token as an access reads it (R512). -/
def Token.debugWord (k : Token) : Word :=
  BitVec.ofNat 64 ((match k.st with | .clear => 0 | .pending => 1 | .set => 2) * 256 + k.status.toNat)

/-- Part i of 64 bits of a wider value. -/
def part64 (v i : Nat) : Word := BitVec.ofNat 64 (v / 2 ^ (64 * i))

/-- A value with part i of 64 bits replaced. -/
def setPart64 (v i : Nat) (w : Word) : Nat := v - (v / 2 ^ (64 * i) % 2 ^ 64) * 2 ^ (64 * i) + w.toNat * 2 ^ (64 * i)

/-- The accumulator as an access sees it (R513): that of a running MMA at the MMA's issue. -/
def Tile.accSeen (x : Tile) (a : BitVec 3) : Acc :=
  match x.mmaq.find? (fun m => m.acc == a) with
  | some m => m.before
  | none => x.accAt a

/-- What an access reads (R512, R513); none is out of range. -/
def State.accessRead (s : State) (t : Nat) (v : Word) : Option Word :=
  let x := s.tile t
  let n := daStrand v
  let r := x.strand n
  let i := daIndex v
  match daFile v with
  | 0 => if i < 64 then some (if i = 0 then 0 else r.s.getD i 0) else none
  | 1 => if i < 256 then some (part64 (r.v.getD (i / 8) 0).toNat (i % 8)) else none
  | 2 => if i < 8 then some (if i = 0 then BitVec.allOnes 64 else r.p.getD i 0) else none
  | 3 => if i < 32 then some (part64 (r.d.getD (i / 4) 0).toNat (i % 4)) else none
  | 4 => if i < 512 then s.readReg t n i else none
  | 5 =>
    if i < 4096 then
      let a := x.accSeen (BitVec.ofNat 3 (i / 512))
      some (part64 (ofBytes (rawElem a.anc (a.elem (i % 512 / 2)))) (i % 2))
    else none
  | 6 => if i < 16 then some (r.tok (BitVec.ofNat 4 i)).debugWord else none
  | 7 => if daArg v < 2 ^ 18 ∧ daArg v % 8 = 0 then some (BitVec.ofNat 64 (x.lm (daArg v) 8)) else none
  | 8 => if i < 16 then some (part64 (x.cb.getD (i / 4) 0).toNat (i % 4)) else none
  | 9 => some (r.pc.setWidth 64)
  | _ => none

/-- The fields of a writable register that are only read (R102, R224, R271, R294): the commit fields of FLG, RAISED, BASE and LEN of SCHC, and
TAIL. -/
def roFields (i : Nat) : Word :=
  match i with
  | 10 => 0x70000
  | 22 => 8
  | 24 => 0x3FFF007FF0000
  | 260 | 261 | 262 | 263 => 0xFFFF00000000
  | _ => 0

/-- A control register written with supervisor access (R23, R512); a write that would change a field that is only read is out of range
(log entry 55). -/
def State.accessReg (s : State) (t : Nat) (n : BitVec 2) (i : Nat) (w : Word) : Option State :=
  if roFields i &&& (((s.readReg t n i).getD 0) ^^^ w) ≠ 0 then none
  else if i = 9 then
    let x := s.tile t
    some (s.setTile t (x.setStrand n { x.strand n with dt := (x.strand n).dt.set 6 (w.setWidth 32) }))
  else if i < 512 then s.writeReg t n i w else none

/-- How a write access ends (R512, R513): the outcome, and the state after it. -/
def State.accessWrite (s : State) (t : Nat) (v w : Word) : State × Nat :=
  let x := s.tile t
  let n := daStrand v
  let r := x.strand n
  let i := daIndex v
  let put := fun (y : Strand) => (s.setTile t (x.setStrand n y), 0)
  let range : State × Nat := (s, 2)
  match daFile v with
  | 0 => if i < 64 then (if i = 0 then (s, 0) else put { r with s := setAt r.s i w }) else range
  | 1 => if i < 256 then put { r with v := setAt r.v (i / 8) (BitVec.ofNat 512 (setPart64 (r.v.getD (i / 8) 0).toNat (i % 8) w)) } else range
  | 2 => if i < 8 then (if i = 0 then (s, 0) else put { r with p := setAt r.p i w }) else range
  | 3 => if i < 32 then put { r with d := setAt r.d (i / 4) (BitVec.ofNat 256 (setPart64 (r.d.getD (i / 4) 0).toNat (i % 4) w)) } else range
  | 4 => match s.accessReg t n i w with | some u => (u, 0) | none => range
  | 5 =>
    let a := BitVec.ofNat 3 (i / 512)
    if 4096 ≤ i then range
    else if x.mmaq.any (fun m => m.acc == a) then (s, 6)
    else if x.needsAccPre false a ∧ 65536 < x.retu + 2560 then (s, 3)
    else
      let acc := x.accAt a
      let e := i % 512 / 2
      let l := toBytes 16 (setPart64 (ofBytes (rawElem acc.anc (acc.elem e))) (i % 2) w)
      let anc := if i % 2 = 1 then BitVec.ofNat 16 (ofBytes ((l.drop 12).take 2)) else acc.anc
      (s.setTile t ((x.touchAcc false a).setAcc a { elems := SMap.set acc.elems e (ofRaw l), anc := anc }), 0)
  | 6 =>
    let st := bitsOf w.toNat 9 8
    if 16 ≤ i ∨ st = 3 then range
    else
      let k := BitVec.ofNat 4 i
      put (r.setTok k { r.tok k with st := if st = 0 then .clear else if st = 1 then .pending else .set, status := w.setWidth 8 })
  | 7 =>
    let a := daArg v
    if 2 ^ 18 ≤ a ∨ a % 8 ≠ 0 then range
    else if !x.retentionOk false [a / 64] then (s, 3)
    else (s.setTile t (x.storeBytes false a (toBytes 8 w.toNat)), 0)
  | 8 => if i < 16 then (s.setTile t { x with cb := setAt x.cb (i / 4) (BitVec.ofNat 256 (setPart64 (x.cb.getD (i / 4) 0).toNat (i % 4) w)) }, 0) else range
  | 9 => put { r with pc := w.setWidth 16 &&& 0xFFFC, badEntry := if w.toNat % 4 = 0 then none else some (w &&& 0xFFFF) }
  | _ => range

/-- DACC holds a command (R512); its field ST is only read (R9). -/
def State.command (s : State) (t : Nat) (v : Word) : State :=
  let st := bitsOf (s.tile t).dbg.dacc.toNat 53 50
  s.setDbg t { (s.tile t).dbg with dacc := BitVec.ofNat 64 (v.toNat - bitsOf v.toNat 53 48 * 2 ^ 48 + st * 2 ^ 50) }

/-- The access in DACC ends with an outcome, DDATA holding a value it has read (R512). -/
def State.endAccess (s : State) (t st : Nat) (data : Option Word) : State :=
  let d := (s.tile t).dbg.endAccess st
  s.setDbg t (match data with | some w => { d with ddata := w } | none => d)

/-- A read access (R512, R523). -/
def State.debugRead (s : State) (t : Nat) (v : Word) : State :=
  let s := s.command t v
  if s.hiddenTile t then s.endAccess t 5 none
  else if !(s.tile t).dbg.halted then s.endAccess t 1 none
  else match s.accessRead t v with
    | some w => s.endAccess t 0 (some w)
    | none => s.endAccess t 2 none

/-- A write access (R512, R523). -/
def State.debugWrite (s : State) (t : Nat) (v : Word) : State :=
  let s := s.command t v
  if s.hiddenTile t then s.endAccess t 5 none
  else if !(s.tile t).dbg.halted then s.endAccess t 1 none
  else
    let r := s.accessWrite t v (s.tile t).dbg.ddata
    r.1.endAccess t r.2 none

/-- A wait for a token (R512): it ends at once when the token is not PENDING. -/
def State.debugWait (s : State) (t : Nat) (v : Word) : State :=
  let s := s.command t v
  let k := ((s.tile t).strand (daStrand v)).tok (BitVec.ofNat 4 (daIndex v))
  if s.hiddenTile t then s.endAccess t 5 none
  else if 16 ≤ daIndex v then s.endAccess t 2 none
  else if k.st = .pending then s.setDbg t { (s.tile t).dbg with tokUntil := some (s.refTick (modOf t) + daArg v) }
  else s.endAccess t 0 (some k.debugWord)

/-- The token that a wait in DACC names. -/
def Tile.waitedToken (x : Tile) : Token := (x.strand (daStrand x.dbg.dacc)).tok (BitVec.ofNat 4 (daIndex x.dbg.dacc))

/-! ### Writes to the debug registers -/

/-- BTCTL is written (R515): clearing EN writes the partial line; FULL is not writable. -/
def State.writeBtctl (s : State) (t : Nat) (v : Word) : State :=
  let d := (s.tile t).dbg
  let s := if bitAt d.btCtl.toNat 0 ∧ !v.getLsbD 0 then s.branchFlush t else s
  let d := (s.tile t).dbg
  s.setDbg t { d with btCtl := (v.setWidth 8 &&& 0xF3) ||| (d.btCtl &&& 4) }

/-- ITCTL is written (R518): the count and DONE are cleared, MODE 3 is stored as 2; the records stay, and no block served before the arming
shows in the first record (R517). -/
def State.writeItctl (s : State) (t : Nat) (v : Word) : State :=
  let w := v.toNat
  let mode := min (bitsOf w 3 2) 2
  let x := s.die (dieOf t)
  let ctl := BitVec.ofNat 64 (bitsOf w 23 14 * 2 ^ 14 + mode * 4 + w % 2)
  let k := tracedCluster (dieOf t) ctl
  (s.setDie (dieOf t) { x with itctl := ctl, itcount := 0, itcycles := 0, itleft := none }).setCluster k { s.cluster k with served := none }

/-- DROPD is written (R514): a bit written 1 is cleared. -/
def State.writeDropd (s : State) (t : Nat) (v : Word) : State :=
  let d := (s.tile t).dbg
  s.setDbg t { d with skip := d.skip &&& ~~~(BitVec.ofNat 32 (v.toNat / 2 ^ 32)), stale := d.stale &&& ~~~(v.setWidth 32) }

/-- A write to a debug register, or to the fields of DCTL, that has no behaviour of its own (R504, R505, R510, R511, R515, R518); a buffer that is no longer full
records again (log entry 16). -/
def State.writePlain (s : State) (t r : Nat) (v : Word) : State :=
  let d := (s.tile t).dbg
  let refill := fun (d : Debug) => if d.btPtr.toNat < d.btLim.toNat then { d with btCtl := d.btCtl &&& 0xFB } else d
  match r with
  | 576 => s.dctlFields t v
  | 578 => s.setDbg t { d with ddata := v }
  | 605 => s.setDbg t { d with btBase := BitVec.ofNat 64 (v.toNat / 64 * 64) }
  | 606 => s.setDbg t (refill { d with btLim := BitVec.ofNat 64 (v.toNat / 64 * 64) })
  | 607 => s.setDbg t (refill { d with btPtr := v })
  | 613 => if tracePort t then
      s.setDie (dieOf t) { s.die (dieOf t) with ittrig := BitVec.ofNat 64 (bitsOf v.toNat 63 56 * 2 ^ 56 + v.toNat % 2 ^ 22) } else s
  | _ =>
    if 580 ≤ r ∧ r ≤ 595 then s.setDbg t { d with ibp := setAt d.ibp (r - 580) (v &&& 0x800000000000FFFC) }
    else if 596 ≤ r ∧ r ≤ 599 then s.setDbg t { d with wpa := setAt d.wpa (r - 596) v }
    else if 600 ≤ r ∧ r ≤ 603 then
      s.setDbg t { d with wpc := setAt d.wpc (r - 600) (BitVec.ofNat 64 (bitsOf v.toNat 7 4 * 16 + min (v.toNat % 16) 12)) }
    else s

/-- A write through the debug port (R504, R505, R512): an unassigned number, a register that is only read, and every register of a
tile of a protected context but DACC take no effect. -/
def State.portWrite (s : State) (t r : Nat) (v : Word) : State :=
  if r = 577 then
    (match daOp v with
    | 1 => s.debugRead t v
    | 2 => s.debugWrite t v
    | 3 => s.debugWait t v
    | _ => if s.hiddenTile t then (s.command t v).endAccess t 5 none else s.command t v)
  else if s.hiddenTile t then s
  else match r with
    | 576 =>
      let u := s.dctlFields t v
      if v.getLsbD 0 then u.debugHalt t
      else if v.getLsbD 1 then u.debugResume t
      else if bitsOf v.toNat 15 12 = 0 then u else u.debugStep t (bitsOf v.toNat 15 12)
    | 604 => s.writeDropd t v
    | 608 => s.writeBtctl t v
    | 612 => if tracePort t then s.writeItctl t v else s
    | _ => s.writePlain t r v

/-- The tile of an event has debug registers that the port may reach (R504, R523). -/
def State.portOpen (s : State) : Bool := !isMgmt s.ev.tile && !s.hiddenTile s.ev.tile

/-- DCTL_HALT (R505, R506): State.ev.value is written to DCTL with HALT = 1. -/
def execDctlHalt (s : State) : Host.Outcome State Fault Refusal :=
  .next (if s.portOpen then (s.dctlFields s.ev.tile s.ev.value).debugHalt s.ev.tile else s)

/-- DCTL_RESUME (R505 to R508): State.ev.value is written to DCTL with RESUME = 1. -/
def execDctlResume (s : State) : Host.Outcome State Fault Refusal :=
  .next (if s.portOpen then (s.dctlFields s.ev.tile s.ev.value).debugResume s.ev.tile else s)

/-- DCTL_STEP (R505, R509): State.ev.value is written to DCTL, its bits 15:12 naming strands. -/
def execDctlStep (s : State) : Host.Outcome State Fault Refusal :=
  .next (if s.portOpen then (s.dctlFields s.ev.tile s.ev.value).debugStep s.ev.tile (bitsOf s.ev.value.toNat 15 12) else s)

/-- HALT_REQUEST (R507): the request at place State.ev.i of the messages reaches its tile; it halts no tile of another context. -/
def execHaltRequest (s : State) : Host.Outcome State Fault Refusal :=
  match s.net[s.ev.i]? with
  | some (.haltRequest t c) =>
    let u : State := { s with net := listDel s.net s.ev.i }
    .next (if u.ctxOf t = some c ∧ (u.tile t).dbg.xin ∧ !(u.tile t).dbg.halted then u.haltTile t 6 else u)
  | _ => .next s

/-- DACC_READ (R512, R513): State.ev.value is written to DACC with OP 1. -/
def execDaccRead (s : State) : Host.Outcome State Fault Refusal :=
  .next (if isMgmt s.ev.tile then s else s.debugRead s.ev.tile s.ev.value)

/-- DACC_WRITE (R512, R513): State.ev.value is written to DACC with OP 2. -/
def execDaccWrite (s : State) : Host.Outcome State Fault Refusal :=
  .next (if isMgmt s.ev.tile then s else s.debugWrite s.ev.tile s.ev.value)

/-- DACC_WAIT_TOKEN (R512): State.ev.value is written to DACC with OP 3; or, with ok false, the wait in DACC ends because its token
is no longer PENDING. -/
def execDaccWaitToken (s : State) : Host.Outcome State Fault Refusal :=
  let t := s.ev.tile
  if isMgmt t then .next s
  else if s.ev.ok then .next (s.debugWait t s.ev.value)
  else
    let x := s.tile t
    if x.dbg.tokUntil.isSome ∧ x.waitedToken.st ≠ .pending then .next (s.endAccess t 0 (some x.waitedToken.debugWord)) else .next s

/-- DACC_WAIT_TIMEOUT (R512): the wait of tile State.ev.tile has lasted its ticks. -/
def execDaccWaitTimeout (s : State) : Host.Outcome State Fault Refusal :=
  let t := s.ev.tile
  let x := s.tile t
  match x.dbg.tokUntil with
  | some d =>
    if s.refTick (modOf t) < d then .next s
    else .next (s.endAccess t (if x.waitedToken.st = .pending then 4 else 0) (some x.waitedToken.debugWord))
  | none => .next s

/-- DROPD_WRITE (R514). -/
def execDropdWrite (s : State) : Host.Outcome State Fault Refusal :=
  .next (if s.portOpen then s.writeDropd s.ev.tile s.ev.value else s)

/-- ITCTL_WRITE (R518): through the port of tile State.ev.tile. -/
def execItctlWrite (s : State) : Host.Outcome State Fault Refusal :=
  .next (if s.portOpen && tracePort s.ev.tile then s.writeItctl s.ev.tile s.ev.value else s)

/-- BTCTL_WRITE (R515). -/
def execBtctlWrite (s : State) : Host.Outcome State Fault Refusal :=
  .next (if s.portOpen then s.writeBtctl s.ev.tile s.ev.value else s)

/-- ISSUE_TRACE_STOP (R518): the records after the trigger of die State.ev.i have run out. -/
def execIssueTraceStop (s : State) : Host.Outcome State Fault Refusal :=
  let x := s.die s.ev.i
  .next (if x.itleft = some 0 then s.setDie s.ev.i { x with itctl := x.itctl ||| 2 } else s)

/-- REGISTER_WRITE (R480, R504): State.ev.value is written to register State.ev.i of tile State.ev.tile, a supervisor register by
the supervisor of the tile's module. -/
def execRegisterWrite (s : State) : Host.Outcome State Fault Refusal :=
  let r := s.ev.i
  .next (if r = 512 ∨ r = 513 then (s.writeSup (modOf s.ev.tile) r s.ev.value).getD s
    else if s.portOpen then s.writePlain s.ev.tile r s.ev.value else s)

/-! ### The clock and the egress queue of a context -/

/-- CONTEXT_CLOCK_STOP (R228, R442): the clock of context State.ev.i stops after a halt or a hold. -/
def execContextClockStop (s : State) : Host.Outcome State Fault Refusal :=
  let c := s.ev.i
  .next (if s.hasCtx c && !s.clockMayRun c then s.setCtx c { s.ctx c with running := false } else s)

/-- The module that a delta goes out to through the Axlos of module m, if it leaves module m: deltas and messages to tiles of another module
and global deltas to other modules and to MIRROR partners (R225), p the partner of its context's home module. -/
def Delta.leaves (d : Delta) (m p : Nat) : Bool :=
  modOf d.srcTile == m && (match d.dest with
    | .tile t => modOf t != m
    | .memory w mirror => w != m || (mirror && p != m)
    | .axlos w _ => w != m)

/-- Traffic of the context is under way that leaves module m, or that a push delta or a SEND there can still cause (R225). -/
def State.leaves (s : State) (c m : Nat) : Bool :=
  s.net.any (fun g => match g with | .delta d => d.ctx == c && (d.leaves m (s.ctx c).partner || (match d.dest with | .axlos _ _ => modOf d.srcTile == m | _ => false)) | _ => false) ||
    (s.ctx c).pushes.any (fun p => modOf p.1.srcTile == m) ||
    (s.mod m).threads.any (fun t => t.2.posted.any (fun p => match p with | .send _ _ _ _ => true | _ => false) &&
      s.insts.any (fun i => i.id == t.2.inst && i.ctx == c))

/-- The modules in which a context's egress queue has bytes to send, or RAISED of one of its tiles does not tell how the queue stands
(R225). -/
def State.egressModules (s : State) (c : Nat) : List Nat :=
  let x := s.ctx c
  let ms := ((s.ctxTiles c).map modOf).eraseDups
  ms.filter (fun m => (SMap.find x.egress m).isSome || (s.ctxTiles c).any (fun t => modOf t == m &&
    (s.tile t).strands.toList.any (fun r => r.raised != x.egressLow m)))

/-- EGRESS_QUEUE_CHANGE (R225): the egress queue of context State.ev.i in module State.ev.m holds State.ev.value bytes, none when nothing
that it counts is under way, and RAISED follows in the context's tiles there (log entry 17). -/
def execEgressQueueChange (s : State) : Host.Outcome State Fault Refusal :=
  let c := s.ev.i
  let x := s.ctx c
  if !s.hasCtx c then .next s
  else
    let n := if s.leaves c s.ev.m then s.ev.value.toNat else 0
    let u := s.setCtx c { x with egress := if n = 0 then SMap.del x.egress s.ev.m else SMap.set x.egress s.ev.m n }
    let up := (u.ctx c).egressLow s.ev.m
    .next (((u.ctxTiles c).filter (fun t => modOf t == s.ev.m)).foldl (fun (v : State) t =>
      v.setTile t { v.tile t with strands := (v.tile t).strands.map (fun r => { r with raised := up }) }) u)

end Sys2Proof.Machine
end

