-- ==== Sys2Proof/Machine/Host.lean ====
section
/-! DEFINITION. The host (20_module_host.md R489 to R498, 14_consistency.md R358 to R361): accesses through the attach, the mailbox
requests, what Lull's report and the end of a scrub bring about, and the supervisor's service of an SVC (R488). What the supervisor
does for a request is one step here, taken when everything it waits for has come about (log entry 15). -/
namespace Sys2Proof.Machine

/-! ### The address map of the attach -/

/-- What a host access of n bytes reaches (R489). -/
inductive HostPlace where
  | mailbox (off : Nat)
  | attach (off : Nat)
  | notices (off : Nat)
  | debug (tile reg : Nat)
  | staging (off : Nat)
  | window (c va : Nat)
  | nothing
deriving DecidableEq, Repr

/-- The span lies in one range. -/
def inRange (a n lo size : Nat) : Bool := decide (lo ≤ a) && decide (a + n ≤ lo + size)

/-- The map of R489 in module m; in recovery only mailbox 0 and the staging area answer (R529). The debug port takes aligned
accesses of 8 bytes; tile p and register r stand at 0x10_0000 + 4,096p + 8(r - 512) (R504). -/
def State.hostPlace (s : State) (m a n : Nat) : HostPlace :=
  let p := (a - 0x100000) / 4096
  let c := (a - 2 ^ 56) / 2 ^ 48
  if inRange a n 0 0x10000 then
    if (s.mod m).recovery ∧ 4096 < a + n then .nothing else .mailbox a
  else if inRange a n 0x10000000000 (2 ^ 36) then .staging (a - 0x10000000000)
  else if (s.mod m).recovery then .nothing
  else if inRange a n 0x10000 4096 then .attach (a - 0x10000)
  else if inRange a n 0x11000 32768 then .notices (a - 0x11000)
  else if 0x100000 ≤ a ∧ a < 0x10000000000 ∧ ptidExists p ∧ n = 8 ∧ a % 8 = 0 then .debug (2 ^ 18 * m + p) (512 + a % 4096 / 8)
  else if 2 ^ 56 ≤ a ∧ s.hasCtx c ∧ (s.ctx c).home = m ∧ (s.ctx c).tearOps.isNone ∧ inRange a n (2 ^ 56 + 2 ^ 48 * c) (2 ^ 47) then
    .window c (a % 2 ^ 48)
  else .nothing

/-- HREF counts one more (R489, R490). -/
def State.countHref (s : State) (m : Nat) : State := s.setMod m { s.mod m with href := sat32 (s.mod m).href }

/-- A refused host access is counted in HREF, and its completion is an unsupported request (R489). -/
def State.refuseHost (s : State) (m : Nat) : State := s.setMod m { s.mod m with href := sat32 (s.mod m).href, unsupported := true }

/-- A host access begins: its completion is not an unsupported request unless it is refused (R489). -/
def State.hostAccess (s : State) (m : Nat) : State := s.setMod m { s.mod m with unsupported := false }

/-- The attach registers (R489): HREF, and the head and the tail of the notice queue (log entry 40). -/
def Module.attachBytes (md : Module) : List Byte := toBytes 8 md.href.toNat ++ toBytes 8 md.noticeHead ++ toBytes 8 md.noticeTail

/-- The bytes of the notice queue: notice i stands in place i modulo 1,024 while it is among the last 1,024 (R490). -/
def Module.noticeByte (md : Module) (off : Nat) : Byte :=
  let first := md.noticeTail - md.notices.length
  let at_ := (span 0 md.notices.length).find? (fun i => (first + i) % 1024 == off / 32)
  match at_ with
  | some i => BitVec.ofNat 8 ((md.notices.getD i 0).toNat / 2 ^ (8 * (off % 32)))
  | none => 0

/-! ### Memory windows -/

/-- The leaf and the physical address of a host access through the tables of the home module, whatever the page's R and W; none
for a page without HOST, a quarantined page or no valid leaf (R489). -/
def State.hostLeaf (s : State) (c va : Nat) : State × Option (Nat × Nat) :=
  match s.walkAny c (s.ctx c).home va with
  | (u, some (leaf, size)) => (u, if lfHost leaf then some (leaf, lfPa leaf + va % size) else none)
  | (u, none) => (u, none)

/-- The host may reach every page of the n bytes at va. -/
def State.windowOpen (s : State) (c va n : Nat) : Bool :=
  (linesOf va n).all (fun k => (s.hostLeaf c (64 * k)).2.isSome)

/-- The latest write to a byte that stands in the log (R359). -/
def Ctx.loggedByte (x : Ctx) (va : Nat) : Option Byte :=
  x.hostLog.reverse.findSome? (fun w => if w.va ≤ va then w.data[va - w.va]? else none)

/-- The latest host write to a byte that has left the log for its base die and is not yet applied there (R359, R360). -/
def Stack.loggedByte (x : Stack) (c pa : Nat) : Option Byte :=
  x.tbuf.reverse.findSome? (fun d =>
    match d.body with
    | .store a mask data =>
      if d.isHost ∧ d.ctx = c ∧ a ≤ pa ∧ pa < a + 64 ∧ mask.getLsbD (pa - a) = true then some (BitVec.ofNat 8 (data.toNat / 2 ^ (8 * (pa - a))))
      else none
    | _ => none)

/-- A host read of part of a line (R358, R359): a line of a MIRROR page reads as it was until its array acknowledgements have arrived; a poisoned line gives values the architecture does not fix (log entry 4). -/
def State.windowPart (s : State) (c va n : Nat) : State × List Byte :=
  match s.hostLeaf c va with
  | (u, none) => (u, List.replicate n 0xFF)
  | (u, some (leaf, pa)) =>
    let m := lfModule leaf
    let r := u.readPhys m pa n (u.partnerOf c leaf) none 0 (lfKslot leaf)
    let seen := match (u.ctx c).olds.find? (fun o => o.module == m && o.line == pa / 64) with
      | some o => (o.poison, r.1.cipher false m (lfKslot leaf) (pa / 64) o.bytes.toNat / 2 ^ (8 * (pa % 64)))
      | none => (r.2.2, r.2.1)
    let plain := if seen.1 then (span 0 n).map (fun i => Config.freeByte (r.1.free + i)) else toBytes n seen.2
    let k := r.1.stackAt m (placeOf pa).stack
    let byte := fun (i : Nat) => match (r.1.ctx c).loggedByte (va + i) with
      | some b => b
      | none => (k.loggedByte c (pa + i)).getD (plain.getD i 0)
    ({ r.1 with free := r.1.free + n }, (span 0 n).map byte)

/-- A host read of a window, line by line. -/
def State.windowRead (s : State) (c va n : Nat) : State × List Byte :=
  (linesOf va n).foldl (fun (r : State × List Byte) k =>
    let lo := max va (64 * k)
    let q := r.1.windowPart c lo (min (va + n) (64 * k + 64) - lo)
    (q.1, r.2 ++ q.2)) (s, [])

/-- The bytes in a context's host-write log. -/
def Ctx.logUsed (x : Ctx) : Nat := (x.hostLog.map (fun w => w.data.length)).foldl (· + ·) 0

/-! ### HOST_READ and HOST_WRITE -/

/-- What a host read of module m at address a of n bytes answers (R489); a refused one answers all ones. -/
def State.hostRead (s : State) (m a n : Nat) : State × List Byte :=
  match s.hostPlace m a n with
  | .mailbox o => (s, Memory.bytes (s.mod m).mbox o n)
  | .attach o => (s, (span o n).map (fun i => (s.mod m).attachBytes.getD i 0))
  | .notices o => (s, (span o n).map (s.mod m).noticeByte)
  | .debug t r => (s, toBytes 8 (s.readDebug t r).toNat)
  | .staging o => (s, Memory.bytes (s.mod m).staging o n)
  | .window c va => if s.windowOpen c va n then s.windowRead c va n else (s.refuseHost m, List.replicate n 0xFF)
  | .nothing => (s.refuseHost m, List.replicate n 0xFF)

/-- HOST_READ (R358, R359, R489): State.ev.i bytes at address State.ev.value of module State.ev.m; the answer stands in the module. -/
def execHostRead (s : State) : Host.Outcome State Fault Refusal :=
  let m := s.ev.m
  if s.ev.i = 0 then .next s
  else
    let r := (s.hostAccess m).hostRead m s.ev.value.toNat s.ev.i
    .next (r.1.setMod m { r.1.mod m with answer := r.2 })

/-- A write of the attach registers: HREF clears the bits written 1, and the head of the notice queue moves; the tail is only
read. -/
def State.attachWrite (s : State) (m o : Nat) (l : List Byte) : State :=
  if l.length ≠ 8 then s
  else if o = 0 then s.writeHref m (BitVec.ofNat 64 (ofBytes l))
  else if o = 8 then s.setMod m { s.mod m with noticeHead := ofBytes l }
  else s

/-- A host write at address a of module m (R359, R489). -/
def State.hostWrite (s : State) (m a : Nat) (l : List Byte) : State :=
  let md := s.mod m
  match s.hostPlace m a l.length with
  | .mailbox o =>
    if (span (o / 4096) ((o + l.length - 1) / 4096 + 1 - o / 4096)).any (fun b => Memory.read md.mbox (4096 * b + 2) == 1) then s.refuseHost m
    else s.setMod m { md with mbox := Memory.writeBytes md.mbox o l }
  | .attach o => s.attachWrite m o l
  | .notices _ => s
  | .debug t r => s.portWrite t r (BitVec.ofNat 64 (ofBytes l))
  | .staging o => s.setMod m { md with staging := Memory.writeBytes md.staging o l }
  | .window c va =>
    if !s.windowOpen c va l.length then s.refuseHost m
    else
      let x := s.ctx c
      if x.logSize * 2 ^ 20 < x.logUsed + l.length then s
      else s.setCtx c { x with hostLog := x.hostLog ++ [{ va := va, data := l, synced := false }] }
  | .nothing => s.refuseHost m

/-- HOST_WRITE (R359, R489): the bytes State.ev.bytes at address State.ev.value of module State.ev.m. The attach holds a write to a
full log, until a commit has drained it. -/
def execHostWrite (s : State) : Host.Outcome State Fault Refusal :=
  .next (if s.ev.bytes = [] then s else (s.hostAccess s.ev.m).hostWrite s.ev.m s.ev.value.toNat s.ev.bytes)

/-! ### Mailboxes -/

/-- A field of a mailbox, and n bytes of its body. -/
def State.boxNum (s : State) (m box o n : Nat) : Nat := Memory.num (s.mod m).mbox (4096 * box + o) n
def State.boxBody (s : State) (m box o n : Nat) : List Byte := Memory.bytes (s.mod m).mbox (4096 * box + 64 + o) n

/-- The request of the kind in mailbox State.ev.th of module State.ev.m is taken (R490, R529): a message-signal for a mailbox of the
host is counted and ignored, a new request is announced by MAILBOX, a kind that the device does not accept gives INVALID, and with
true the request is to be served. -/
def State.takeRequest (s : State) (kind : Nat) : State × Bool :=
  let m := s.ev.m
  let box := s.ev.th
  let md := s.mod m
  let k := s.boxNum m box 0 2
  if 16 ≤ box ∨ (md.recovery ∧ box ≠ 0) then (s, false)
  else if s.boxNum m box 2 1 ≠ 1 then (s.countHref m, false)
  else
    let u := if md.pending.contains box then s
      else
        let v := s.setMod m { md with pending := md.pending ++ [box] }
        if md.recovery then v else v.moduleEvent m 0x0015 box (s.boxNum m box 4 4)
    let known := if md.recovery then k == 8 || k == 10 || k == 11 else decide (1 ≤ k) && decide (k ≤ 9)
    if !known then (u.postResult m box 1 0, false) else (u, k == kind)

/-- A request is served by f in its module and mailbox. -/
def State.serveRequest (s : State) (kind : Nat) (f : State → Nat → Nat → State) : Host.Outcome State Fault Refusal :=
  let r := s.takeRequest kind
  .next (if r.2 then f r.1 s.ev.m s.ev.th else r.1)

/-- A request that names a context in byte 0 of its body; NOCTX when there is none. -/
def State.ofCtx (f : State → Nat → Nat → Nat → State) (s : State) (m box : Nat) : State :=
  let c := ofBytes (s.boxBody m box 0 1)
  if s.hasCtx c then f s m box c else s.postResult m box 2 0

/-- The host-sync of a mailbox is on its way to the root of a context (R360). -/
def State.syncInFlight (s : State) (c m box : Nat) : Bool :=
  s.net.any (fun g => match g with | .sync d w b => d == c && w == m && b == box | _ => false)

/-- HOST_SYNC (R360, R491): the writes in the log are synced, and the host-sync goes on to the root of the context; with nothing in the
log, it ends once the commits under way have applied. -/
def State.hostSync (s : State) (m box c : Nat) : State :=
  let x := s.ctx c
  if x.syncBox.contains (m, box) ∨ x.syncNow.contains (m, box) ∨ s.syncInFlight c m box then s
  else if x.hostLog = [] then (s.setCtx c { x with syncNow := x.syncNow ++ [(m, box)] }).answerSyncs c
  else (s.setCtx c { x with hostLog := x.hostLog.map (fun w => { w with syncs := w.syncs ++ [(m, box)] }) }).send (.sync c m box)

/-- HOST_SYNC (R360, R491). -/
def execHostSync (s : State) : Host.Outcome State Fault Refusal := s.serveRequest 2 (State.ofCtx State.hostSync)

/-- RECORD (R298, R317, R491): byte 9 of the body is the KIND of the record, 1 for an EOS record, which has no payload (log entry 54). -/
def State.hostRecord (s : State) (m box c : Nat) : State :=
  let f := fun (o n : Nat) => ofBytes (s.boxBody m box o n)
  let x := s.ctx c
  let q := BitVec.ofNat 2 (f 8 1)
  let len := f 16 2
  let kind := f 9 1
  if x.tiles ≤ f 4 4 ∨ 3 < f 8 1 ∨ 2048 < len ∨ 1 < kind ∨ (kind = 1 ∧ len ≠ 0) then s.postResult m box 1 0
  else match x.tileOf (f 4 4) with
    | none => s.postResult m box 3 0
    | some t =>
      if !x.resident ∨ s.ctxOf t ≠ some c ∨ (s.cluster (clusterOf t)).lost ∨ (s.cluster (clusterOf t)).gone then s.postResult m box 3 0
      else
        let rec_ := recordBytes len kind 1 (f 12 4) 0 0 (s.boxBody m box 64 len)
        let y := s.tile t
        if !y.ringExists false q ∨ qSize (y.qcfgAt q) < rec_.length then s.postResult m box 4 0
        else
          let z := y.appendRecord q rec_
          if 262144 < z.spillUsed then s.postResult m box 4 0 else (s.setTile t z).postResult m box 0 0

/-- RECORD (R298, R361, R491). -/
def execRecord (s : State) : Host.Outcome State Fault Refusal := s.serveRequest 3 (State.ofCtx State.hostRecord)

/-- PREEMPT (R446, R491): the pre-emption request is set; a context that is held already goes on at Lull's report. -/
def State.hostPreempt (s : State) (m box c : Nat) : State :=
  let x := s.ctx c
  if x.preBox = some (m, box) then s
  else if !x.resident then s.postResult m box 3 0
  else if x.preBox.isSome ∨ x.tear.isSome then s.postResult m box 4 0
  else s.setCtx c { x with preBox := some (m, box), preempt := if x.held then x.preempt else some (x.clock + BitVec.ofNat 48 x.plim) }

/-- PREEMPT (R446, R491). -/
def execPreempt (s : State) : Host.Outcome State Fault Refusal := s.serveRequest 4 (State.ofCtx State.hostPreempt)

/-! ### Placing a context on clusters -/

/-- The cluster can be bound to a context of the owner (R270, R484). -/
def State.clusterFree (s : State) (owner : Word) (k : Nat) : Bool :=
  let x := s.cluster k
  ptidExists (16 * (k % 16384)) && x.ctx.isNone && !x.lost && !x.quar && !x.failed && x.released && !x.fenced &&
    (x.owner == 0 || x.owner == owner)

/-- GRPM of a virtual tile (R293). -/
def Ctx.grpmOf (x : Ctx) (v : Nat) : Word := x.groups.foldl (fun w e => grpmSet w e.1 (e.2.contains v)) 0

/-- The tile-wide launch values of a tile (R268, R456, R491). -/
def Ctx.launchTile (x : Ctx) (y : Tile) : Tile :=
  let f := fun (o : Nat) => BitVec.ofNat 64 (blockNum x.launch o 8)
  let v := y.vtid.toNat
  let sched := fun (n : BitVec 2) => x.schedule v n (y.strand n)
  let y := { y with strands := #v[sched 0, sched 1, sched 2, sched 3], rega0 := f 192, rega1 := f 200, grpm := x.grpmOf v }
  strandIx.foldl (fun (y : Tile) q =>
    let v := f (208 + 8 * q.toNat)
    { y.setQcfg q (qPack (qHead v) (qTail v) (qEn v) (qLog v) (qBase v)) with chead := setAt y.chead q.toNat (BitVec.ofNat 16 (qHead v)) }) y

/-- Virtual cluster v of the context gets its code and CLIM in cluster k (R266 step 5, R456). -/
def State.placeCode (s : State) (c v k : Nat) : State :=
  let x := s.ctx c
  if x.launch ≠ [] then s.storeCode k (x.images.getD 0 [])
  else match SMap.find x.startCode v with
    | some (store, clim) => s.setCluster k { s.cluster k with store := store, clim := clim, errs := [] }
    | none => s

/-- Virtual cluster v of the context is placed on cluster k with its code and its launch values (R266 steps 4 to 6, R456); a cluster that it
holds already stays bound. -/
def State.placeCluster (s : State) (c v k : Nat) : State :=
  let u := if (s.cluster k).ctx = some c then s else s.bindCluster k c
  let u := (u.mapCluster c v k).placeCode c v k
  (tilesOf k).foldl (fun (w : State) t => w.setTile t ((w.ctx c).launchTile (w.tile t))) u

/-- The context is placed on the clusters ks, virtual cluster v on place v of the list. -/
def State.placeCtx (s : State) (c : Nat) (ks : List Nat) : State :=
  (span 0 ks.length).foldl (fun (u : State) v => u.placeCluster c v (ks.getD v 0)) s

/-- The local image stands in every tile of the clusters from address 0, with its line descriptors (R78, R266 step 6, log entry 53). -/
def State.placeLocal (s : State) (c : Nat) (ks : List Nat) : State :=
  ks.foldl (fun (u : State) k => u.storeLocal (tilesOf k) 0 ((u.ctx c).images.getD 1 []) ((u.ctx c).images.getD 5 [])) s

/-- The launch state of the context stands in the tiles of its clusters (R464): its local image, or the tiles as START found them where no
launch request made it. -/
def State.placeStart (s : State) (c : Nat) (ks : List Nat) : State :=
  let x := s.ctx c
  if x.launch ≠ [] then s.placeLocal c ks
  else (ks.flatMap tilesOf).foldl (fun (u : State) t =>
    let y := u.tile t
    match SMap.find x.startTiles y.vtid.toNat with
    | some z => u.setTile t { z with vtid := y.vtid, ewin := y.ewin, ethr := y.ethr, ecnt := y.ecnt, winAt := y.winAt, latacc := y.latacc,
                                     dbg := y.dbg, errs := [] }
    | none => u) s

/-! ### LAUNCH -/

/-- What a check of a context's tables finds (R329, R492): a fault, the leaves, and the tables by offset and number of entries. -/
structure TableScan where
  bad    : Bool
  leaves : List Nat
  tables : List (Nat × Nat)
deriving DecidableEq, Repr

/-- The tables below offset o, read by rd; levels lists those that remain. -/
def scanTables (rd : Nat → Nat) (limit : Nat) : List Nat → Nat → TableScan
  | [], _ => { bad := true, leaves := [], tables := [] }
  | lvl :: r, o =>
    let n := if lvl = 4 then 32 else 512
    if limit < o + 8 * n then { bad := true, leaves := [], tables := [] }
    else (span 0 n).foldl (fun (acc : TableScan) i =>
      let e := rd (o + 8 * i)
      if !lfV e then acc
      else if (lfLeaf e && lvl == 1) || (!lfLeaf e && lvl == 4) || malformed lvl e then { acc with bad := true }
      else if lfLeaf e then { acc with leaves := acc.leaves ++ [e + 2 ^ 64 * pageSize lvl] }
      else
        let b := scanTables rd limit r (lfPa e)
        { bad := acc.bad || b.bad, leaves := acc.leaves ++ b.leaves, tables := acc.tables ++ b.tables })
      { bad := false, leaves := [], tables := [(o, n)] }

/-- A leaf of a scan and its page size. -/
def scanLeaf (e : Nat) : Nat := e % 2 ^ 64
def scanSize (e : Nat) : Nat := e / 2 ^ 64

/-- The tables of a page-table image. -/
def imageScan (img : List Byte) : TableScan := scanTables (fun o => blockNum img o 8) img.length [1, 2, 3, 4] 0

/-- The tables of a context as they stand in its home module. -/
def State.tableScan (s : State) (c : Nat) : TableScan :=
  scanTables (fun o => Memory.num (s.mod (s.ctx c).home).mem o 8) (2 ^ 48) [1, 2, 3, 4] (s.ctx c).root

/-- The page-table image as it stands at a root: each non-leaf PA becomes a physical address (R492). -/
def rebase (img : List Byte) (root : Nat) : Memory :=
  (imageScan img).tables.foldl (fun (mem : Memory) t =>
    (span 0 t.2).foldl (fun (mem : Memory) i =>
      let o := t.1 + 8 * i
      let e := blockNum img o 8
      if lfV e ∧ !lfLeaf e then Memory.setNum mem (root + o) 8 (e + root) else mem) mem) (Memory.writeBytes [] root img)

/-- The modules that hold a copy of the tables (R328, R477, R492): the home, whose attach walks them for the host, those of the clusters,
and the partner module when a page has MIRROR. -/
def tableModules (m : Nat) (ks : List Nat) (partner : Option Nat) : List Nat := (m :: ks.map (fun k => k / 16384) ++ partner.toList).eraseDups

/-- The partner module of a context whose tables have the leaves given, if one of them has MIRROR (R477). -/
def mirrorPartner (x : Ctx) (leaves : List Nat) : Option Nat := if leaves.any (fun e => lfMirror (scanLeaf e)) then some x.partner else none

/-- The tables of the home module are copied to the modules of the clusters ks that have none (R328): the supervisor keeps the copies
identical. -/
def State.copyTables (s : State) (c : Nat) (ks : List Nat) : State :=
  let x := s.ctx c
  let scan := s.tableScan c
  ((tableModules x.home ks (mirrorPartner x scan.leaves)).drop 1).foldl (fun (u : State) w =>
    scan.tables.foldl (fun (v : State) t => v.poke w t.1 (Memory.bytes (s.mod x.home).mem t.1 (8 * t.2))) u) s

/-- Bytes of one line are written as a page with a key slot stores them: read, changed and written back (R337). -/
def State.pokeKeyed (s : State) (m pa kslot : Nat) (l : List Byte) : State :=
  if kslot = 0 then s.poke m pa l
  else
    let line := pa / 64
    let old := Memory.setNum [] 0 64 (s.physNum m (64 * line) 64 kslot)
    s.poke m (64 * line) (toBytes 64 (s.cipher true m kslot line (Memory.num (Memory.writeBytes old (pa % 64) l) 0 64)))

/-- A line of a data image is placed, in both copies of a MIRROR page; false when no valid leaf covers it (R492). -/
def State.placeBytes (s : State) (c va : Nat) (l : List Byte) (descs : Bool) : State × Bool :=
  match s.walkAny c (s.ctx c).home va with
  | (u, none) => (u, false)
  | (u, some (leaf, size)) =>
    if descs ∧ !lfDesc leaf then (u, false)
    else
      let pa := lfPa leaf + va % size
      let m := lfModule leaf
      let clean := fun (u : State) (w : Nat) => if l.length = 64 then u.cleanLine w (placeOf pa).stack (pa / 64) else u
      let u := clean (u.pokeKeyed m pa (lfKslot leaf) l) m
      (match u.partnerOf c leaf with
        | some w => if w = m then u else clean (u.poke w (pa / 64 * 64) (Memory.bytes (u.mod m).mem (pa / 64 * 64) 64)) w
        | none => u, true)

/-- One entry of the data-image list is placed (R492). -/
def State.placeData (s : State) (c : Nat) (e : List Byte) (data descs : List Byte) : State × Bool :=
  let f := fun (o n : Nat) => ofBytes ((e.drop o).take n)
  let has := f 24 8 != 2 ^ 64 - 1
  (span 0 (f 16 4 / 64)).foldl (fun (r : State × Bool) i =>
    if !r.2 then r
    else
      let va := f 0 8 + 64 * i
      let a := r.1.placeBytes c va ((data.drop (64 * i)).take 64) has
      if !a.2 ∨ !has then a
      else a.1.placeBytes c (descVa va) ((descs.drop (2 * i)).take 2) false) (s, true)

/-- A LAUNCH request with its images read from the staging area. -/
structure LaunchReq where
  body    : List Byte
  code    : List Byte
  local_  : List Byte
  bitmaps : List Byte
  pt      : List Byte
  list    : List Byte
  data    : List (List Byte × List Byte)
  /-- the line descriptors of the local image (log entry 53) -/
  descs   : List Byte
deriving DecidableEq, Repr

/-- The request of a mailbox (R491, R492). -/
def State.launchReq (s : State) (m box : Nat) : LaunchReq :=
  let body := s.boxBody m box 0 272
  let f := blockNum body
  let st := fun (o n : Nat) => Memory.bytes (s.mod m).staging o n
  let list := st (f 256 8) (f 264 4)
  { body := body, code := st (f 128 8) (f 136 4), local_ := st (f 144 8) (f 152 4), bitmaps := st (f 168 8) (f 176 1 * ((f 0 4 + 7) / 8)),
    pt := st (f 240 8) (f 248 4), list := list,
    data := (chunksOf 32 (list.length / 32) list).map (fun e =>
      (st (blockNum e 8 8) (blockNum e 16 4), if blockNum e 24 8 = 2 ^ 64 - 1 then [] else st (blockNum e 24 8) (blockNum e 16 4 / 32)))
    descs := s.ev.bytes.take (2 * (linesOf 0 (f 152 4)).length) }

/-- The group table of the request: bitmap i is group i (log entry 41). -/
def LaunchReq.groups (q : LaunchReq) : SMap (List Nat) :=
  let tiles := blockNum q.body 0 4
  (span 0 (blockNum q.body 176 1)).filterMap (fun g =>
    match bitmapMembers (q.bitmaps.drop (g * ((tiles + 7) / 8))) tiles with
    | [] => none
    | l => some (g, l))

/-- An entry of the data-image list is malformed (R492). -/
def badData (e : List Byte) : Bool :=
  let f := blockNum e
  f 0 8 % 64 != 0 || decide (2 ^ 47 < f 0 8 + f 16 4) || f 16 4 % 64 != 0 || f 20 4 != 0 || decide (2 ^ 36 < f 8 8 + f 16 4) ||
    (f 24 8 != 2 ^ 64 - 1 && decide (2 ^ 36 < f 24 8 + f 16 4 / 32))

/-- The request is INVALID as it stands (R255, R271, R293, R329, R443, R486, R491, R492). -/
def LaunchReq.bad (q : LaunchReq) : Bool :=
  let f := blockNum q.body
  let tiles := f 0 4
  let past := fun (o n : Nat) => decide (2 ^ 36 < f o 8 + f n 4)
  badLaunchBlock (q.body.take 64) || f 8 8 % 4096 != 0 || f 252 4 != 0 || f 268 4 != 0 || decide (1 < f 88 1) ||
    (decide (64 ≤ f 72 1) && f 72 1 != 255) || past 128 136 || past 144 152 || past 240 248 || past 256 264 ||
    decide (2 ^ 36 < f 168 8 + q.bitmaps.length) || q.code.length % 4 != 0 || decide (65536 < q.code.length) ||
    decide (2 ^ 18 < q.local_.length) || f 162 2 == 0 || decide (1024 < f 162 2) || decide (2 ^ 14 ≤ f 160 2) ||
    decide (2 ^ 18 < 16 * (f 160 2 + f 162 2)) || q.list.length % 32 != 0 || (chunksOf 32 (q.list.length / 32) q.list).any badData ||
    (imageScan q.pt).bad || (span 0 tiles).any (fun v => decide (4 < (q.groups.filter (fun e => e.2.contains v)).length))

/-- A protected launch whose tables break R496. -/
def LaunchReq.denied (q : LaunchReq) : Bool :=
  bitAt (blockNum q.body 22 1) 0 && (imageScan q.pt).leaves.any (fun e => !lfHost (scanLeaf e) && lfKslot (scanLeaf e) == 0)

/-- How the producer of a launch request stands when the request is first seen (R269). -/
def State.producer (s : State) (c n : Nat) : DepSt :=
  let x := s.ctx c
  if !s.hasCtx c then .failed
  else if n < x.num then .met
  else if x.done ∨ x.tear.isSome then .failed
  else .open_

/-- The dependency of the request in a mailbox (R269): what was found out about its producer when the request was first seen is kept, and
followed from then on. -/
def State.dependency (s : State) (m box : Nat) (q : LaunchReq) : State × DepSt :=
  let c := blockNum q.body 72 1
  let n := blockNum q.body 80 8
  if c = 255 then (s, .met)
  else match (s.mod m).deps.find? (fun d => d.box == box) with
    | some d => (s, if d.st = .open_ ∧ (s.ctx c).tear.isSome then .failed else d.st)
    | none =>
      let st := s.producer c n
      (s.setMod m { s.mod m with deps := (s.mod m).deps ++ [{ box := box, ctx := c, num := n, st := st }] }, st)

/-- The launch of a mailbox is answered: its dependency is forgotten. -/
def State.postLaunch (s : State) (m box code value : Nat) : State :=
  let u := s.postResult m box code value
  u.setMod m { u.mod m with deps := (u.mod m).deps.filter (fun d => d.box != box) }

/-- The key slots that the leaves name, by module and slot. -/
def LaunchReq.slots (q : LaunchReq) : List (Nat × Nat) :=
  (((imageScan q.pt).leaves.map scanLeaf).filterMap (fun e => if lfKslot e = 0 then none else some (lfModule e, lfKslot e))).eraseDups

/-- What a launch needs is free: a context number, the clusters, the key slots, quadrants in service (R270, R496, R526). -/
def State.launchReady (s : State) (q : LaunchReq) (ks : List Nat) : Bool :=
  let owner := BitVec.ofNat 64 (blockNum q.body 64 8)
  s.freeCtx.isSome && ks.length == blockNum q.body 0 4 / 16 && ks.all (s.clusterFree owner) && ks.eraseDups.length == ks.length &&
    q.slots.all (fun e => (SMap.find (s.mod e.1).keys e.2).isNone) &&
    (imageScan q.pt).leaves.all (fun e =>
      let lo := lfPa (scanLeaf e) / 65536
      let md := s.mod (lfModule (scanLeaf e))
      [lo, lo + scanSize e / 65536 - 1].all (fun p => decide (SMap.get 3 md.service (quadrantOf p) < 2)))

/-- The launch from step 3 of R266 to START; false when a data image cannot be placed (R492). -/
def State.launchCtx (s : State) (m c seq : Nat) (q : LaunchReq) (ks : List Nat) : State × Bool :=
  let x := { ctxOfBlock m (BitVec.ofNat 64 (blockNum q.body 64 8)) (q.body.take 64) with
    launch := q.body, seqNo := BitVec.ofNat 32 seq, groups := q.groups,
    images := [q.code, q.local_, q.bitmaps, q.pt, q.list ++ q.data.flatMap (fun d => d.1), q.descs] }
  let s := s.setCtx c x
  let s := q.slots.foldl (fun (u : State) e =>
    let key : KeySlot := { ctx := c, key := Config.freeKey u.free }
    { u.setMod e.1 { u.mod e.1 with keys := SMap.set (u.mod e.1).keys e.2 key } with free := u.free + 1 }) s
  let tables := rebase q.pt x.root
  let s := (tableModules m ks (mirrorPartner x (imageScan q.pt).leaves)).foldl (fun (u : State) w =>
    u.setMod w { u.mod w with mem := Memory.blit (u.mod w).mem x.root q.pt.length (tables.map (fun e => (e.1 - x.root, e.2))) }) s
  let entries := chunksOf 32 (q.list.length / 32) q.list
  let r := (span 0 entries.length).foldl (fun (r : State × Bool) i =>
    let d := q.data.getD i ([], [])
    if r.2 then r.1.placeData c (entries.getD i []) d.1 d.2 else r) (s, true)
  ((((r.1.placeCtx c ks).placeLocal c ks)).startLaunchCtx c, r.2)

/-- LAUNCH (R266 to R270, R491, R492): the clusters that the supervisor chooses are State.ev.nums; State.ev.ok false is a leaf of a page
that its configuration has not granted to the owner. -/
def State.hostLaunch (s : State) (m box : Nat) : State :=
  let q := s.launchReq m box
  let seq := s.boxNum m box 4 4
  if q.bad then s.postLaunch m box 1 0
  else if !s.ev.ok || q.denied then s.postLaunch m box 6 0
  else
    let d := s.dependency m box q
    match d.2, d.1.freeCtx with
    | .failed, _ => (d.1.notice m 4 255 seq seq).postLaunch m box 5 0
    | .met, some c =>
      if !s.launchReady q s.ev.nums then d.1
      else
        let r := d.1.launchCtx m c seq q s.ev.nums
        if r.2 then r.1.postLaunch m box 0 c else d.1.postLaunch m box 1 0
    | _, _ => d.1

/-- LAUNCH_REQUEST (R266, R491). -/
def execLaunchRequest (s : State) : Host.Outcome State Fault Refusal := s.serveRequest 1 State.hostLaunch

/-! ### Pre-emption, resumption and restore -/

/-- Steps 2 to 5 of R448: images to the save area, the clusters unbound, PREEMPTED; a context saved for want of a cluster, and not at the host's
request, waits in the supervisor queue (R461). -/
def State.putAway (s : State) (c : Nat) : State :=
  let x := s.ctx c
  let s := s.reportLull c
  let s := (s.ctxTiles c).foldl (fun (u : State) t => u.saveImage t 0 (x.save + imageSize * (u.tile t).vtid.toNat)) s
  let s := (s.ctxClusters c).foldl State.unbindCluster s
  let s := s.setCtx c { s.ctx c with resident := false, preBox := none, preempt := none, queued := x.preBox.isNone }
  let s := s.ctxNotice c 2 (x.num * 65536 + x.att)
  match x.preBox with
  | some b => s.postResult b.1 b.2 0 0
  | none => s

/-- The clusters can take a context: one for each virtual cluster, each free or bound to it already. -/
def State.clustersFit (s : State) (c : Nat) (ks : List Nat) : Bool :=
  let x := s.ctx c
  ks.length == x.tiles / 16 && ks.eraseDups.length == ks.length &&
    ks.all (fun k => s.clusterFree x.owner k || ((s.cluster k).ctx == some c && !(s.cluster k).quar))

/-- The images of a context, v's at at_ v, are written into the tiles of its clusters (R457 step 2). -/
def State.restoreTiles (s : State) (ks : List Nat) (at_ : Nat → Nat) : State :=
  (ks.flatMap tilesOf).foldl (fun (u : State) t => u.restoreImage t (at_ (u.tile t).vtid.toNat)) s

/-- A context that is away resumes from its save area on the clusters ks (R457): the state, and the status of START.resume. -/
def State.bringBack (s : State) (c : Nat) (ks : List Nat) : State × Nat :=
  let x := s.ctx c
  (((s.copyTables c ks).placeCtx c ks).restoreTiles ks (fun v => x.save + imageSize * v)).resumeCtx c x.num

/-- A context of the supervisor queue comes back once free clusters fit it (R270, R461). -/
def State.fromQueue (s : State) (c : Nat) (ks : List Nat) : State :=
  let x := s.ctx c
  if x.queued ∧ x.held ∧ !x.fatal ∧ !x.resident ∧ x.tear = none ∧ s.clustersFit c ks then (s.bringBack c ks).1 else s

/-- RESUME (R457, R491): a context that is away resumes from its save area on the clusters State.ev.nums, waiting for them under R461;
one that is held in place resumes where it is, unless it has first to be restored (R445, R500). -/
def State.hostResume (s : State) (m box c : Nat) : State :=
  let x := s.ctx c
  let answer := fun (r : State × Nat) => r.1.postResult m box (if r.2 = 0 then 0 else 4) 0
  if !x.held ∨ x.fatal ∨ x.tear.isSome ∨ (!x.resident ∧ x.launch = [] ∧ x.startTiles = []) then s.postResult m box 4 0
  else if x.resident ∧ (x.irrev ∨ s.missesTile c) then s
  else if x.resident then answer (s.resumeCtx c x.num)
  else if !s.clustersFit c s.ev.nums then s
  else answer (s.bringBack c s.ev.nums)

/-- RESUME_REQUEST (R457, R491). -/
def execResumeRequest (s : State) : Host.Outcome State Fault Refusal := s.serveRequest 5 (State.ofCtx State.hostResume)

/-- Every base die applies the context's journal in reverse order of writing, and a line so rewritten loses its poison mark (R466 steps
2 and 3). -/
def State.reverseJournal (s : State) (c : Nat) : State :=
  let undo := fun (md : Module) (k : Nat) =>
    let x := md.stackAt k
    let mine := (x.journal.filter (fun e => e.ctx == c)).reverse
    let mem := mine.foldl (fun (mem : Memory) e => Memory.writeBytes mem (64 * e.line) (toBytes 64 e.old.toNat)) md.mem
    let poison := x.poison.filter (fun l => !mine.any (fun e => e.line == l))
    let y : Stack := { x with journal := x.journal.filter (fun e => e.ctx != c), journalFull := x.journalFull.filter (fun d => d != c), poison := poison,
                              tbuf := x.tbuf.filter (fun d => d.ctx != c), full := x.full && decide (poison.length = x.poison.length) }
    { md with mem := mem, stk := SMap.set md.stk k y }
  { s with mods := s.mods.map (fun e => (e.1, (e.2.stk.map (fun k => k.1)).foldl undo e.2)) }

/-- The context's collective instances unwind against checkpoint n (R467). -/
def State.unwind (s : State) (c n : Nat) : State :=
  let mine := (s.insts.filter (fun i => i.ctx == c)).map (fun i => i.id)
  let keep := fun (i : Inst) => i.ctx != c || (decide (i.num ≤ n) && decide (n + 1 < i.due))
  { s with insts := (s.insts.filter keep).map (fun i => if i.ctx = c then { i with st := .running, toStart := [], clock := 0 } else i),
           mods := s.mods.map (fun e => (e.1, { e.2 with threads := e.2.threads.filter (fun t => !mine.contains t.2.inst) })) }

/-- The instances of a context that were unwound start again where its members now stand (R467, R500): the ranks follow the tile map. -/
def State.restartInsts (s : State) (c : Nat) : State :=
  let x := s.ctx c
  let again := fun (i : Inst) =>
    let members := membersOf x i.group
    let ranks := ranksOf x members
    let reqs := members.flatMap (fun v => (i.reqs.filter (fun r => r.vt == v)).map (fun r => { r with tile := (x.tileOf v).getD r.tile }))
    { i with ranks := ranks, toStart := ranks, reqs := reqs, clock := 0 }
  let u : State := { s with insts := s.insts.map (fun i => if i.ctx = c then again i else i) }
  (u.insts.filter (fun i => i.ctx == c)).foldl (fun (w : State) i => w.checkRanks c i (membersOf x i.group)) u

/-- The context no longer has a virtual cluster where its tile map says: it is lost, or bound to the context no more (R499). -/
def State.clusterGone (s : State) (c k : Nat) : Bool :=
  let x := s.cluster k
  x.ctx != some c || x.lost || x.gone

/-- A restore puts each lost virtual cluster on a cluster of its own module, while that module has a free one that the restore does not
use (R500). -/
def State.keepsModules (s : State) (c : Nat) (ks : List Nat) : Bool :=
  let x := s.ctx c
  (span 0 ks.length).all (fun v => match SMap.find x.tmap v with
    | none => true
    | some old =>
      !s.clusterGone c old || modOfCluster (ks.getD v 0) == modOfCluster old ||
        !s.clusters.any (fun e => modOfCluster e.1 == modOfCluster old && s.clusterFree x.owner e.1 && !ks.contains e.1))

/-- The restore of a context from its standing checkpoint on the clusters ks (R466); clusters that it leaves are unbound and fenced
(R500). Checkpoint 0 is the launch state: the tiles as a scrub leaves them, with the launch images (R464). The spec keeps the base-die
apply flags of the checkpoint's commit nowhere: DESIGN CHOICE, they are 0 after the restore (log entry 56). -/
def State.restoreCtx (s : State) (c : Nat) (ks : List Nat) : State :=
  let n := (s.ctx c).durable
  let slot := (s.ctx c).durSlot
  let s := ((s.reportLull c).reverseJournal c).unwind c n
  let old := (s.clusters.filter (fun e => e.2.ctx == some c && !ks.contains e.1)).map (fun e => e.1)
  let s := old.foldl (fun (u : State) k =>
    let v := u.unbindCluster k
    v.setCluster k { v.cluster k with fenced := true }) s
  let s := s.setCtx c { s.ctx c with fatal := false, held := true, done := false, doneWord := none, demand := none, nodeVote := none,
                                     pushes := [], reqs := [], acksDue := 0, olds := [], ckPending := none, ckReady := none, ckAcksDue := 0,
                                     ckReq := false, baseFlags := 0, journalStuck := false, limit := none, irrev := false, downAt := none, badLink := none,
                                     cut := [], netCut := [], egress := [] }
  let s := if n = 0 then (ks.flatMap tilesOf).foldl (fun (u : State) t => u.setTile t (u.tile t).wiped) s else s
  let s := ((s.copyTables c ks).placeCtx c ks).restartInsts c
  let s :=
    if n = 0 then (s.placeStart c ks).startLaunchCtx c
    else ((s.restoreTiles ks (fun v => (s.ctx c).slotAt slot v)).resumeCtx c (n + 1)).1
  (s.renewPreempt c).ctxNotice c 3 n

/-! ### Teardown -/

/-- TEARDOWN begins (R496 step 1): a running context is forced to an abort that holds it; any other is parked. -/
def State.beginTear (s : State) (m box c : Nat) : State :=
  let x := s.ctx c
  let s := match x.preBox with | some b => s.postResult b.1 b.2 4 0 | none => s
  let s := s.setCtx c { s.ctx c with tear := some (m, box), preBox := none }
  if x.runs then s.demandDecision c .force else s.parkAll c

/-- TEARDOWN (R491, R496). -/
def State.hostTeardown (s : State) (m box c : Nat) : State :=
  match (s.ctx c).tear with
  | some b => if b = (m, box) then s else s.postResult m box 4 0
  | none => s.beginTear m box c

/-- TEARDOWN (R496). -/
def execTeardown (s : State) : Host.Outcome State Fault Refusal := s.serveRequest 6 (State.ofCtx State.hostTeardown)

/-- The scrub of the n bytes at a physical address: whole pages, with their module. -/
def scrubSpan (a n : Nat) : Nat × ScrubOp :=
  (physModule a, { cluster := none, page := physOffset a / 65536, pages := (physOffset a % 65536 + n + 65535) / 65536 })

/-- The pages of a context (R496 step 5): those its tables map, spill areas, save area, checkpoint slots and log, in both copies of
what is mirrored. -/
def State.ctxPages (s : State) (c : Nat) : List (Nat × ScrubOp) :=
  let x := s.ctx c
  let both := fun (mirror : Bool) (o : Nat × ScrubOp) => if mirror && o.1 != x.partner then [o, (x.partner, o.2)] else [o]
  let mapped := (s.tableScan c).leaves.flatMap (fun e =>
    let l := scanLeaf e
    both (lfMirror l) (scrubSpan (lfModule l * 2 ^ 48 + lfPa l) (scanSize e)))
  let areas := [scrubSpan x.spill (262144 * x.tiles), scrubSpan x.save (imageSize * x.tiles)] ++
    both true (scrubSpan x.slot0 (imageSize * x.tiles)) ++ both true (scrubSpan x.slot1 (imageSize * x.tiles)) ++
    [scrubSpan (x.home * 2 ^ 48 + x.logAt) (x.logSize * 2 ^ 20)]
  (mapped ++ areas).eraseDups

/-- The context number is freed and TEARDOWN answered once no scrub of its step 5 is in progress (R496 steps 6 and 7). -/
def State.endTear (s : State) (c : Nat) : State :=
  let x := s.ctx c
  match x.tear, x.tearOps with
  | some b, some l =>
    if l.any (fun e => s.scrubbing e.2.cluster e.1 e.2.page e.2.pages) then s
    else
      let u : State := { s.tellDeps c (fun _ => .failed) with ctxs := SMap.del s.ctxs c }
      if b.2 < 16 then u.postResult b.1 b.2 0 0 else u
  | _, _ => s

/-- Steps 2 to 5 of R496. -/
def State.tearApart (s : State) (c : Nat) : State :=
  let s := s.reportLull c
  let x := s.ctx c
  let mine := (s.insts.filter (fun i => i.ctx == c)).map (fun i => i.id)
  let onWay := s.net.filterMap (fun g => match g with | .sync d w b => if d = c then some (w, b) else none | _ => none)
  let s := (x.syncBox ++ x.syncNow ++ onWay).foldl (fun (u : State) b => u.postResult b.1 b.2 2 0)
    { s with net := s.net.filter (fun g => match g with | .sync d _ _ => d != c | _ => true) }
  let s : State :=
    { s with insts := s.insts.filter (fun i => i.ctx != c),
             mods := s.mods.map (fun (e : Nat × Module) =>
               (e.1, { e.2 with threads := e.2.threads.filter (fun t => !mine.contains t.2.inst), keys := e.2.keys.filter (fun k => k.2.ctx != c),
                                stk := e.2.stk.map (fun (k : Nat × Stack) => (k.1, k.2.forget (fun d => d == c))) })) }
  let ks := (s.clusters.filter (fun e => e.2.ctx == some c)).map (fun e => e.1)
  let pages := s.ctxPages c
  let s := ks.foldl State.unbindCluster s
  let ops := (ks.filter (fun k => !(s.cluster k).lost)).map (fun k => (modOfCluster k, ({ cluster := some k, page := 0, pages := 0 } : ScrubOp)))
  let s := (ops ++ pages).foldl (fun (u : State) o => u.beginScrub o.1 o.2) s
  let x := { s.ctx c with hostLog := [], syncBox := [], syncNow := [], olds := [], reqs := [], pushes := [], resident := false,
                          tearOps := some (ops ++ pages) }
  ((s.dropCached c 0 1).setCtx c x).endTear c

/-! ### What the supervisor chooses for a context -/

/-- ECNT.LAST of a tile (R439). -/
def Tile.lasting (x : Tile) : Bool := x.ecnt.getLsbD 63

/-- The row of the table of R444 that holds after ABORT_LIMIT, 0 when there is none to answer. -/
def State.limitRow (s : State) (c : Nat) : Nat :=
  let x := s.ctx c
  match x.limit with
  | none => 0
  | some v =>
    let last := match x.tileOf v with | some t => (s.tile t).lasting | none => false
    let down := x.cause == cLINK && (match x.badLink with | some l => ((s.mod l.1).link l.2).down | none => false)
    if last || down then 1 else if x.cause = cQOVER then 2 else if x.durable ≠ 0 then 3 else 4

/-- The virtual cluster of a held context that is to be migrated (R444, R459): that of ATILE, or one with a tile whose errors last. -/
def State.toMigrate (s : State) (c : Nat) : Option Nat :=
  let x := s.ctx c
  if s.limitRow c = 1 then x.limit.map (fun v => v / 16)
  else ((s.ctxTiles c).find? (fun t => (s.tile t).lasting)).map (fun t => (s.tile t).vtid.toNat / 16)

/-- The tiles' state or their writes cannot be kept, so that the held context has to be restored (R445, R500). -/
def State.cannotResume (s : State) (c : Nat) : Bool := (s.ctx c).irrev || s.missesTile c

/-- The context is to be restored from its standing checkpoint (R466): after FATAL or a lost route, after IRREVERSIBLE, when it is held
with a lost tile (R500), or by the choice of R444; not while it is unrestorable (R465). -/
def State.restoreDue (s : State) (c : Nat) : Bool :=
  let x := s.ctx c
  !x.journalStuck && (x.fatal || (x.held && (s.cannotResume c || s.limitRow c == 3)))

/-- The held context is saved and leaves its clusters (R448): a PREEMPT of the host asks for it, unless ABORT_LIMIT calls for another action
(R444), or a cluster of it is to be migrated and no cluster is free (R459, R461). -/
def State.awayDue (s : State) (c : Nat) : Bool :=
  let x := s.ctx c
  x.held && !x.fatal && x.resident && !s.cannotResume c &&
    ((x.preBox.isSome && s.limitRow c == 0) || ((s.toMigrate c).isSome && !s.clusters.any (fun e => s.clusterFree x.owner e.1)))

/-- A cluster of the held context is migrated to cluster k and the context resumes (R459, R460): the images go tile to tile, and the source
is fenced. -/
def State.migrateCtx (s : State) (c v k : Nat) : State :=
  match SMap.find (s.ctx c).tmap v with
  | none => s
  | some old =>
    let s := s.reportLull c
    let s := (s.copyTables c [k]).placeCluster c v k
    let s := (span 0 16).foldl (fun (u : State) j => u.moveImage (16 * old + j) (16 * k + j)) s
    let s := s.unbindCluster old
    let s := s.setCluster old { s.cluster old with fenced := true }
    (s.resumeCtx c (s.ctx c).num).1

/-- LULL_REPORT (R450): every engine class of context State.ev.i is quiet, and what waits for Lull goes on: the teardown; a restore on the
clusters State.ev.nums after a 1, which first parks what still runs (R466 step 1); the migration of a cluster to the cluster after a 2; the
save of a context that leaves its clusters; or the report alone. -/
def execLullReport (s : State) : Host.Outcome State Fault Refusal :=
  let c := s.ev.i
  let x := s.ctx c
  if x.tearOps.isSome then .next s
  else if !s.quiet c then
    .next (match s.ev.nums with
      | 1 :: _ => if x.started ∧ x.tear = none ∧ s.restoreDue c then s.parkAll c else s
      | _ => s)
  else if x.tear.isSome then .next (s.tearApart c)
  else
    match s.ev.nums with
    | 1 :: ks =>
      if x.started ∧ s.restoreDue c ∧ s.clustersFit c ks ∧ s.keepsModules c ks then .next (s.restoreCtx c ks) else .next s
    | 2 :: k :: _ =>
      match s.toMigrate c with
      | some v => if x.held ∧ !x.fatal ∧ x.resident ∧ !s.restoreDue c ∧ s.clusterFree x.owner k then .next (s.migrateCtx c v k) else .next s
      | none => .next s
    | _ =>
      if s.awayDue c then .next (s.putAway c)
      else if x.lull then .next s
      else .next (s.reportLull c)

/-- SCRUB_COMPLETE (R497): scrub State.ev.i of module State.ev.m has done its work, or only the page State.ev.nums of it; a teardown may
end with it. -/
def execScrubComplete (s : State) : Host.Outcome State Fault Refusal :=
  match (s.mod s.ev.m).scrubs[s.ev.i]? with
  | some o =>
    if o.stopped then .next s
    else match s.ev.nums with
    | [p] => .next (s.scrubPage s.ev.m s.ev.i p)
    | _ => .next ((s.ctxs.map (fun e => e.1)).foldl State.endTear (s.endScrub s.ev.m s.ev.i))
  | none => .next s

/-! ### Attestation, keys and recovery -/

/-- MC of a context, or zeros (R495). -/
def State.measureCtx (s : State) (m c : Nat) : List Byte :=
  let x := s.ctx c
  let d := fun (l : List Byte) => toBytes 64 (Config.sha512 l).toNat
  let img := fun (i : Nat) => d (x.images.getD i [])
  if !s.hasCtx c ∨ x.launch = [] then List.replicate 64 0
  else d (toBytes 64 (s.mod m).m2.toNat ++ img 0 ++ img 1 ++ img 3 ++ img 4 ++ d x.launch)

/-- ATTEST (R491, R495). -/
def State.hostAttest (s : State) (m box : Nat) : State :=
  let c := ofBytes (s.boxBody m box 32 1)
  if c ≠ 255 ∧ !s.hasCtx c then s.postResult m box 2 0
  else
    let part := s.boxBody m box 0 32 ++ toBytes 64 (s.mod m).m2.toNat ++ s.measureCtx m c ++ toBytes 32 (Config.identityKey m).toNat
    let report := part ++ toBytes 64 (Config.identitySign (Config.sha512 part)).toNat
    (s.setMod m { s.mod m with mbox := Memory.writeBytes (s.mod m).mbox (4096 * box + 64) report }).postResult m box 0 0

/-- ATTEST (R495). -/
def execAttest (s : State) : Host.Outcome State Fault Refusal := s.serveRequest 7 State.hostAttest

/-- KEYS (R494). -/
def State.hostKeys (s : State) (m box : Nat) : State :=
  let b := s.boxBody m box 0 40
  let md := s.mod m
  let key := blockNum b 0 32
  let digest := Config.sha512 (toBytes 32 (Config.identityKey m).toNat ++ b)
  if blockNum b 36 4 ≠ md.enrol.toNat + 1 ∨ !md.verifies digest (BitVec.ofNat 512 (ofBytes (s.boxBody m box 64 64))) then s.postResult m box 6 0
  else
    (s.setMod m { md with ownerKey := if key = 0 then none else some (BitVec.ofNat 256 key), enrol := md.enrol + 1,
                          exclusive := key != 0 && blockNum b 32 1 != 0 }).postResult m box 0 0

/-- KEYS (R494). -/
def execKeys (s : State) : Host.Outcome State Fault Refusal := s.serveRequest 8 State.hostKeys

/-- RECOVER (R529): Axlos and the management tiles reset into the recovery image; the mailboxes keep the RESULT for the host to read. -/
def State.hostRecover (s : State) (m box : Nat) : State :=
  if s.ctxs ≠ [] then s.postResult m box 6 0
  else
    let md := (s.postResult m box 0 0).mod m
    let mgmt := fun (t : Nat) => isMgmt t && modOf t == m
    let kept : Module :=
      { md with store := [], ptab := [], threads := [], evt := 0, evlost := 0, href := 0, islSel := 0, events := [], ops := [], pending := [], deps := [],
                notices := [], noticeHead := 0, noticeTail := 0, staging := [], answer := [], log := [], recovery := true, phase := 2 }
    { s with tiles := s.tiles.filter (fun e => !mgmt e.1), clusters := s.clusters.filter (fun e => !mgmt (16 * e.1)),
             mods := SMap.set s.mods m kept }

/-- RECOVER (R529). -/
def execRecover (s : State) : Host.Outcome State Fault Refusal := s.serveRequest 9 State.hostRecover

/-- WRITE_SLOT (R529): the image is verified before it is written. -/
def State.hostWriteSlot (s : State) (m box : Nat) : State :=
  let f := fun (o n : Nat) => ofBytes (s.boxBody m box o n)
  let md := s.mod m
  let image := Memory.bytes md.staging (f 8 8) (f 16 4)
  if 1 < f 0 1 ∨ 2 ^ 36 < f 8 8 + f 16 4 ∨ !md.slotValid image then s.postResult m box 1 0
  else (s.setMod m (if f 0 1 = 0 then { md with flashA := image } else { md with flashB := image })).postResult m box 0 0

/-- WRITE_SLOT (R529). -/
def execWriteSlot (s : State) : Host.Outcome State Fault Refusal := s.serveRequest 10 State.hostWriteSlot

/-- REBOOT (R529): the module is reset, the recovery strap as it reads. -/
def execReboot (s : State) : Host.Outcome State Fault Refusal :=
  s.serveRequest 11 (fun u m _ => u.resetModule m (u.mod m).strap)

/-! ### What the supervisor does of itself -/

/-- The supervisor serves an SVC (R488): strand n of tile t has parked with its code in TCAUSE and goes on after it with the result in
s16; value is the host's time. -/
def State.serveSvc (s : State) (t : Nat) (n : BitVec 2) (value : Word) : State :=
  let r := s.strand t n
  match s.ctxOf t with
  | none => s
  | some c =>
    let code := r.tcause.toNat % 256
    if r.st ≠ .park ∨ r.park.isSome ∨ code < 0x80 ∨ (s.ctx c).held then s
    else
      let arg := r.s[16]
      let u := if code = 0x80 then s.ctxNotice c 6 arg.toNat
        else if code = 0x81 then s.setCtx c { s.ctx c with ckReq := true } else s
      let res : Word := if code = 0x80 ∨ code = 0x81 then 0 else if code = 0x82 then value else BitVec.allOnes 64
      (u.setStrand t n { r with s := r.s.set 16 res }).resumeStrand t n 0 true false []

/-- The queue that QUEUE_OVERFLOW names, as the virtual tile times four plus the queue (R298, R444, R537): one whose refusals have aborted one
superstep ABORTLIM times; where no queue alone has done so, the first of ATILE that a refusal has named (log entry 15). -/
def State.overflowed (s : State) (c : Nat) : Nat :=
  let x := s.ctx c
  let full := (s.ctxTiles c).findSome? (fun t =>
    let y := s.tile t
    ((span 0 4).find? (fun q => decide (x.abortLim ≤ y.refusedN.getD q 0))).map (fun q => 4 * y.vtid.toNat + q))
  let v := x.limit.getD 0
  let first := match x.tileOf v with
    | some t => (span 0 4).find? (fun q => decide (0 < (s.tile t).refusedN.getD q 0))
    | none => none
  full.getD (4 * v + first.getD 0)

/-- The supervisor tells the host why it gives a context up, and tears it down. -/
def State.tearOf (s : State) (c code value : Nat) : State := (s.ctxNotice c code value).beginTear (s.ctx c).home 16 c

/-- The supervisor fences the cluster of a tile whose errors last and sets the pre-emption request, which leads to its migration (R440, R459);
a second such cluster has its turn when the first has been migrated. -/
def State.fenceLasting (s : State) (c : Nat) : State :=
  let x := s.ctx c
  match (s.ctxTiles c).find? (fun t => (s.tile t).lasting && (!(s.cluster (clusterOf t)).fenced || x.preempt.isNone)) with
  | some t =>
    let u := s.setCluster (clusterOf t) { s.cluster (clusterOf t) with fenced := true }
    u.setCtx c { x with preempt := if x.preempt.isSome then x.preempt else some (x.clock + BitVec.ofNat 48 x.plim) }
  | none => s

/-- What the supervisor does for a context of itself: it tears one down that is to be restored and is unrestorable (R465); after PLIM of an
ISLAND_DOWN without a decision it executes FORCEAB (R447, R500); after ABORT_LIMIT it reports QUEUE_OVERFLOW and tears the context down,
resumes it at SEN once more or tears it down as the retry policy states (R444), a context without a launch request having none; and for a tile
whose errors last it fences the cluster and sets the pre-emption request (R440, R459). The restore, the migration and the save begin with
Lull's report. -/
def State.giveUpCtx (s : State) (c : Nat) : State :=
  let x := s.ctx c
  if !s.hasCtx c ∨ x.tear.isSome then s
  else if x.journalStuck ∧ (x.fatal ∨ (x.held ∧ (s.cannotResume c ∨ s.limitRow c = 3))) then s.tearOf c 5 x.cause.toNat
  else if x.fatal then s
  else if x.held then
    if s.restoreDue c then s
    else match s.limitRow c with
      | 2 => s.tearOf c 7 (s.overflowed c)
      | 4 =>
        if blockNum x.launch 88 1 = 1 ∧ !x.retried then
          let u := (s.resumeCtx c x.num).1
          u.setCtx c { u.ctx c with retried := true }
        else s.tearOf c 5 x.cause.toNat
      | _ => s
  else match x.downAt with
    | some d => if x.runs ∧ x.running ∧ x.decided.isNone ∧ x.demand.isNone ∧ expiredAt x.clock d then s.demandDecision c .force else s
    | none => s.fenceLasting c

end Sys2Proof.Machine
end

