-- ==== Sys2Proof/Machine/Routes.lean ====
section
/-! DEFINITION. The routes of messages between the dies, Axlos and other modules (20_module_host.md R477), over the links that location codes
name (23_bringup_reference.md R527); the traffic that a link carries, and the routes that remain when it fails (17_faults.md R436, R437). -/
namespace Sys2Proof.Machine

/-! ### Links -/

/-- The location codes of a die-mesh edge, the link of a die to Axlos and an Etesian link (R527). -/
def meshLink (die dir : Nat) : Nat := 3 * 2 ^ 28 + die * 2 ^ 24 + dir * 2 ^ 22
def axlosLink (die : Nat) : Nat := 4 * 2 ^ 28 + die * 2 ^ 24
def etesianLink (l : Nat) : Nat := 8 * 2 ^ 28 + l * 2 ^ 22

/-- One name for each link: without its lane, and a mesh edge as seen from its western die or from the die of row 0. -/
def linkName (code : Nat) : Nat :=
  let c := code - bitsOf code 19 16 * 2 ^ 16
  let die := bitsOf code 27 24
  if bitsOf code 31 28 ≠ 3 then c
  else match bitsOf code 23 22 with
    | 1 => meshLink (die - 1) 0
    | 2 => meshLink (die % 8) 2
    | _ => meshLink die 0

/-- A link of the module is down (R435), or self-test has quarantined it: KIND 3, 4 and 8 of the location codes (R527). -/
def Module.linkDown (md : Module) (name : Nat) : Bool :=
  md.links.any (fun e => e.2.down && linkName e.1 == name) ||
    md.parts.any (fun c => (bitsOf c 31 28 == 3 || bitsOf c 31 28 == 4 || bitsOf c 31 28 == 8) && linkName c == name)

/-! ### Routes -/

/-- Where a message starts or ends: in a module, at one of its dies or at Axlos. -/
structure Spot where
  module : Nat
  die    : Option Nat
deriving DecidableEq, Repr

/-- The mesh edges between two dies of a module: along the row to the column, then across the spine (R477). -/
def meshPath (a b : Nat) : List Nat :=
  let lo := min (a % 8) (b % 8)
  (span lo (max (a % 8) (b % 8) - lo)).map (fun c => meshLink (a / 8 * 8 + c) 0) ++ (if a / 8 = b / 8 then [] else [meshLink (b % 8) 2])

/-- The links that a message takes, with their modules (R477): within a module over the mesh, or over the die's own link to Axlos; between
modules over the Etesian link that each side's routing table gives (log entry 17). -/
def State.route (s : State) (a b : Spot) : List (Nat × Nat) :=
  let own := fun (p : Spot) => (p.die.map (fun d => (p.module, axlosLink d))).toList
  let out := fun (m w : Nat) => ((SMap.find (s.mod m).routes w).map (fun l => (m, etesianLink l))).toList
  if a.module ≠ b.module then own a ++ out a.module b.module ++ out b.module a.module ++ own b
  else match a.die, b.die with
    | some x, some y => (meshPath x y).map (fun l => (a.module, l))
    | _, _ => own a ++ own b

/-- The place of a tile. -/
def spotOf (t : Nat) : Spot := { module := modOf t, die := if isMgmt t then none else some (dieOf t % 16) }

/-- The place of a block of global memory: each die carries two stacks. -/
def spotOfMem (m pa : Nat) : Spot := { module := m, die := some ((placeOf pa).stack / 2) }

/-- The places that a delta goes to: a mirror write goes to both modules. -/
def State.deltaSpots (s : State) (d : Delta) : List Spot :=
  let pa := match d.body with | .store a _ _ => a | .reduce a _ _ _ => a | _ => 0
  match d.dest with
  | .tile t => [spotOf t]
  | .memory m mirror => spotOfMem m pa :: (if mirror && (s.ctx d.ctx).partner != m then [spotOfMem (s.ctx d.ctx).partner pa] else [])
  | .axlos m _ => [{ module := m, die := none }]

/-! ### Traffic -/

/-- The places whose responses are on their way to tile t (R436): of the reads of its strands, of reads whose instruction has gone, and of the
lines that its engine reads. -/
def State.responses (s : State) (t : Nat) : List (Nat × Nat) :=
  let x := s.tile t
  x.readsOut ++ x.orphans ++ (x.eng.filter (fun e => !s.lulled t e)).flatMap (s.engAwaits t)

/-- The contexts' traffic in flight (R436): the context, the virtual tile whose traffic it is, and the links it takes: deltas, mirror writes
and push deltas, their acknowledgements and refusals, and the responses of global reads and engine reads. -/
def State.traffic (s : State) : List (Nat × Nat × List (Nat × Nat)) :=
  let there := fun (d : Delta) => (d.ctx, d.srcVt, (s.deltaSpots d).flatMap (fun p => s.route (spotOf d.srcTile) p))
  let back := fun (d : Delta) => (d.ctx, d.srcVt, (s.deltaSpots d).flatMap (fun p => s.route p (spotOf d.srcTile)))
  s.net.filterMap (fun g => match g with
    | .delta d => if isMgmt d.srcTile then none else some (there d)
    | .ack d => if isMgmt d.srcTile then none else some (back d)
    | .refusal d => if isMgmt d.srcTile then none else some (back d)
    | _ => none) ++
  s.tiles.flatMap (fun e => match s.ctxOf e.1 with
    | none => []
    | some c => (s.responses e.1).map (fun p => (c, e.2.vtid.toNat, s.route (spotOfMem p.1 p.2) (spotOf e.1))))

/-- The lowest virtual tile of a context whose traffic is on a link (R436). -/
def State.linkUser (s : State) (c : Nat) (link : Nat × Nat) : Option Nat :=
  ((s.traffic.filter (fun u => u.1 == c && u.2.2.contains link)).map (fun u => u.2.1)).min?

/-- Posted operation j of a thread is a SEND that has been paired, so that its bytes are on their way to a rank (R404). -/
def State.sending (s : State) (t : Thread) (j : Nat) : Option Nat :=
  match t.posted[j]? with
  | some (.send rank tag _ _) =>
    let k := ((t.posted.take j).filter (fun p => match p with | .send r g _ _ => r == rank && g == tag | .signal _ _ => false)).length
    (match s.peer t.inst rank with
    | some (_, _, dst) => if ((dst.recvsFrom t.rank tag)[k]?.bind (fun i => dst.recvs[i]?)).any (fun r => r.data.isSome) then some rank else none
    | none => none)
  | _ => none

/-- The threads of module m whose transfers are on a link (R411, R436): the SENDs that move to other ranks, and what a GATHER, DELIVER or MCAST
moves to or from the member that it reaches next, where its virtual tile stands. -/
def State.linkThreads (s : State) (m : Nat) (link : Nat × Nat) : List Nat :=
  let here : Spot := { module := m, die := none }
  let uses := fun (t : Thread) => match s.instOf t.inst with
    | none => false
    | some i =>
      t.st != .stopped &&
        ((span 0 t.posted.length).any (fun j => match s.sending t j with
          | some rank => (s.route here { module := i.ranks.getD rank m, die := none }).contains link
          | none => false) ||
        (s.reachable i.ctx && ((t.left.head?.bind i.member).bind (fun r => (s.ctx i.ctx).tileOf r.vt)).any (fun u =>
          (s.route here (spotOf u)).contains link)))
  ((s.mod m).threads.filter (fun e => uses e.2)).map (fun e => e.1)

/-! ### The routes that remain -/

/-- The neighbours of a die, or of Axlos with number 16, over links that are up. -/
def Module.neighbours (md : Module) (n : Nat) : List Nat :=
  let upTo := fun (l k : Nat) => if md.linkDown l then [] else [k]
  if n = 16 then (span 0 16).flatMap (fun d => upTo (axlosLink d) d)
  else (if n % 8 = 7 then [] else upTo (meshLink n 0) (n + 1)) ++ (if n % 8 = 0 then [] else upTo (meshLink (n - 1) 0) (n - 1)) ++
    upTo (meshLink (n % 8) 2) ((n + 8) % 16) ++ upTo (axlosLink n) 16

/-- What can be reached in at most k hops from some of the dies and Axlos. -/
def Module.reach (md : Module) : Nat → List Nat → List Nat
  | 0, l => l
  | k + 1, l => Module.reach md k (l ++ l.flatMap md.neighbours).eraseDups

/-- Every node of the context's tree in module m can still reach the others there by some route (R437). -/
def State.treeJoined (s : State) (c m : Nat) : Bool :=
  let ks := s.ctxClusters c
  let dies := ((ks.filter (fun k => k / 16384 == m)).map (fun k => k / 1024 % 16)).eraseDups
  let nodes := if dies.length ≤ 1 ∧ ks.all (fun k => k / 16384 == m) then dies else dies ++ [16]
  match nodes with
  | [] => true
  | n :: r => let seen := (s.mod m).reach 17 [n]; r.all (fun k => seen.contains k)

end Sys2Proof.Machine
end

