-- ==== Sys2Proof/Machine/Reliability.lean ====
section
/-! DEFINITION. Errors found outside any instruction (17_faults.md R430 to R433), the error-count windows (R439), the links and the
routes of the trees (R435 to R437). -/
namespace Sys2Proof.Machine

/-! ### Background scrubbing -/

/-- The storage that a scrub of a tile reads: State.ev.th 0 a local line, 1 its side band, 2 an accumulator, 3 a bank of the retention memory, 4 a
block of the cluster's instruction store, else the delta inbox (R429 to R431). -/
def scrubPlace (kind i : Nat) : ErrAt :=
  match kind with
  | 0 => .line i
  | 1 => .side i
  | 2 => .acc i
  | 3 => .retention i
  | 4 => .store i
  | _ => .inbox

/-- An uncorrectable error that a scrub finds (R431, R433): a tile event, but for retention memory, where the tile acts as if IRREV had
executed. -/
def State.scrubFinds (s : State) (t : Nat) (e : ErrAt) : State :=
  let x := s.tile t
  match e with
  | .line k => s.tileError t cSRAM 0 (64 * k) e.bank (!x.restorable k)
  | .side k => s.tileError t cSRAM 1 (64 * k) e.bank (!x.restorable k)
  | .acc a => s.tileError t cSRAM 2 a e.bank ((SMap.find x.accPre a).isNone)
  | .store a => s.tileError t cSRAM 3 (32 * a) e.bank true
  | .inbox => s.tileError t cSRAM 5 0 0 false
  | .retention _ => let u := s.countError t cSRAM e.bank; u.setTile t (u.tile t).irrev
  | _ => s

/-- SCRUB_LINE (R430): the line State.ev.i of the storage State.ev.th of tile State.ev.tile is read; a correctable error is corrected
and counted. -/
def execScrubLine (s : State) : Host.Outcome State Fault Refusal :=
  let t := s.ev.tile
  let e := scrubPlace s.ev.th s.ev.i
  let x := s.tile t
  let k := s.cluster (clusterOf t)
  let marks := if s.ev.th = 4 then k.errs else x.errs
  if marks.any (fun m => m.loc == e && m.hard) then .next (s.scrubFinds t e)
  else if marks.any (fun m => m.loc == e) then
    let u := if s.ev.th = 4 then s.setCluster (clusterOf t) { k with errs := k.errs.filter (fun m => m.loc != e) }
      else s.setTile t { x with errs := x.errs.filter (fun m => m.loc != e) }
    .next (u.countError t cSRAM e.bank)
  else .next s

/-- ERROR_WINDOW_END (R439): the window of tile State.ev.tile has lasted EWIN.WIN ticks, and COUNT returns to 0. -/
def execErrorWindowEnd (s : State) : Host.Outcome State Fault Refusal :=
  let t := s.ev.tile
  .next (s.setTile t ((s.tile t).window (s.refTick (modOf t))))

/-! ### Links -/

def State.setLink (s : State) (m l : Nat) (x : Link) : State :=
  s.setMod m { s.mod m with links := SMap.set (s.mod m).links l x }

/-- A context with traffic on a failed link takes an abort vote for its open superstep with the lowest virtual tile concerned, and HOLD when
no route remains between two nodes of its tree (R436, R437). -/
def State.linkVote (s : State) (c atile : Nat) (hold : Bool) (link : Nat × Nat) : State :=
  let x := s.ctx c
  let old := match x.nodeVote with | some v => (min v.2.1 atile, v.2.2) | none => (atile, false)
  if x.runs ∧ !x.done then (s.setCtx c { x with nodeVote := some (cLINK, old.1, old.2 || hold), badLink := some link }).tryDecide c else s

/-- The location code of an Etesian link (R527). -/
def isEtesian (l : Nat) : Bool := bitsOf l 31 28 == 8

/-- What the failure of link l of module m means for a context (R436, R437): its vote, and the time from which its nodes in the module have
no route to their parents. The Etesian links beyond the two ends of a route are the network's: State.ev.nums names the contexts that it
leaves without one (log entry 17). -/
def State.linkLost (s : State) (m l c : Nat) : State :=
  let net := isEtesian l && s.ev.nums.contains c
  let none_ := !s.treeJoined c m || net
  let x := s.ctx c
  let x := if net ∧ !x.netCut.contains m then { x with netCut := x.netCut ++ [m] } else x
  let u := s.setCtx c (if none_ && (SMap.find x.cut m).isNone then { x with cut := SMap.set x.cut m (s.refTick m) } else x)
  match s.linkUser c (m, linkName l) with
  | some v => u.linkVote c v none_ (m, l)
  | none => u

/-- A link fails (R435, R436): it is marked down, the supervisor hears of it, the contexts with traffic on it take abort votes, and the chunk
threads whose transfers it carried fault with LINK. -/
def State.failLink (s : State) (m l : Nat) : State :=
  let threads := s.mods.map (fun e => (e.1, s.linkThreads e.1 (m, linkName l)))
  let s := s.setLink m l { (s.mod m).link l with down := true, replays := 0 }
  let s := s.moduleEvent m 0x0011 l 0
  let s := (s.ctxs.map (fun e => e.1)).foldl (fun (u : State) c => u.linkLost m l c) s
  threads.foldl (fun (u : State) e => e.2.foldl (fun (w : State) th => w.threadFault e.1 th 0x0F 0) u) s

/-- LINK_CRC_FAILURE (R435): a flit on link State.ev.th of module State.ev.m fails its CRC once more, or with ok false it passes after a
replay and is counted. -/
def execLinkCrcFailure (s : State) : Host.Outcome State Fault Refusal :=
  let m := s.ev.m
  let x := (s.mod m).link s.ev.th
  if x.down then .next s
  else if !s.ev.ok then .next (s.setLink m s.ev.th { x with crc := x.crc + 1, replays := 0 })
  else if x.replays + 1 < 9 then .next (s.setLink m s.ev.th { x with replays := x.replays + 1 })
  else .next (s.failLink m s.ev.th)

/-- LINK_LOCK_LOSS (R435): lane lock has been lost for 64 ticks. -/
def execLinkLockLoss (s : State) : Host.Outcome State Fault Refusal :=
  let m := s.ev.m
  let x := (s.mod m).link s.ev.th
  match x.unlocked with
  | some since => if x.down ∨ s.refTick m < since + 64 then .next s else .next (s.failLink m s.ev.th)
  | none => .next s

/-- LANE_LOCK_LOST (R435). -/
def execLaneLockLost (s : State) : Host.Outcome State Fault Refusal :=
  let m := s.ev.m
  let x := (s.mod m).link s.ev.th
  .next (if x.unlocked.isSome then s else s.setLink m s.ev.th { x with unlocked := some (s.refTick m) })

/-- Link l is back, and with it the routes of the contexts' nodes that it restores (R437): those that an Etesian link had cut come back with an
Etesian link alone, unless State.ev.nums names the context as one that the network still leaves without a route (log entry 17). -/
def State.healCuts (s : State) (l : Nat) : State :=
  let heal := fun (c : Nat) (x : Ctx) =>
    let net := if isEtesian l ∧ !s.ev.nums.contains c then [] else x.netCut
    { x with netCut := net, cut := x.cut.filter (fun e => net.contains e.1 || !s.treeJoined c e.1) }
  { s with ctxs := s.ctxs.map (fun e => (e.1, heal e.1 e.2)) }

/-- LANE_LOCK_REGAINED (R435): the count ends, and a link that was down returns to service. -/
def execLaneLockRegained (s : State) : Host.Outcome State Fault Refusal :=
  let m := s.ev.m
  let x := (s.mod m).link s.ev.th
  .next ((s.setLink m s.ev.th { x with unlocked := none, down := false }).healCuts s.ev.th)

/-- TREE_ROUTE_TIMEOUT (R437): the nodes of the tree of context State.ev.i in module State.ev.m have reached their parents by no route for
1,000,000 ticks. The context's tiles there are parked, and it waits for its restore, whatever was decided. -/
def execTreeRouteTimeout (s : State) : Host.Outcome State Fault Refusal :=
  let c := s.ev.i
  let m := s.ev.m
  let x := s.ctx c
  match SMap.find x.cut m with
  | none => .next s
  | some since =>
    if !x.runs ∨ s.refTick m < since + 1000000 then .next s
    else
      let u := s.parkTiles c (fun t => modOf t == m)
      let ofTree : Msg → Bool := fun g => match g.edge with | some e => e.1 == c | none => false
      .next ({ u with net := u.net.filter (fun g => !ofTree g) }.setCtx c
        { u.ctx c with fatal := true, running := false, decided := none, left := [], nodeVote := none })

end Sys2Proof.Machine
end

