-- ==== Sys2Proof/Machine/Dispatch.lean ====
section
/-! DEFINITION. The meaning of every instruction and step: one arm per constructor of Instr. -/
namespace Sys2Proof.Machine

/-- What an instruction or a step does. -/
def exec (i : Instr) (s : State) : Host.Outcome State Fault Refusal :=
  match i with
  | .ill x0 => Sys2Proof.Machine.execIll x0 s
  | .add x0 x1 x2 => Sys2Proof.Machine.execAdd x0 x1 x2 s
  | .sub x0 x1 x2 => Sys2Proof.Machine.execSub x0 x1 x2 s
  | .and x0 x1 x2 => Sys2Proof.Machine.execAnd x0 x1 x2 s
  | .or x0 x1 x2 => Sys2Proof.Machine.execOr x0 x1 x2 s
  | .xor x0 x1 x2 => Sys2Proof.Machine.execXor x0 x1 x2 s
  | .andn x0 x1 x2 => Sys2Proof.Machine.execAndn x0 x1 x2 s
  | .shl x0 x1 x2 => Sys2Proof.Machine.execShl x0 x1 x2 s
  | .shr x0 x1 x2 => Sys2Proof.Machine.execShr x0 x1 x2 s
  | .sra x0 x1 x2 => Sys2Proof.Machine.execSra x0 x1 x2 s
  | .rol x0 x1 x2 => Sys2Proof.Machine.execRol x0 x1 x2 s
  | .min x0 x1 x2 => Sys2Proof.Machine.execMin x0 x1 x2 s
  | .max x0 x1 x2 => Sys2Proof.Machine.execMax x0 x1 x2 s
  | .minn x0 x1 x2 => Sys2Proof.Machine.execMinn x0 x1 x2 s
  | .maxn x0 x1 x2 => Sys2Proof.Machine.execMaxn x0 x1 x2 s
  | .adds x0 x1 x2 => Sys2Proof.Machine.execAdds x0 x1 x2 s
  | .subs x0 x1 x2 => Sys2Proof.Machine.execSubs x0 x1 x2 s
  | .mul x0 x1 x2 => Sys2Proof.Machine.execMul x0 x1 x2 s
  | .mulh x0 x1 x2 => Sys2Proof.Machine.execMulh x0 x1 x2 s
  | .mulhn x0 x1 x2 => Sys2Proof.Machine.execMulhn x0 x1 x2 s
  | .div x0 x1 x2 => Sys2Proof.Machine.execDiv x0 x1 x2 s
  | .divn x0 x1 x2 => Sys2Proof.Machine.execDivn x0 x1 x2 s
  | .rem x0 x1 x2 => Sys2Proof.Machine.execRem x0 x1 x2 s
  | .remn x0 x1 x2 => Sys2Proof.Machine.execRemn x0 x1 x2 s
  | .clz x0 x1 => Sys2Proof.Machine.execClz x0 x1 s
  | .ctz x0 x1 => Sys2Proof.Machine.execCtz x0 x1 s
  | .popc x0 x1 => Sys2Proof.Machine.execPopc x0 x1 s
  | .brev x0 x1 => Sys2Proof.Machine.execBrev x0 x1 s
  | .seq x0 x1 x2 => Sys2Proof.Machine.execSeq x0 x1 x2 s
  | .sne x0 x1 x2 => Sys2Proof.Machine.execSne x0 x1 x2 s
  | .slt x0 x1 x2 => Sys2Proof.Machine.execSlt x0 x1 x2 s
  | .sge x0 x1 x2 => Sys2Proof.Machine.execSge x0 x1 x2 s
  | .sltn x0 x1 x2 => Sys2Proof.Machine.execSltn x0 x1 x2 s
  | .sgen x0 x1 x2 => Sys2Proof.Machine.execSgen x0 x1 x2 s
  | .cmov x0 x1 x2 => Sys2Proof.Machine.execCmov x0 x1 x2 s
  | .addi x0 x1 x2 => Sys2Proof.Machine.execAddi x0 x1 x2 s
  | .andi x0 x1 x2 => Sys2Proof.Machine.execAndi x0 x1 x2 s
  | .ori x0 x1 x2 => Sys2Proof.Machine.execOri x0 x1 x2 s
  | .xori x0 x1 x2 => Sys2Proof.Machine.execXori x0 x1 x2 s
  | .shli x0 x1 x2 => Sys2Proof.Machine.execShli x0 x1 x2 s
  | .shri x0 x1 x2 => Sys2Proof.Machine.execShri x0 x1 x2 s
  | .srai x0 x1 x2 => Sys2Proof.Machine.execSrai x0 x1 x2 s
  | .muli x0 x1 x2 => Sys2Proof.Machine.execMuli x0 x1 x2 s
  | .slti x0 x1 x2 => Sys2Proof.Machine.execSlti x0 x1 x2 s
  | .sltni x0 x1 x2 => Sys2Proof.Machine.execSltni x0 x1 x2 s
  | .lea x0 x1 x2 x3 => Sys2Proof.Machine.execLea x0 x1 x2 x3 s
  | .ldk x0 x1 => Sys2Proof.Machine.execLdk x0 x1 s
  | .ldi x0 x1 => Sys2Proof.Machine.execLdi x0 x1 s
  | .ldih x0 x1 => Sys2Proof.Machine.execLdih x0 x1 s
  | .bext x0 x1 x2 x3 => Sys2Proof.Machine.execBext x0 x1 x2 x3 s
  | .bins x0 x1 x2 x3 => Sys2Proof.Machine.execBins x0 x1 x2 x3 s
  | .addpc x0 x1 => Sys2Proof.Machine.execAddpc x0 x1 s
  | .ldI8 x0 x1 x2 => Sys2Proof.Machine.execLdI8 x0 x1 x2 s
  | .ldI16 x0 x1 x2 => Sys2Proof.Machine.execLdI16 x0 x1 x2 s
  | .ldI32 x0 x1 x2 => Sys2Proof.Machine.execLdI32 x0 x1 x2 s
  | .ldI64 x0 x1 x2 => Sys2Proof.Machine.execLdI64 x0 x1 x2 s
  | .ldN8 x0 x1 x2 => Sys2Proof.Machine.execLdN8 x0 x1 x2 s
  | .ldN16 x0 x1 x2 => Sys2Proof.Machine.execLdN16 x0 x1 x2 s
  | .ldN32 x0 x1 x2 => Sys2Proof.Machine.execLdN32 x0 x1 x2 s
  | .st8 x0 x1 x2 => Sys2Proof.Machine.execSt8 x0 x1 x2 s
  | .st16 x0 x1 x2 => Sys2Proof.Machine.execSt16 x0 x1 x2 s
  | .st32 x0 x1 x2 => Sys2Proof.Machine.execSt32 x0 x1 x2 s
  | .st64 x0 x1 x2 => Sys2Proof.Machine.execSt64 x0 x1 x2 s
  | .ldbits x0 x1 x2 => Sys2Proof.Machine.execLdbits x0 x1 x2 s
  | .stbits x0 x1 x2 => Sys2Proof.Machine.execStbits x0 x1 x2 s
  | .amoadd32 x0 x1 x2 => Sys2Proof.Machine.execAmoadd32 x0 x1 x2 s
  | .amoand32 x0 x1 x2 => Sys2Proof.Machine.execAmoand32 x0 x1 x2 s
  | .amoor32 x0 x1 x2 => Sys2Proof.Machine.execAmoor32 x0 x1 x2 s
  | .amoxor32 x0 x1 x2 => Sys2Proof.Machine.execAmoxor32 x0 x1 x2 s
  | .amomin32 x0 x1 x2 => Sys2Proof.Machine.execAmomin32 x0 x1 x2 s
  | .amomax32 x0 x1 x2 => Sys2Proof.Machine.execAmomax32 x0 x1 x2 s
  | .amoswp32 x0 x1 x2 => Sys2Proof.Machine.execAmoswp32 x0 x1 x2 s
  | .amoadd64 x0 x1 x2 => Sys2Proof.Machine.execAmoadd64 x0 x1 x2 s
  | .amoand64 x0 x1 x2 => Sys2Proof.Machine.execAmoand64 x0 x1 x2 s
  | .amoor64 x0 x1 x2 => Sys2Proof.Machine.execAmoor64 x0 x1 x2 s
  | .amoxor64 x0 x1 x2 => Sys2Proof.Machine.execAmoxor64 x0 x1 x2 s
  | .amomin64 x0 x1 x2 => Sys2Proof.Machine.execAmomin64 x0 x1 x2 s
  | .amomax64 x0 x1 x2 => Sys2Proof.Machine.execAmomax64 x0 x1 x2 s
  | .amoswp64 x0 x1 x2 => Sys2Proof.Machine.execAmoswp64 x0 x1 x2 s
  | .amocas x0 x1 x2 x3 x4 => Sys2Proof.Machine.execAmocas x0 x1 x2 x3 x4 s
  | .ldfe x0 x1 x2 => Sys2Proof.Machine.execLdfe x0 x1 x2 s
  | .ldfeKeep x0 x1 x2 => Sys2Proof.Machine.execLdfeKeep x0 x1 x2 s
  | .stfe x0 x1 x2 => Sys2Proof.Machine.execStfe x0 x1 x2 s
  | .fetagSetf x0 x1 x2 => Sys2Proof.Machine.execFetagSetf x0 x1 x2 s
  | .fetagSete x0 x1 x2 => Sys2Proof.Machine.execFetagSete x0 x1 x2 s
  | .fetagPeek x0 x1 => Sys2Proof.Machine.execFetagPeek x0 x1 s
  | .bz x0 x1 => Sys2Proof.Machine.execBz x0 x1 s
  | .bnz x0 x1 => Sys2Proof.Machine.execBnz x0 x1 s
  | .bltz x0 x1 => Sys2Proof.Machine.execBltz x0 x1 s
  | .bgez x0 x1 => Sys2Proof.Machine.execBgez x0 x1 s
  | .bgtz x0 x1 => Sys2Proof.Machine.execBgtz x0 x1 s
  | .blez x0 x1 => Sys2Proof.Machine.execBlez x0 x1 s
  | .bcmp x0 x1 x2 x3 => Sys2Proof.Machine.execBcmp x0 x1 x2 x3 s
  | .j x0 => Sys2Proof.Machine.execJ x0 s
  | .jal x0 => Sys2Proof.Machine.execJal x0 s
  | .jr x0 => Sys2Proof.Machine.execJr x0 s
  | .jalr x0 x1 => Sys2Proof.Machine.execJalr x0 x1 s
  | .bws x0 x1 => Sys2Proof.Machine.execBws x0 x1 s
  | .bp x0 x1 x2 => Sys2Proof.Machine.execBp x0 x1 x2 s
  | .loop x0 x1 => Sys2Proof.Machine.execLoop x0 x1 s
  | .loopi x0 x1 => Sys2Proof.Machine.execLoopi x0 x1 s
  | .loops x0 x1 x2 => Sys2Proof.Machine.execLoops x0 x1 x2 s
  | .lbrk => Sys2Proof.Machine.execLbrk s
  | .mfs x0 x1 => Sys2Proof.Machine.execMfs x0 x1 s
  | .mts x0 x1 => Sys2Proof.Machine.execMts x0 x1 s
  | .trap x0 => Sys2Proof.Machine.execTrap x0 s
  | .svc x0 => Sys2Proof.Machine.execSvc x0 s
  | .rtt => Sys2Proof.Machine.execRtt s
  | .nop => Sys2Proof.Machine.execNop s
  | .brk => Sys2Proof.Machine.execBrk s
  | .tmark x0 => Sys2Proof.Machine.execTmark x0 s
  | .retire => Sys2Proof.Machine.execRetire s
  | .prnd x0 x1 => Sys2Proof.Machine.execPrnd x0 x1 s
  | .pext x0 => Sys2Proof.Machine.execPext x0 s
  | .pone => Sys2Proof.Machine.execPone s
  | .poneRecordArrival => Sys2Proof.Machine.execPoneRecordArrival s
  | .vadd x0 x1 x2 x3 x4 => Sys2Proof.Machine.execVadd x0 x1 x2 x3 x4 s
  | .vsub x0 x1 x2 x3 x4 => Sys2Proof.Machine.execVsub x0 x1 x2 x3 x4 s
  | .vmul x0 x1 x2 x3 x4 => Sys2Proof.Machine.execVmul x0 x1 x2 x3 x4 s
  | .vfma x0 x1 x2 x3 x4 => Sys2Proof.Machine.execVfma x0 x1 x2 x3 x4 s
  | .vfms x0 x1 x2 x3 x4 => Sys2Proof.Machine.execVfms x0 x1 x2 x3 x4 s
  | .vfnma x0 x1 x2 x3 x4 => Sys2Proof.Machine.execVfnma x0 x1 x2 x3 x4 s
  | .vmin x0 x1 x2 x3 x4 => Sys2Proof.Machine.execVmin x0 x1 x2 x3 x4 s
  | .vmax x0 x1 x2 x3 x4 => Sys2Proof.Machine.execVmax x0 x1 x2 x3 x4 s
  | .vabs x0 x1 x2 x3 => Sys2Proof.Machine.execVabs x0 x1 x2 x3 s
  | .vneg x0 x1 x2 x3 => Sys2Proof.Machine.execVneg x0 x1 x2 x3 s
  | .vdiv x0 x1 x2 x3 x4 => Sys2Proof.Machine.execVdiv x0 x1 x2 x3 x4 s
  | .vsqrt x0 x1 x2 x3 => Sys2Proof.Machine.execVsqrt x0 x1 x2 x3 s
  | .vand x0 x1 x2 x3 => Sys2Proof.Machine.execVand x0 x1 x2 x3 s
  | .vor x0 x1 x2 x3 => Sys2Proof.Machine.execVor x0 x1 x2 x3 s
  | .vxor x0 x1 x2 x3 => Sys2Proof.Machine.execVxor x0 x1 x2 x3 s
  | .vandn x0 x1 x2 x3 => Sys2Proof.Machine.execVandn x0 x1 x2 x3 s
  | .vshl x0 x1 x2 x3 x4 => Sys2Proof.Machine.execVshl x0 x1 x2 x3 x4 s
  | .vshr x0 x1 x2 x3 x4 => Sys2Proof.Machine.execVshr x0 x1 x2 x3 x4 s
  | .vsra x0 x1 x2 x3 x4 => Sys2Proof.Machine.execVsra x0 x1 x2 x3 x4 s
  | .vops x0 x1 x2 x3 x4 x5 => Sys2Proof.Machine.execVops x0 x1 x2 x3 x4 x5 s
  | .vcmp x0 x1 x2 x3 x4 => Sys2Proof.Machine.execVcmp x0 x1 x2 x3 x4 s
  | .vsel x0 x1 x2 x3 => Sys2Proof.Machine.execVsel x0 x1 x2 x3 s
  | .vcvt x0 x1 x2 x3 x4 => Sys2Proof.Machine.execVcvt x0 x1 x2 x3 x4 s
  | .vbcast x0 x1 x2 x3 => Sys2Proof.Machine.execVbcast x0 x1 x2 x3 s
  | .vext x0 x1 x2 x3 => Sys2Proof.Machine.execVext x0 x1 x2 x3 s
  | .vins x0 x1 x2 x3 => Sys2Proof.Machine.execVins x0 x1 x2 x3 s
  | .vperm x0 x1 x2 x3 x4 => Sys2Proof.Machine.execVperm x0 x1 x2 x3 x4 s
  | .vredsum x0 x1 x2 x3 => Sys2Proof.Machine.execVredsum x0 x1 x2 x3 s
  | .vredmax x0 x1 x2 x3 => Sys2Proof.Machine.execVredmax x0 x1 x2 x3 s
  | .vredmin x0 x1 x2 x3 => Sys2Proof.Machine.execVredmin x0 x1 x2 x3 s
  | .vld x0 x1 x2 x3 => Sys2Proof.Machine.execVld x0 x1 x2 x3 s
  | .vst x0 x1 x2 x3 => Sys2Proof.Machine.execVst x0 x1 x2 x3 s
  | .vldb x0 x1 x2 x3 x4 x5 => Sys2Proof.Machine.execVldb x0 x1 x2 x3 x4 x5 s
  | .vstb x0 x1 x2 x3 x4 => Sys2Proof.Machine.execVstb x0 x1 x2 x3 x4 s
  | .vgath x0 x1 x2 x3 x4 => Sys2Proof.Machine.execVgath x0 x1 x2 x3 x4 s
  | .vscat x0 x1 x2 x3 x4 => Sys2Proof.Machine.execVscat x0 x1 x2 x3 x4 s
  | .vldd x0 x1 x2 x3 => Sys2Proof.Machine.execVldd x0 x1 x2 x3 s
  | .vstd x0 x1 x2 x3 => Sys2Proof.Machine.execVstd x0 x1 x2 x3 s
  | .plogAnd x0 x1 x2 => Sys2Proof.Machine.execPlogAnd x0 x1 x2 s
  | .plogOr x0 x1 x2 => Sys2Proof.Machine.execPlogOr x0 x1 x2 s
  | .plogXor x0 x1 x2 => Sys2Proof.Machine.execPlogXor x0 x1 x2 s
  | .plogAndn x0 x1 x2 => Sys2Proof.Machine.execPlogAndn x0 x1 x2 s
  | .plogNot x0 x1 => Sys2Proof.Machine.execPlogNot x0 x1 s
  | .pmov x0 x1 => Sys2Proof.Machine.execPmov x0 x1 s
  | .pmovFrom x0 x1 => Sys2Proof.Machine.execPmovFrom x0 x1 s
  | .pmovTo x0 x1 => Sys2Proof.Machine.execPmovTo x0 x1 s
  | .pcnt x0 x1 => Sys2Proof.Machine.execPcnt x0 x1 s
  | .zacc x0 x1 => Sys2Proof.Machine.execZacc x0 x1 s
  | .mma x0 x1 x2 x3 => Sys2Proof.Machine.execMma x0 x1 x2 x3 s
  | .mmaKblock => Sys2Proof.Machine.execMmaKblock s
  | .accrd x0 x1 x2 x3 => Sys2Proof.Machine.execAccrd x0 x1 x2 x3 s
  | .accst x0 x1 x2 x3 x4 x5 => Sys2Proof.Machine.execAccst x0 x1 x2 x3 x4 x5 s
  | .accld x0 x1 => Sys2Proof.Machine.execAccld x0 x1 s
  | .accsv x0 x1 x2 => Sys2Proof.Machine.execAccsv x0 x1 x2 s
  | .accadd x0 x1 => Sys2Proof.Machine.execAccadd x0 x1 s
  | .accanch x0 x1 => Sys2Proof.Machine.execAccanch x0 x1 s
  | .cbld x0 x1 x2 x3 => Sys2Proof.Machine.execCbld x0 x1 x2 x3 s
  | .ldd x0 x1 x2 => Sys2Proof.Machine.execLdd x0 x1 x2 s
  | .setd x0 x1 x2 => Sys2Proof.Machine.execSetd x0 x1 x2 s
  | .kwait x0 x1 x2 => Sys2Proof.Machine.execKwait x0 x1 x2 s
  | .kwany x0 x1 x2 => Sys2Proof.Machine.execKwany x0 x1 x2 s
  | .waitc x0 x1 x2 x3 x4 => Sys2Proof.Machine.execWaitc x0 x1 x2 x3 x4 s
  | .fence x0 x1 x2 => Sys2Proof.Machine.execFence x0 x1 x2 s
  | .realign x0 x1 x2 => Sys2Proof.Machine.execRealign x0 x1 x2 s
  | .setdl x0 => Sys2Proof.Machine.execSetdl x0 s
  | .now x0 => Sys2Proof.Machine.execNow x0 s
  | .cbar x0 x1 x2 x3 x4 => Sys2Proof.Machine.execCbar x0 x1 x2 x3 x4 s
  | .abortv x0 => Sys2Proof.Machine.execAbortv x0 s
  | .irrev => Sys2Proof.Machine.execIrrev s
  | .rst x0 x1 x2 => Sys2Proof.Machine.execRst x0 x1 x2 s
  | .vrst x0 x1 x2 x3 => Sys2Proof.Machine.execVrst x0 x1 x2 x3 s
  | .rred x0 x1 x2 => Sys2Proof.Machine.execRred x0 x1 x2 s
  | .vrred x0 x1 x2 x3 x4 => Sys2Proof.Machine.execVrred x0 x1 x2 x3 x4 s
  | .msend x0 x1 x2 x3 => Sys2Proof.Machine.execMsend x0 x1 x2 x3 s
  | .msendEos x0 x1 => Sys2Proof.Machine.execMsendEos x0 x1 s
  | .msendg x0 x1 x2 x3 => Sys2Proof.Machine.execMsendg x0 x1 x2 x3 s
  | .msendgEos x0 x1 => Sys2Proof.Machine.execMsendgEos x0 x1 s
  | .mrecv x0 x1 x2 => Sys2Proof.Machine.execMrecv x0 x1 x2 s
  | .ldg x0 x1 x2 x3 => Sys2Proof.Machine.execLdg x0 x1 x2 x3 s
  | .stg x0 x1 x2 => Sys2Proof.Machine.execStg x0 x1 x2 s
  | .redg x0 x1 x2 => Sys2Proof.Machine.execRedg x0 x1 x2 s
  | .vldg x0 x1 x2 => Sys2Proof.Machine.execVldg x0 x1 x2 s
  | .vstg x0 x1 x2 x3 => Sys2Proof.Machine.execVstg x0 x1 x2 x3 s
  | .vredg x0 x1 x2 x3 => Sys2Proof.Machine.execVredg x0 x1 x2 x3 s
  | .fetchl x0 x1 x2 => Sys2Proof.Machine.execFetchl x0 x1 x2 s
  | .fetchlNext x0 x1 x2 => Sys2Proof.Machine.execFetchlNext x0 x1 x2 s
  | .wbl x0 x1 => Sys2Proof.Machine.execWbl x0 x1 s
  | .copy x0 x1 x2 => Sys2Proof.Machine.execCopy x0 x1 x2 s
  | .copyG x0 x1 x2 => Sys2Proof.Machine.execCopyG x0 x1 x2 s
  | .coll x0 x1 => Sys2Proof.Machine.execColl x0 x1 s
  | .rlstatLock x0 x1 => Sys2Proof.Machine.execRlstatLock x0 x1 s
  | .rlstatProg x0 x1 => Sys2Proof.Machine.execRlstatProg x0 x1 s
  | .rlstatFaddr x0 x1 => Sys2Proof.Machine.execRlstatFaddr x0 x1 s
  | .nextt x0 => Sys2Proof.Machine.execNextt x0 s
  | .prio x0 x1 => Sys2Proof.Machine.execPrio x0 x1 s
  | .profrd x0 x1 => Sys2Proof.Machine.execProfrd x0 x1 s
  | .profrdClr x0 x1 => Sys2Proof.Machine.execProfrdClr x0 x1 s
  | .launch x0 x1 x2 x3 => Sys2Proof.Machine.execLaunch x0 x1 x2 x3 s
  | .bindBind x0 x1 x2 x3 => Sys2Proof.Machine.execBindBind x0 x1 x2 x3 s
  | .bindUnbind x0 x1 x2 => Sys2Proof.Machine.execBindUnbind x0 x1 x2 s
  | .bindFence x0 x1 x2 => Sys2Proof.Machine.execBindFence x0 x1 x2 s
  | .bindUnfence x0 x1 x2 => Sys2Proof.Machine.execBindUnfence x0 x1 x2 s
  | .tmapMap x0 x1 x2 x3 => Sys2Proof.Machine.execTmapMap x0 x1 x2 x3 s
  | .tmapInval x0 x1 x2 x3 => Sys2Proof.Machine.execTmapInval x0 x1 x2 x3 s
  | .tmapGroup x0 x1 x2 x3 => Sys2Proof.Machine.execTmapGroup x0 x1 x2 x3 s
  | .codestCode x0 x1 x2 x3 => Sys2Proof.Machine.execCodestCode x0 x1 x2 x3 s
  | .codestLocal x0 x1 x2 x3 => Sys2Proof.Machine.execCodestLocal x0 x1 x2 x3 s
  | .codestReg x0 x1 x2 x3 => Sys2Proof.Machine.execCodestReg x0 x1 x2 x3 s
  | .codestChunk x0 x1 x2 x3 => Sys2Proof.Machine.execCodestChunk x0 x1 x2 x3 s
  | .codestPtab x0 x1 x2 x3 => Sys2Proof.Machine.execCodestPtab x0 x1 x2 x3 s
  | .startLaunch x0 x1 x2 => Sys2Proof.Machine.execStartLaunch x0 x1 x2 s
  | .startResume x0 x1 x2 x3 => Sys2Proof.Machine.execStartResume x0 x1 x2 x3 s
  | .startStrand x0 x1 x2 x3 => Sys2Proof.Machine.execStartStrand x0 x1 x2 x3 s
  | .quiesceRequest x0 x1 x2 => Sys2Proof.Machine.execQuiesceRequest x0 x1 x2 s
  | .quiesceCkpt x0 x1 x2 => Sys2Proof.Machine.execQuiesceCkpt x0 x1 x2 s
  | .quiesceCancel x0 x1 x2 => Sys2Proof.Machine.execQuiesceCancel x0 x1 x2 s
  | .quiescePark x0 x1 x2 => Sys2Proof.Machine.execQuiescePark x0 x1 x2 s
  | .imgmvSave x0 x1 x2 x3 => Sys2Proof.Machine.execImgmvSave x0 x1 x2 x3 s
  | .imgmvRestore x0 x1 x2 x3 => Sys2Proof.Machine.execImgmvRestore x0 x1 x2 x3 s
  | .imgmvMove x0 x1 x2 x3 => Sys2Proof.Machine.execImgmvMove x0 x1 x2 x3 s
  | .keyld x0 x1 x2 x3 => Sys2Proof.Machine.execKeyld x0 x1 x2 x3 s
  | .keyz x0 x1 x2 => Sys2Proof.Machine.execKeyz x0 x1 x2 s
  | .scrubCluster x0 x1 x2 => Sys2Proof.Machine.execScrubCluster x0 x1 x2 s
  | .scrubPages x0 x1 x2 x3 => Sys2Proof.Machine.execScrubPages x0 x1 x2 x3 s
  | .forceab x0 x1 x2 => Sys2Proof.Machine.execForceab x0 x1 x2 s
  | .dumpLog x0 x1 x2 x3 => Sys2Proof.Machine.execDumpLog x0 x1 x2 x3 s
  | .dumpCtx x0 x1 x2 x3 => Sys2Proof.Machine.execDumpCtx x0 x1 x2 x3 s
  | .dumpTrace x0 x1 x2 x3 => Sys2Proof.Machine.execDumpTrace x0 x1 x2 x3 s
  | .supervisorOpComplete => Sys2Proof.Machine.execSupervisorOpComplete s
  | .chunkNop => Sys2Proof.Machine.execChunkNop s
  | .send => Sys2Proof.Machine.execSend s
  | .recv => Sys2Proof.Machine.execRecv s
  | .reduce => Sys2Proof.Machine.execReduce s
  | .chunkCopy => Sys2Proof.Machine.execChunkCopy s
  | .waitSig => Sys2Proof.Machine.execWaitSig s
  | .waitArm => Sys2Proof.Machine.execWaitArm s
  | .gather => Sys2Proof.Machine.execGather s
  | .deliver => Sys2Proof.Machine.execDeliver s
  | .armred => Sys2Proof.Machine.execArmred s
  | .mcast => Sys2Proof.Machine.execMcast s
  | .setg => Sys2Proof.Machine.execSetg s
  | .setgh => Sys2Proof.Machine.execSetgh s
  | .movg => Sys2Proof.Machine.execMovg s
  | .addg => Sys2Proof.Machine.execAddg s
  | .addgr => Sys2Proof.Machine.execAddgr s
  | .subgr => Sys2Proof.Machine.execSubgr s
  | .mulgr => Sys2Proof.Machine.execMulgr s
  | .remgr => Sys2Proof.Machine.execRemgr s
  | .bnzg => Sys2Proof.Machine.execBnzg s
  | .loopg => Sys2Proof.Machine.execLoopg s
  | .signal => Sys2Proof.Machine.execSignal s
  | .halt => Sys2Proof.Machine.execHalt s
  | .abortc => Sys2Proof.Machine.execAbortc s
  | .fencec => Sys2Proof.Machine.execFencec s
  | .chunkWaitMet => Sys2Proof.Machine.execChunkWaitMet s
  | .chunkWaitExpiry => Sys2Proof.Machine.execChunkWaitExpiry s
  | .chunkBoundExpiry => Sys2Proof.Machine.execChunkBoundExpiry s
  | .chunkTransferComplete => Sys2Proof.Machine.execChunkTransferComplete s
  | .signalApply => Sys2Proof.Machine.execSignalApply s
  | .threadStart => Sys2Proof.Machine.execThreadStart s
  | .collRequestArrival => Sys2Proof.Machine.execCollRequestArrival s
  | .pushDeltaArrival => Sys2Proof.Machine.execPushDeltaArrival s
  | .abortToken => Sys2Proof.Machine.execAbortToken s
  | .waitMet => Sys2Proof.Machine.execWaitMet s
  | .waitTimeout => Sys2Proof.Machine.execWaitTimeout s
  | .implicitDeadline => Sys2Proof.Machine.execImplicitDeadline s
  | .fetchBlockServed => Sys2Proof.Machine.execFetchBlockServed s
  | .cbarDeadlineExpiry => Sys2Proof.Machine.execCbarDeadlineExpiry s
  | .treeArrive => Sys2Proof.Machine.execTreeArrive s
  | .treeWithdraw => Sys2Proof.Machine.execTreeWithdraw s
  | .treeWconf => Sys2Proof.Machine.execTreeWconf s
  | .treeDecide => Sys2Proof.Machine.execTreeDecide s
  | .deltaArrival => Sys2Proof.Machine.execDeltaArrival s
  | .globalDeltaArrival => Sys2Proof.Machine.execGlobalDeltaArrival s
  | .deltaAcknowledgement => Sys2Proof.Machine.execDeltaAcknowledgement s
  | .deltaRefusal => Sys2Proof.Machine.execDeltaRefusal s
  | .baseDieCommit => Sys2Proof.Machine.execBaseDieCommit s
  | .arrayAcknowledgement => Sys2Proof.Machine.execArrayAcknowledgement s
  | .checkpointCaptureDone => Sys2Proof.Machine.execCheckpointCaptureDone s
  | .pageWalkComplete => Sys2Proof.Machine.execPageWalkComplete s
  | .globalReadResponse => Sys2Proof.Machine.execGlobalReadResponse s
  | .engineLineArrival => Sys2Proof.Machine.execEngineLineArrival s
  | .engineLocalLine => Sys2Proof.Machine.execEngineLocalLine s
  | .refetchReport => Sys2Proof.Machine.execRefetchReport s
  | .hostRead => Sys2Proof.Machine.execHostRead s
  | .hostWrite => Sys2Proof.Machine.execHostWrite s
  | .launchRequest => Sys2Proof.Machine.execLaunchRequest s
  | .hostSync => Sys2Proof.Machine.execHostSync s
  | .record => Sys2Proof.Machine.execRecord s
  | .preempt => Sys2Proof.Machine.execPreempt s
  | .resumeRequest => Sys2Proof.Machine.execResumeRequest s
  | .teardown => Sys2Proof.Machine.execTeardown s
  | .attest => Sys2Proof.Machine.execAttest s
  | .keys => Sys2Proof.Machine.execKeys s
  | .recover => Sys2Proof.Machine.execRecover s
  | .writeSlot => Sys2Proof.Machine.execWriteSlot s
  | .reboot => Sys2Proof.Machine.execReboot s
  | .eventDelivery => Sys2Proof.Machine.execEventDelivery s
  | .plimExpiry => Sys2Proof.Machine.execPlimExpiry s
  | .lullReport => Sys2Proof.Machine.execLullReport s
  | .scrubComplete => Sys2Proof.Machine.execScrubComplete s
  | .scrubRestart => Sys2Proof.Machine.execScrubRestart s
  | .scrubLine => Sys2Proof.Machine.execScrubLine s
  | .errorWindowEnd => Sys2Proof.Machine.execErrorWindowEnd s
  | .linkCrcFailure => Sys2Proof.Machine.execLinkCrcFailure s
  | .linkLockLoss => Sys2Proof.Machine.execLinkLockLoss s
  | .treeRouteTimeout => Sys2Proof.Machine.execTreeRouteTimeout s
  | .islandPowerLoss => Sys2Proof.Machine.execIslandPowerLoss s
  | .thermalThrottle => Sys2Proof.Machine.execThermalThrottle s
  | .thermalRecover => Sys2Proof.Machine.execThermalRecover s
  | .thermalShutdown => Sys2Proof.Machine.execThermalShutdown s
  | .lowCoolantFlow => Sys2Proof.Machine.execLowCoolantFlow s
  | .moduleReset => Sys2Proof.Machine.execModuleReset s
  | .stackTrainingDone => Sys2Proof.Machine.execStackTrainingDone s
  | .islctlWrite => Sys2Proof.Machine.execIslctlWrite s
  | .islandTransitionDone => Sys2Proof.Machine.execIslandTransitionDone s
  | .hrefWrite => Sys2Proof.Machine.execHrefWrite s
  | .dropdWrite => Sys2Proof.Machine.execDropdWrite s
  | .dctlHalt => Sys2Proof.Machine.execDctlHalt s
  | .dctlResume => Sys2Proof.Machine.execDctlResume s
  | .dctlStep => Sys2Proof.Machine.execDctlStep s
  | .haltRequest => Sys2Proof.Machine.execHaltRequest s
  | .daccRead => Sys2Proof.Machine.execDaccRead s
  | .daccWrite => Sys2Proof.Machine.execDaccWrite s
  | .daccWaitToken => Sys2Proof.Machine.execDaccWaitToken s
  | .daccWaitTimeout => Sys2Proof.Machine.execDaccWaitTimeout s
  | .itctlWrite => Sys2Proof.Machine.execItctlWrite s
  | .issueTraceStop => Sys2Proof.Machine.execIssueTraceStop s
  | .registerWrite => Sys2Proof.Machine.execRegisterWrite s
  | .egressQueueChange => Sys2Proof.Machine.execEgressQueueChange s
  | .contextClockStop => Sys2Proof.Machine.execContextClockStop s
  | .laneLockLost => Sys2Proof.Machine.execLaneLockLost s
  | .laneLockRegained => Sys2Proof.Machine.execLaneLockRegained s
  | .btctlWrite => Sys2Proof.Machine.execBtctlWrite s
  | .selfTestComplete => Sys2Proof.Machine.execSelfTestComplete s
  | .coolantFlowRestored => Sys2Proof.Machine.execCoolantFlowRestored s

end Sys2Proof.Machine
end

