-- ==== Sys2Proof/Machine/Turn.lean ====
section
/-! DEFINITION. A turn of each agent: the passing of time, the local stores a strand has issued that are not yet performed
(14_consistency.md R346 to R352), a strand's next unit (R222 to R226, R422), a chunk thread's next instruction, errors that
come to stand in storage, and the agent that moves when the agenda names none (log entry 1). -/
namespace Sys2Proof.Machine

/-! ### Time -/

/-- The ticks by which a context's clock advances while k ticks pass: after a halt or a hold it stops within 64 ticks (R228, R442). -/
def State.clockStep (s : State) (k c : Nat) : Nat :=
  let x := s.ctx c
  if !x.running then 0 else if s.clockMayRun c then k else min k (64 - x.ranOn)

/-- The context after k ticks. -/
def State.tickCtx (s : State) (k c : Nat) (x : Ctx) : Ctx :=
  if !x.running then x
  else
    let n := s.clockStep k c
    let y := { x with clock := x.clock + BitVec.ofNat 48 n }
    if s.clockMayRun c then { y with ranOn := 0 } else { y with ranOn := x.ranOn + n, running := decide (x.ranOn + k < 64) }

/-- The ticks by which the clocks of a context's threads and starts advance (R396, R400): a debug halt stops them with the context's. -/
def State.threadStep (s : State) (k c : Nat) : Nat := if (s.ctxTiles c).any (fun t => (s.tile t).stopped) then s.clockStep k c else k

/-- k ticks pass for the contexts, the instances that start, and the chunk threads (R227, R396, R400). -/
def State.ticks (s : State) (k : Nat) : State :=
  if k = 0 then s
  else
    let by_ := s.insts.map (fun i => (i.id, BitVec.ofNat 48 (s.threadStep k i.ctx)))
    let step := fun (id : Nat) => match by_.find? (fun e => e.1 == id) with | some e => e.2 | none => BitVec.ofNat 48 k
    let s : State := { s with ctxs := s.ctxs.map (fun e => (e.1, s.tickCtx k e.1 e.2)) }
    if s.insts = [] then s
    else
      { s with insts := s.insts.map (fun i => { i with clock := i.clock + step i.id }),
               mods := s.mods.map (fun e => (e.1, { e.2 with threads := e.2.threads.map (fun t =>
                 (t.1, { t.2 with clock := t.2.clock + step t.2.inst })) })) }

/-- Every local store is performed within 8 cycles of its issue (R348). -/
def State.performOld (s : State) : State :=
  if s.tiles.all (fun e => e.2.sbuf.isEmpty) then s
  else { s with tiles := s.tiles.map (fun e => (e.1, e.2.performWhere (isMgmt e.1) (fun p => decide (p.since + 8 ≤ s.cycle)))) }

/-- The strands that are ready grow older by n cycles (R226). -/
def State.ageAll (s : State) (n : Nat) : State :=
  if s.tiles.all (fun e => e.2.strands.toList.all (fun r => r.st != .run)) then s
  else { s with tiles := s.tiles.map (fun e => (e.1, s.older n e.1 e.2)) }

/-- n cycles of the nominal clock pass; a tick is 16 of them (R8). -/
def State.advance (s : State) (n : Nat) : State :=
  ((({ s with cycle := s.cycle + n } : State).ageAll n).ticks ((s.cycle + n) / 16 - s.cycle / 16)).performOld

/-- n cycles in which the issue traces see nothing. -/
def State.traceIdle (s : State) : Nat → State
  | 0 => s
  | n + 1 => State.traceIdle (s.traceCycle none) n

/-- The traced cluster of a die belongs to a protected context, whose tiles are not recorded (R523). -/
def State.hiddenTrace (s : State) (d : Nat) : Bool :=
  match (s.cluster (tracedCluster d (s.die d).itctl)).ctx with | some c => (s.ctx c).prot | none => false

/-- n cycles of which the trace memory of a die that still records keeps nothing, since 65,536 more follow (R517, R518). -/
def State.traceSkip (s : State) (n : Nat) : State :=
  { s with dies := s.dies.map (fun e =>
      (e.1, if bitAt e.2.itctl.toNat 0 ∧ !bitAt e.2.itctl.toNat 1 ∧ e.2.itleft ≠ some 0 then
        { e.2 with itcycles := e.2.itcycles + n, itcount := e.2.itcount + (if s.hiddenTrace e.1 then 0 else n) } else e.2)) }

/-- Time alone passes: a record is taken in every cycle (R517); what a trigger of an idle cycle stops has stopped after 65,536 of them. -/
def State.passTime (s : State) (n : Nat) : State :=
  let u := s.advance n
  if u.dies = [] then u
  else
    let first := min n 65537
    let rest := n - first
    ((u.traceIdle first).traceSkip (rest - 65536)).traceIdle (min rest 65536)

/-! ### A strand's turn -/

/-- Correctable errors in the words of the unit are corrected and counted (R429). -/
def State.correctStore (s : State) : State :=
  let k := s.cluster (clusterOf s.curTile)
  if k.errs = [] then s
  else
    let mine := fun (e : ErrMark) => !e.hard && (k.unitAddrs s.me.pc.toNat).any (fun a => e.loc == .store (a / 32))
    (k.errs.filter mine).foldl (fun (u : State) e => u.countError s.curTile cSRAM e.loc.bank)
      (s.setCluster (clusterOf s.curTile) { k with errs := k.errs.filter (fun e => !mine e) })

/-- The slot of the current strand's next unit (R222): true the vector slot. -/
def State.vectorNext (s : State) : Bool := ((s.cluster (clusterOf s.curTile)).unitAt s.me.pc.toNat).vector

/-- The prefixes of a unit and then its instruction are executed. -/
def execUnit : List Instr → Instr → State → Host.Outcome State Fault Refusal
  | [], i, s => exec i s
  | p :: r, i, s => match exec p s with | .next t => execUnit r i t | o => o

/-- The strand's unit did not issue: a stall holds it (R234). -/
def Strand.stalled (r : Strand) : Bool :=
  match r.st, r.wait with
  | .wait, some w => (match w.kind with | .stall _ _ _ => true | _ => false)
  | _, _ => false

/-- What follows the issue of a unit: the next unit may meet breakpoints again (R506), what the unit writes is in flight (R31), the ages of
the tile's strands (R226), and what the issue trace sees of it (R517). -/
def State.issueMark (s u : State) (i : Instr) : State × Option Issue :=
  let t := s.curTile
  let n := s.curStrand
  let r := (u.tile t).strand n
  if r.stalled then (u, none)
  else
    let vec := s.vectorNext
    let r := { r with skipBp := if r.st = .halt then r.skipBp else false }
    let u := u.setTile t (((u.tile t).setStrand n (if u.trapped.isSome then r else u.noteWrites i r)).issued n vec)
    let mark := match i with | .tmark x => some x | _ => none
    (u, some { tile := t, vec := vec, n := n, pc := s.me.pc.toNat, trap := u.trapped, mark := mark,
               code := if u.trapped.isSome then 1 else if mark.isSome then 2 else 0 })

/-- What follows the issue of a unit that is the only one of its cycle. -/
def State.afterIssue (s u : State) (i : Instr) : State := (s.issueMark u i).1.traceCycle (s.issueMark u i).2

/-- The current strand, which holds the blocks of its next unit, issues it. -/
def State.issueUnit (s : State) : Host.Outcome (State × Option Issue) Fault Refusal :=
  let s := s.correctStore
  match s.nextUnit with
  | .error e =>
    (match s.finish .nop (.error e) with
    | .next u => .next (s.issueMark u .nop)
    | .fault f => .fault f
    | .refused r => .refused r)
  | .ok (ps, i) =>
    (match execUnit ps i s with
    | .next u => .next (s.issueMark u i)
    | .fault f => .fault f
    | .refused r => .refused r)

/-- The current strand issues its next unit in this cycle when it is in RUN, or asks for a block that it lacks (R223, R256). -/
def State.unitTurn (s : State) : Host.Outcome (State × Option Issue) Fault Refusal :=
  if s.me.st ≠ .run ∨ s.tileStill s.curTile then .next (s, none)
  else
    let u := s.setMe { s.me with pfx := [], touched := [], stepAt := s.me.pc }
    if !u.unitHeld then .next (u.requestUnit, none) else u.prefetch.issueUnit

/-- Strand n of tile t is the one that issues; late: the local stores of its unit are not performed at once (R348). -/
def State.turnOf (s : State) (t : Nat) (n : BitVec 2) (late : Bool) : State :=
  { s with curTile := t, curStrand := n, trapped := none, late := late }

/-- The turn of strand n of tile t: one cycle passes, and a strand in RUN issues its next unit, or asks for a block that it lacks
(R223, R256). late: the local stores of the unit are not performed at once (R348). -/
def strandTurn (t : Nat) (n : BitVec 2) (late : Bool) (s : State) : Host.Outcome State Fault Refusal :=
  match ((s.advance 1).turnOf t n late).unitTurn with
  | .next r => .next (r.1.traceCycle r.2)
  | .fault f => .fault f
  | .refused r => .refused r

/-! ### Several strands in one cycle -/

/-- The strands of a list that can issue in one cycle: at most one for each slot of a tile (R223). -/
def State.inOneCycle (s : State) : List (Nat × BitVec 2) → List (Nat × BitVec 2) → List (Nat × BitVec 2)
  | [], out => out
  | e :: r, out =>
    let slot := fun (f : Nat × BitVec 2) => ({ s with curTile := f.1, curStrand := f.2 } : State).vectorNext
    State.inOneCycle s r (if out.any (fun f => f.1 == e.1 && (f.2 == e.2 || slot f == slot e)) then out else out ++ [e])

/-- The strands whose REALIGN waits in this cycle, in the clusters of a list of strands, or issues in it, with its address (R259). -/
def State.presentNow (s : State) (l : List (Nat × BitVec 2)) : List (Nat × BitVec 2 × BitVec 16) :=
  let at_ := fun (t : Nat) (n : BitVec 2) =>
    let u : State := { s with curTile := t, curStrand := n }
    let issues := u.me.st == .run && l.contains (t, n) && u.unitHeld &&
      (match u.nextUnit with | .ok (_, .realign _ _ _) => true | _ => false)
    if issues || u.me.realignsAt u.me.pc then some (t, n, u.me.pc) else none
  ((l.map (fun e => clusterOf e.1)).eraseDups).flatMap (fun k => (tilesOf k).flatMap (fun t => strandIx.filterMap (at_ t)))

/-- The strands of a list issue one after another in one cycle; what they issue is kept for the issue trace. -/
def State.issueAll : List (Nat × BitVec 2) → List Issue → State → Host.Outcome State Fault Refusal
  | [], l, s => .next (({ s with present := [] } : State).traceAll l)
  | e :: r, l, s =>
    match (s.turnOf e.1 e.2 false).unitTurn with
    | .next u => State.issueAll r (l ++ u.2.toList) u.1
    | .fault f => .fault f
    | .refused f => .refused f

/-- The turn of several strands: one cycle passes, and each issues its next unit in it (R223); a REALIGN among them finds those of the
others present (R259). -/
def togetherTurn (l : List (Nat × BitVec 2)) (s : State) : Host.Outcome State Fault Refusal :=
  let u := s.advance 1
  let l := u.inOneCycle l []
  State.issueAll l [] { u with present := u.presentNow l }

/-! ### Parts of accesses -/

/-- The pending part at a place of a tile's list is performed, unless an earlier one of its strand writes one of its bytes (R348). -/
def performTurn (t i : Nat) (s : State) : State :=
  let x := s.tile t
  match x.sbuf[i]? with
  | none => s
  | some e =>
    if (x.sbuf.take i).any (fun f => f.strand == e.strand && f.meets e) then s
    else s.setTile t (({ x with sbuf := listDel x.sbuf i } : Tile).performPart (isMgmt t) e)

/-- The size of the single-copy-atomic parts in which an instruction reads local memory, if it reads more than one (R346). The table of
R346 does not list CBLD and LDD: DESIGN CHOICE, they read 16-byte parts (log entry 30). -/
def readParts (i : Instr) : Option Nat :=
  match i with
  | .vld .. => some 16
  | .vldd .. => some 16
  | .accld .. => some 16
  | .cbld .. => some 16
  | .ldd .. => some 16
  | .vldb .. => some 64
  | .ldbits .. => some 64
  | .vgath _ _ _ z _ => some (2 ^ z.toNat)
  | _ => none

/-- The part of local memory that holds address a is read before the others for the next unit of strand n of tile t, when that unit reads
local memory in parts (R346): an access of the part by the strand would not trap. -/
def readPartTurn (t : Nat) (n : BitVec 2) (a : Nat) (s : State) : State :=
  let u := { s with curTile := t, curStrand := n }
  if u.me.st ≠ .run ∨ !u.unitHeld ∨ 2 ^ 18 ≤ a then s
  else match u.nextUnit with
    | .ok (ps, i) =>
      (match readParts i with
      | some z =>
        let lo := a / z * z
        if ps.contains .pone ∨ u.here.locked lo z .load ∨ u.here.hardAt (.line (lo / 64)) then s
        else
          let r := u.me
          s.setStrand t n { r with early := r.early.read u.view a z }
      | none => s)
    | .error _ => s

/-- A 16-byte part of a line of block j of the MMA at place q of the queue is read before the others, at any time from the MMA's issue
until the block runs; the descriptor goes with the first part (R196). R195 counts 32 lines, and the spec does not say whether a line that A
and B share in one block is read once or twice: DESIGN CHOICE, each of its parts is read once for both (log entry 30). -/
def mmaPartTurn (t q j a : Nat) (s : State) : State :=
  let x := s.tile t
  match x.mmaq[q]? with
  | none => s
  | some m =>
    let e := (SMap.find m.early j).getD {}
    if dKlen m.dA ≤ j ∨ m.mtm.getLsbD j ∨ !(blockLines m j).contains (a / 64) ∨ e.cells.any (fun c => c.1 == a / 16 * 16) then s
    else s.setTile t { x with mmaq := listSet x.mmaq q { m with early := SMap.set m.early j (e.read x a 16) } }

/-- The next unit of strand n of tile t waits for a register, token or accumulator that it reads or writes and that an earlier unit of the
strand has yet to write (R31, R234); it has read its own words. -/
def scoreboardTurn (t : Nat) (n : BitVec 2) (s : State) : State :=
  let u := { s with curTile := t, curStrand := n }
  if u.me.st ≠ .run ∨ !u.unitHeld then s
  else match u.nextUnit with
    | .ok (_, i) =>
      let v := (u.setMe { u.me with pfx := [] }).enterStall i 1 0
      if u.hazard i then { v with curTile := s.curTile, curStrand := s.curStrand } else s
    | .error _ => s

/-! ### The turns of other agents -/

/-- The turn of chunk thread th of module m: one cycle passes, and a running thread executes its next slot (R399, R403). -/
def threadTurn (m th : Nat) (s : State) : Host.Outcome State Fault Refusal :=
  let u : State := { (s.advance 1).traceCycle none with curModule := m, curThread := th, late := false, trapped := none }
  let alive := match u.instOf u.thr.inst with | some i => i.st == .running | none => false
  if (u.thread m th).isNone ∨ u.thr.st ≠ .running ∨ alive = false then .next u
  else match u.chunkFetch with
    | .error (.fault c a) => .next (u.threadFault m th c a)
    | .error (.wait _) => .next u
    | .ok w =>
      (match decodeChunk w with
      | .error e => .next (u.threadFault m th (chunkError e) 0)
      | .ok i => exec i (u.setThr { u.thr with ir := w }))

/-- A step of an agent that is neither a strand nor a thread. -/
def eventTurn (i : Instr) (a : EvArgs) (s : State) : Host.Outcome State Fault Refusal :=
  if i.kind = .event then exec i { s with ev := a, late := false, trapped := none } else .next s

/-- An error comes to stand in a tile's storage (R425, R429). -/
def upsetTurn (t : Nat) (e : ErrMark) (s : State) : State := s.setTile t { s.tile t with errs := (s.tile t).errs ++ [e] }

/-- An error comes to stand in a cluster's instruction store (R429). -/
def upsetStoreTurn (k : Nat) (e : ErrMark) (s : State) : State := s.setCluster k { s.cluster k with errs := (s.cluster k).errs ++ [e] }

/-- Reads of a block of a stack meet an uncorrectable error from now on (R324). -/
def upsetMemoryTurn (m k block : Nat) (s : State) : State := s.setStack m k { s.stackAt m k with bad := (s.stackAt m k).bad ++ [block] }

/-- A block of a chunk thread's window meets an uncorrectable error (R411). -/
def upsetChunkTurn (m th block : Nat) (s : State) : State :=
  match s.thread m th with
  | some t => s.setThread m th { t with bad := t.bad ++ [block] }
  | none => s

/-- A turn of the agenda. -/
def takeTurn (t : Turn) (s : State) : Host.Outcome State Fault Refusal :=
  match t with
  | .strand t n => strandTurn t n false s
  | .late t n => strandTurn t n true s
  | .together l => togetherTurn l s
  | .perform t i => .next (performTurn t i s)
  | .readPart t n a => .next (readPartTurn t n a s)
  | .mmaPart t q j a => .next (mmaPartTurn t q j a s)
  | .scoreboard t n => .next (scoreboardTurn t n s)
  | .thread m th => threadTurn m th s
  | .event i a => eventTurn i a s
  | .pass n => .next (s.passTime n)
  | .sync i => .next (s.syncArrives i)
  | .serve t n v => .next (s.serveSvc t n v)
  | .giveUp c => .next (s.giveUpCtx c)
  | .bringBack c ks => .next (s.fromQueue c ks)
  | .route m w l => .next (s.setMod m { s.mod m with routes := SMap.set (s.mod m).routes w l })
  | .upset t e => .next (upsetTurn t e s)
  | .upsetStore k e => .next (upsetStoreTurn k e s)
  | .upsetMemory m k b => .next (upsetMemoryTurn m k b s)
  | .upsetChunk m th b => .next (upsetChunkTurn m th b s)

/-! ### Without an agenda -/

/-- The turn that brings the message at place j to its end. -/
def Msg.turn (g : Msg) (j : Nat) : Turn :=
  let ev := fun (i : Instr) => Turn.event i { i := j }
  match g with
  | .delta d => (match d.dest with
    | .tile _ => ev .deltaArrival
    | .memory _ _ => ev .globalDeltaArrival
    | .axlos _ _ => (match d.body with | .request _ _ _ _ _ => ev .collRequestArrival | _ => ev .pushDeltaArrival))
  | .ack _ => ev .deltaAcknowledgement
  | .refusal _ => ev .deltaRefusal
  | .arrive _ _ _ _ => ev .treeArrive
  | .withdraw _ _ _ _ => ev .treeWithdraw
  | .wconf _ _ _ _ => ev .treeWconf
  | .decide _ _ _ _ => ev .treeDecide
  | .post _ _ _ => ev .poneRecordArrival
  | .baseCommit _ _ _ _ => ev .baseDieCommit
  | .arrayAck _ _ _ _ => ev .arrayAcknowledgement
  | .sync _ _ _ => .sync j
  | .refetch _ _ => ev .refetchReport
  | .abortToken _ _ => ev .abortToken
  | .haltRequest _ _ => ev .haltRequest

/-- The slot that a ready strand's next unit takes (R222, R223): true the vector slot; none for a strand that is not ready. -/
def State.slotOf (s : State) (t : Nat) (n : BitVec 2) : Option Bool :=
  if s.ready t n then some ({ s with curTile := t, curStrand := n } : State).vectorNext else none

/-- The strands of a tile that its two slots choose (R226), those that ask for a block, and those whose unit begins a stall (R186, R234). -/
def State.strandTurns (s : State) (t : Nat) : List Turn :=
  let x := s.tile t
  let slot := strandIx.map (fun n => (n, s.slotOf t n))
  let cands := fun (v : Bool) => (slot.filter (fun e => e.2 == some v)).map (fun e => e.1)
  let chosen := (x.choose (cands false) x.lastScalar).toList ++ (x.choose (cands true) x.lastVector).toList
  let asks := (slot.filter (fun e =>
    let u : State := { s with curTile := t, curStrand := e.1 }
    e.2.isNone && u.me.st == .run && !u.tileStill t && (u.unitHeld || u.me.req.isNone))).map (fun e => e.1)
  (chosen ++ asks).map (fun n => .strand t n)

/-- The steps that a strand's wait, its requests and its global reads call for. -/
def strandEvents (t : Nat) (n : BitVec 2) (r : Strand) : List Turn :=
  let ev := fun (i : Instr) => Turn.event i { tile := t, n := n.toNat }
  let wait := match r.st, r.wait with
    | .wait, some w => (match w.kind with
      | .stall _ _ _ => [ev .waitMet, ev .implicitDeadline]
      | .barrier => [ev .cbarDeadlineExpiry]
      | .aborted => []
      | _ => [ev .waitMet, ev .waitTimeout])
    | _, _ => []
  let read := match r.gread with | some (.reading _ _ _ _) => [ev .globalReadResponse] | _ => []
  wait ++ read ++ (if r.req.isSome then [ev .fetchBlockServed] else [])

/-- The steps that a tile's units call for. -/
def State.tileTurns (s : State) (t : Nat) (x : Tile) : List Turn :=
  let ev := fun (i : Instr) (j : Nat) => Turn.event i { tile := t, i := j }
  s.strandTurns t ++ strandIx.flatMap (fun n => strandEvents t n (x.strand n)) ++
    (if x.mmaq = [] then [] else [ev .mmaKblock 0]) ++
    (span 0 x.eng.length).flatMap (fun j => [ev .engineLineArrival j, ev .engineLocalLine j]) ++
    (if x.capture.isSome then [ev .checkpointCaptureDone 0] else []) ++
    (if x.orphans = [] then [] else [Turn.event .globalReadResponse { tile := t, ok := false }]) ++
    (if x.dbg.tokUntil.isSome then [Turn.event .daccWaitToken { tile := t, ok := false }, ev .daccWaitTimeout 0] else []) ++
    (if x.ecnt.toNat % 2 ^ 16 = 0 then [] else [ev .errorWindowEnd 0])

/-- The steps that a chunk thread calls for. -/
def threadTurns (m th : Nat) (t : Thread) : List Turn :=
  let ev := fun (i : Instr) (j : Nat) => Turn.event i { m := m, th := th, i := j }
  (match t.st with
    | .running => [Turn.thread m th]
    | .waiting => [ev .chunkWaitMet 0, ev .chunkWaitExpiry 0, ev .chunkBoundExpiry 0]
    | _ => []) ++
    (span 0 t.recvs.length).map (ev .chunkTransferComplete) ++ (span 0 t.posted.length).map (ev .signalApply)

/-- The steps that a module's units call for. -/
def moduleTurns (m : Nat) (md : Module) : List Turn :=
  let ev := fun (i : Instr) (j : Nat) => Turn.event i { m := m, i := j }
  md.threads.flatMap (fun e => threadTurns m e.1 e.2) ++ (span 0 md.ops.length).map (ev .supervisorOpComplete) ++
    (if md.events = [] then [] else [ev .eventDelivery 0]) ++
    (span 0 md.scrubs.length).flatMap (fun j => [ev .scrubComplete j, ev .scrubRestart j]) ++
    (md.islands.filter (fun e => e.2.busy)).map (fun e => Turn.event .islandTransitionDone { m := m, th := e.1 })

/-- The steps that the agents of the machine call for, in one order. -/
def State.turns (s : State) : List Turn :=
  (span 0 s.net.length).filterMap (fun j => (s.net[j]?).map (fun g => g.turn j)) ++
    s.tiles.flatMap (fun e => s.tileTurns e.1 e.2) ++
    (span 0 s.walks.length).map (fun j => Turn.event .pageWalkComplete { i := j }) ++
    s.mods.flatMap (fun e => moduleTurns e.1 e.2) ++
    s.insts.flatMap (fun i => i.toStart.flatMap (fun m =>
      [Turn.event .threadStart { m := m, i := i.id }, Turn.event .chunkBoundExpiry { m := m, i := i.id, ok := false }])) ++
    s.ctxs.flatMap (fun e =>
      (if e.2.runs then [] else [Turn.event .lullReport { i := e.1 }]) ++
      (if e.2.running && !s.clockMayRun e.1 then [Turn.event .contextClockStop { i := e.1 }] else []) ++
      (s.egressModules e.1).map (fun m => Turn.event .egressQueueChange { i := e.1, m := m }) ++
      (if e.2.preempt.isSome then [Turn.event .plimExpiry { i := e.1 }] else [])) ++
    (s.dies.filter (fun e => e.2.itleft == some 0)).map (fun e => Turn.event .issueTraceStop { i := e.1 })

/-- The step taken without an agenda: a cycle passes and one of the agents that can move does so, the cycle count choosing among them;
when none can, a tick passes (log entry 1). -/
def autoTurn (s : State) : Host.Outcome State Fault Refusal :=
  match s.turns with
  | [] => .next (s.passTime 16)
  | l =>
    match l[s.cycle % l.length]? with
    | some (.strand t n) => strandTurn t n false s
    | some (.thread m th) => threadTurn m th s
    | some t => takeTurn t (s.passTime 1)
    | none => .next (s.passTime 16)

/-! ### The host's tick of the opcode table -/

/-- The tile that runs the instruction of a table word: a management tile for a supervisor instruction, else tile 0. -/
def fetchTile (nbits w : Nat) : Nat :=
  match decodeTableWord nbits w with
  | some i => if i.kind = .supervisor then mgmtTile 0 0 else 0
  | none => 0

/-- The word stands at address 0 of the tile's instruction store, strand 0 of the tile runs there and holds its block, no error or
transition of its island holds it back, and its turn comes next (log entry 1). -/
def State.placeWord (s : State) (nbits w : Nat) : State :=
  let t := fetchTile nbits w
  let k := clusterOf t
  let x := s.cluster k
  let code := toBytes 8 w ++ List.replicate 24 0
  let s := s.setCluster k { x with store := Memory.writeBytes x.store 0 code, clim := 65536, errs := [] }
  let r := s.strand t 0
  let s := s.setStrand t 0 { r with st := .run, pc := 0, blocks := [0], badEntry := none }
  let m := modOf t
  let i := islandOf k
  let s := if s.tileStill t then s.setMod m ((s.mod m).setIsland i { (s.mod m).island i with busy := false }) else s
  { s with agenda := .strand t 0 :: s.agenda }

end Sys2Proof.Machine
end

