-- ==== Sys2Proof/Machine/Step.lean ====
section
/-! DEFINITION. One step of the machine, and the placing of a word for the next step. -/
namespace Sys2Proof.Machine

/-- One step: the turn that the agenda names, or without an agenda that of an agent which can move (log entry 1). -/
def step (s : State) : Host.Outcome State Fault Refusal :=
  match s.agenda with
  | t :: r => takeTurn t { s with agenda := r }
  | [] => autoTurn s

/-- The state whose next step runs the instruction of a table word (log entry 1). -/
def State.withFetchWord (s : State) (nbits w : Nat) : State := s.placeWord nbits w

end Sys2Proof.Machine
end

