-- ==== Sys2Proof/Safety.lean ====
section
/-! DEFINITION. The terms in which claims speak of a run: the completion of an instruction, what a unit needs so that nothing but its
own effect happens as it retires, what a unit leaves unchanged, and the canonical form of every memory of the machine. -/
namespace Sys2Proof.Machine

/-- No watchpoint of the tile is enabled (R511). -/
def Tile.unwatched (x : Tile) : Bool := (span 0 4).all (fun i => !bitAt (x.dbg.wpc.getD i 0).toNat 7)

/-- A unit of the current strand whose instruction has w words retires with nothing but its own effect: the strand runs, no loop is
open (R149), the next address stays below 0x1_0000 (R30), and neither a single step nor a watchpoint acts on it (R509, R511). -/
def State.plain (s : State) (w : Nat) : Bool :=
  s.me.st == .run && (innermost s.me.lstk).isNone && s.own + 4 * w != 0x10000 && !s.me.stepping && s.me.touched == [] &&
    s.here.unwatched

/-- The instruction completes: its next state is t, at the next sequential address (R32, R45). -/
def Completes (i : Instr) (s t : State) : Prop := exec i s = .next (t.arriveAt (s.own + 4 * wordsOf i))

/-- The checks of R129 pass for n bytes from the 64-bit address a: within local memory, aligned, meeting no lock, and for an access
that stores, with room for the pre-images it needs. -/
def State.localOk (s : State) (a : Word) (n : Nat) (acc : Access) : Bool :=
  decide (a.toNat < 2 ^ 18) && a.toNat % n == 0 && !s.here.locked a.toNat n acc &&
    (!(acc == .store || acc == .ldfe) || s.here.retentionOk (isMgmt s.curTile) (linesOf a.toNat n))

/-- A taken transfer to t meets the checks of R29, R46 and R48: it lies below CLIM, is a multiple of 4, and an instruction word with
T = 1 begins there. -/
def State.canGoTo (s : State) (t : Int) : Bool :=
  decide (0 ≤ t) && decide (t < s.clim) && decide (t < 65536) && decide (t % 4 = 0) &&
    (s.cluster (clusterOf s.curTile)).lands t.toNat

/-- The memories of a module stand in their canonical form: global memory, the mailboxes, the staging area, the windows of its threads. -/
def Module.memoriesWf (x : Module) : Bool :=
  Memory.wf x.mem && Memory.wf x.mbox && Memory.wf x.staging && x.threads.all (fun e => Memory.wf e.2.win)

/-- The memories of a launch state that a context keeps stand in their canonical form (R464). -/
def Ctx.memoriesWf (x : Ctx) : Bool :=
  x.startTiles.all (fun e => Memory.wf e.2.mem) && x.startCode.all (fun e => Memory.wf e.2.1)

/-- Every memory of the machine stands in its canonical form: local memory, the instruction stores, those of the modules and the launch
states of the contexts. -/
def State.memoriesWf (s : State) : Bool :=
  s.tiles.all (fun e => Memory.wf e.2.mem) && s.clusters.all (fun e => Memory.wf e.2.store) && s.mods.all (fun e => e.2.memoriesWf) &&
    s.ctxs.all (fun e => e.2.memoriesWf)

end Sys2Proof.Machine
end

