-- ==== Sys2Proof/Certificates/Slice0/Obligations.lean ====
section
/-! DEFINITION. The statements for the provers, from the numbered rules of the spec. In each, Completes i s t says that the exec of
instruction i in state s answers the next state t with the strand at the next sequential address; State.plain says that nothing but the
unit's own effect happens as it retires. A register written is named with the value that the rule gives. -/
open Sys2Proof Sys2Proof.Machine


/-- R118: every ALU instruction, OP 0x01 with its fn, writes the value of its table row to sd and completes, for every operand; s0 discards
(setS). -/
def Obligations.AluWritesTableValue : Prop :=
  (∀ (d a b : BitVec 6) (p : BitVec 32) (fn : Nat), fn < 16 →
    let l : List Instr := [.add d a b, .sub d a b, .and d a b, .or d a b, .xor d a b, .andn d a b, .shl d a b, .shr d a b, .sra d a b, .rol d a b,
      .min d a b, .max d a b, .minn d a b, .maxn d a b, .adds d a b, .subs d a b]
    decodeWords (BitVec.ofNat 32 (0x400000 + d.toNat * 2 ^ 16 + a.toNat * 2 ^ 10 + b.toNat * 2 ^ 4 + fn)) p = .ok (l.getD fn .nop)) ∧
  ∀ (s : State) (d a b : BitVec 6), s.plain 1 = true →
    let x := s.getS a
    let y := s.getS b
    let sh := y.toNat % 64
    let smax : Int := 2 ^ 63 - 1
    let smin : Int := -2 ^ 63
    Completes (.add d a b) s (s.setS d (x + y)) ∧
    Completes (.sub d a b) s (s.setS d (x - y)) ∧
    Completes (.and d a b) s (s.setS d (x &&& y)) ∧
    Completes (.or d a b) s (s.setS d (x ||| y)) ∧
    Completes (.xor d a b) s (s.setS d (x ^^^ y)) ∧
    Completes (.andn d a b) s (s.setS d (x &&& ~~~y)) ∧
    Completes (.shl d a b) s (s.setS d (BitVec.ofNat 64 (x.toNat * 2 ^ sh))) ∧
    Completes (.shr d a b) s (s.setS d (BitVec.ofNat 64 (x.toNat / 2 ^ sh))) ∧
    Completes (.sra d a b) s (s.setS d (BitVec.ofInt 64 (x.toInt / 2 ^ sh))) ∧
    Completes (.rol d a b) s (s.setS d (x.rotateLeft sh)) ∧
    Completes (.min d a b) s (s.setS d (BitVec.ofInt 64 (min x.toInt y.toInt))) ∧
    Completes (.max d a b) s (s.setS d (BitVec.ofInt 64 (max x.toInt y.toInt))) ∧
    Completes (.minn d a b) s (s.setS d (BitVec.ofNat 64 (min x.toNat y.toNat))) ∧
    Completes (.maxn d a b) s (s.setS d (BitVec.ofNat 64 (max x.toNat y.toNat))) ∧
    Completes (.adds d a b) s (s.setS d (BitVec.ofInt 64 (max smin (min smax (x.toInt + y.toInt))))) ∧
    Completes (.subs d a b) s (s.setS d (BitVec.ofInt 64 (max smin (min smax (x.toInt - y.toInt)))))

/-- R119, R120: MULDIV, OP 0x02 with its fn: multiplication, division by a divisor that is not 0, and the bit counts, whose sb must be zero; the
corner -2^63 by -1 does not trap.
R120: DIV, DIVN, REM and REMN by 0 raise INT_DIVIDE_ZERO, with SUB 0 and TVAL 0, at their unit, in every state. -/
def Obligations.MultiplyDivideAndCountBits : Prop :=
  ((∀ (d a b : BitVec 6) (p : BitVec 32) (fn : Nat), fn < 16 →
    let l : List Instr := [.mul d a b, .mulh d a b, .mulhn d a b, .div d a b, .divn d a b, .rem d a b, .remn d a b, .clz d a, .ctz d a, .popc d a, .brev d a]
    decodeWords (BitVec.ofNat 32 (0x800000 + d.toNat * 2 ^ 16 + a.toNat * 2 ^ 10 + b.toNat * 2 ^ 4 + fn)) p =
      if 11 ≤ fn then .error .unassigned else if 7 ≤ fn ∧ b ≠ 0 then .error .reserved else .ok (l.getD fn .nop)) ∧
  ∀ (s : State) (d a b : BitVec 6), s.plain 1 = true →
    let x := s.getS a
    let y := s.getS b
    Completes (.mul d a b) s (s.setS d (x * y)) ∧
    Completes (.mulh d a b) s (s.setS d (BitVec.ofInt 64 (x.toInt * y.toInt / 2 ^ 64))) ∧
    Completes (.mulhn d a b) s (s.setS d (BitVec.ofNat 64 (x.toNat * y.toNat / 2 ^ 64))) ∧
    (y ≠ 0 →
      Completes (.div d a b) s (s.setS d (BitVec.ofInt 64 (x.toInt.tdiv y.toInt))) ∧
      Completes (.divn d a b) s (s.setS d (x / y)) ∧
      Completes (.rem d a b) s (s.setS d (BitVec.ofInt 64 (x.toInt.tmod y.toInt))) ∧
      Completes (.remn d a b) s (s.setS d (x % y))) ∧
    (∃ n, Completes (.clz d a) s (s.setS d (BitVec.ofNat 64 n)) ∧ n ≤ 64 ∧ x.toNat < 2 ^ (64 - n) ∧ (n < 64 → 2 ^ (63 - n) ≤ x.toNat)) ∧
    (∃ n, Completes (.ctz d a) s (s.setS d (BitVec.ofNat 64 n)) ∧ n ≤ 64 ∧ (∀ i < n, x.getLsbD i = false) ∧
      (n < 64 → x.getLsbD n = true)) ∧
    Completes (.popc d a) s (s.setS d (BitVec.ofNat 64 ((List.range 64).filter (fun i => x.getLsbD i)).length)) ∧
    (∃ r : Word, Completes (.brev d a) s (s.setS d r) ∧ ∀ i < 64, r.getLsbD i = x.getLsbD (63 - i))) ∧
  (∀ (s : State) (d a b : BitVec 6), s.getS b = 0 →
    let t := (s.takeTrap 0x0C 0 0 s.me.pc.toNat false).afterRetire
    exec (.div d a b) s = .next t ∧ exec (.divn d a b) s = .next t ∧ exec (.rem d a b) s = .next t ∧ exec (.remn d a b) s = .next t)

/-- R121: CMP, OP 0x03 with its fn: the compares write 1 or 0; CMOV moves, or leaves sd unchanged, when sb is not 0, or is, and counts as a
reader of sd.
R122, R123: the immediate forms, OP 0x04 to 0x0D, and LEA, OP 0x0E: a signed immediate of 10 bits, or of 32 under PEXT, which the shift forms
do not accept; bits 9:6 of a shift and fn bit 3 of LEA must be zero. -/
def Obligations.CompareAndImmediateFormsWriteTableValue : Prop :=
  ((∀ (d a b : BitVec 6) (p : BitVec 32) (fn : Nat), fn < 16 →
    let l : List Instr := [.seq d a b, .sne d a b, .slt d a b, .sge d a b, .sltn d a b, .sgen d a b, .cmov d a b]
    (0, d.toNat) ∈ readsOf (.cmov d a b) ∧
    decodeWords (BitVec.ofNat 32 (0xC00000 + d.toNat * 2 ^ 16 + a.toNat * 2 ^ 10 + b.toNat * 2 ^ 4 + fn)) p =
      if 7 ≤ fn then .error .unassigned else .ok (l.getD fn .nop)) ∧
  ∀ (s : State) (d a b : BitVec 6), s.plain 1 = true →
    let x := s.getS a
    let y := s.getS b
    let truth : Bool → Word := fun c => if c then 1 else 0
    Completes (.seq d a b) s (s.setS d (truth (x == y))) ∧
    Completes (.sne d a b) s (s.setS d (truth (x != y))) ∧
    Completes (.slt d a b) s (s.setS d (truth (x.slt y))) ∧
    Completes (.sge d a b) s (s.setS d (truth (y.sle x))) ∧
    Completes (.sltn d a b) s (s.setS d (truth (x.ult y))) ∧
    Completes (.sgen d a b) s (s.setS d (truth (y.ule x))) ∧
    Completes (.cmov d a b) s (if y = 0 then s else s.setS d x)) ∧
  ((∀ (d a b : BitVec 6) (i : BitVec 10) (h : BitVec 4) (p : BitVec 32),
    let word : Nat → Nat → BitVec 32 := fun op low => BitVec.ofNat 32 (op * 2 ^ 22 + d.toNat * 2 ^ 16 + a.toNat * 2 ^ 10 + low)
    let sh := i.setWidth 6
    let shift : Instr → Except DecodeError Instr := fun r => if i.toNat < 64 then .ok r else .error .reserved
    decodeWords (word 4 i.toNat) p = .ok (.addi d a i) ∧ decodeWords (word 5 i.toNat) p = .ok (.andi d a i) ∧
    decodeWords (word 6 i.toNat) p = .ok (.ori d a i) ∧ decodeWords (word 7 i.toNat) p = .ok (.xori d a i) ∧
    decodeWords (word 8 i.toNat) p = shift (.shli d a sh) ∧ decodeWords (word 9 i.toNat) p = shift (.shri d a sh) ∧
    decodeWords (word 10 i.toNat) p = shift (.srai d a sh) ∧ decodeWords (word 11 i.toNat) p = .ok (.muli d a i) ∧
    decodeWords (word 12 i.toNat) p = .ok (.slti d a i) ∧ decodeWords (word 13 i.toNat) p = .ok (.sltni d a i) ∧
    decodeWords (word 14 (b.toNat * 2 ^ 4 + h.toNat)) p = (if h.toNat < 8 then .ok (.lea d a b (h.setWidth 3)) else .error .reserved) ∧
    (Instr.shli d a sh).acceptsPext = false ∧ (Instr.shri d a sh).acceptsPext = false ∧ (Instr.srai d a sh).acceptsPext = false) ∧
  ∀ (s : State) (d a b : BitVec 6) (i : BitVec 10) (h : BitVec 3), s.plain 1 = true →
    let x := s.getS a
    let w : Word := match s.pextX with | none => i.signExtend 64 | some e => (e ++ i : BitVec 32).signExtend 64
    let k : Int := w.toInt
    let truth : Bool → Word := fun c => if c then 1 else 0
    Completes (.addi d a i) s (s.setS d (x + w)) ∧
    Completes (.andi d a i) s (s.setS d (x &&& w)) ∧
    Completes (.ori d a i) s (s.setS d (x ||| w)) ∧
    Completes (.xori d a i) s (s.setS d (x ^^^ w)) ∧
    Completes (.shli d a b) s (s.setS d (BitVec.ofNat 64 (x.toNat * 2 ^ b.toNat))) ∧
    Completes (.shri d a b) s (s.setS d (BitVec.ofNat 64 (x.toNat / 2 ^ b.toNat))) ∧
    Completes (.srai d a b) s (s.setS d (BitVec.ofInt 64 (x.toInt / 2 ^ b.toNat))) ∧
    Completes (.muli d a i) s (s.setS d (x * w)) ∧
    Completes (.slti d a i) s (s.setS d (truth (decide (x.toInt < k)))) ∧
    Completes (.sltni d a i) s (s.setS d (truth (x.ult w))) ∧
    Completes (.lea d a b h) s (s.setS d (x + s.getS b * BitVec.ofNat 64 (2 ^ h.toNat))))

/-- R124 to R127: LDK, LDI, LDIH, BEXT, BINS and ADDPC and their words; the immediate of LDK has 16 bits, or 32 under PEXT, whose X then has 16; a
field of BEXT or BINS lies within the word, or the unit raises ILLEGAL_ENCODING with SUB 1 and TVAL the payload. LDIH and BINS read their
destination. -/
def Obligations.ConstantsAndFieldsWriteTableValue : Prop :=
  (∀ (d a lo w : BitVec 6) (i : BitVec 16) (k : BitVec 32) (e : BitVec 22),
    let word : Nat → Nat → BitVec 32 := fun op low => BitVec.ofNat 32 (3 * 2 ^ 30 + op * 2 ^ 22 + d.toNat * 2 ^ 16 + low)
    let none_ : Instr → Except DecodeError Instr := fun r => if i = 0 then .ok r else .error .reserved
    let field : Instr → Except DecodeError Instr := fun r =>
      if e.toNat % 2 ^ 10 ≠ 0 then .error .reserved
      else if k.toNat < 2 ^ 12 ∧ k.toNat % 64 + k.toNat / 64 + 1 ≤ 64 then .ok r else .error .payload
    let low := a.toNat * 2 ^ 10 + e.toNat % 2 ^ 10
    let l := BitVec.ofNat 6 k.toNat
    let v := BitVec.ofNat 6 (k.toNat / 64)
    decodeWords (BitVec.ofNat 32 (0x0F * 2 ^ 22 + d.toNat * 2 ^ 16 + i.toNat)) k = .ok (.ldk d i) ∧ (Instr.ldk d i).pextLimit = 2 ^ 16 ∧
    decodeWords (word 0 i.toNat) k = none_ (.ldi d k) ∧ decodeWords (word 1 i.toNat) k = none_ (.ldih d k) ∧
    decodeWords (word 9 i.toNat) k = none_ (.addpc d k) ∧ decodeWords (word 2 low) k = field (.bext d a l v) ∧
    decodeWords (word 3 low) k = field (.bins d a l v) ∧
    (0, d.toNat) ∈ readsOf (.ldih d k) ∧ (0, d.toNat) ∈ readsOf (.bins d a lo w) ∧
    ∀ (s : State) (own : Nat), 64 < k.toNat % 64 + k.toNat / 64 + 1 → k.toNat < 2 ^ 12 →
      let r : Except Stop (List Instr × Instr) := .error (.trap 0x02 1 (k.setWidth 64) false)
      s.decodeUnit { pre := [], own := own, first := word 2 (a.toNat * 2 ^ 10), payload := k } = r ∧
      s.decodeUnit { pre := [], own := own, first := word 3 (a.toNat * 2 ^ 10), payload := k } = r) ∧
  ∀ (s : State) (d a lo w : BitVec 6) (i : BitVec 16) (k : BitVec 32),
    (s.plain 1 = true →
      Completes (.ldk d i) s (s.setS d (match s.pextX with | none => i.signExtend 64 | some x => (x.setWidth 16 ++ i : BitVec 32).signExtend 64))) ∧
    (s.plain 2 = true →
      Completes (.ldi d k) s (s.setS d (k.signExtend 64)) ∧
      Completes (.ldih d k) s (s.setS d (k ++ (s.getS d).setWidth 32)) ∧
      Completes (.addpc d k) s (s.setS d (BitVec.ofInt 64 (s.own + k.toInt))) ∧
      Completes (.bext d a lo w) s (s.setS d (BitVec.ofNat 64 ((s.getS a).toNat / 2 ^ lo.toNat % 2 ^ (w.toNat + 1)))) ∧
      (lo.toNat + w.toNat + 1 ≤ 64 → ∃ r : Word, Completes (.bins d a lo w) s (s.setS d r) ∧ ∀ j < 64, r.getLsbD j =
        if lo.toNat ≤ j ∧ j < lo.toNat + w.toNat + 1 then (s.getS a).getLsbD (j - lo.toNat) else (s.getS d).getLsbD j))

/-- R128: every local load reads its n bytes, little-endian, at s[sa] + imm × n, sign-extended by the i forms and zero-extended by the n
forms, when the checks of R129 pass, and the strand's own earlier stores stand in what it reads (R348, view); the unit has no PONE and the tile's
storage no error. -/
def Obligations.LocalLoadsReadBytes : Prop :=
  ∀ (s : State) (d a : BitVec 6) (k : BitVec 10), s.plain 1 = true → s.pone = false → s.here.errs = [] →
    let adr : Nat → Word := fun n => s.address a k n
    let v : Nat → Nat := fun n => s.view.lm (adr n).toNat n
    (s.localOk (adr 1) 1 .load = true →
      Completes (.ldI8 d a k) s (s.setS d ((BitVec.ofNat 8 (v 1)).signExtend 64)) ∧
      Completes (.ldN8 d a k) s (s.setS d (BitVec.ofNat 64 (v 1)))) ∧
    (s.localOk (adr 2) 2 .load = true →
      Completes (.ldI16 d a k) s (s.setS d ((BitVec.ofNat 16 (v 2)).signExtend 64)) ∧
      Completes (.ldN16 d a k) s (s.setS d (BitVec.ofNat 64 (v 2)))) ∧
    (s.localOk (adr 4) 4 .load = true →
      Completes (.ldI32 d a k) s (s.setS d ((BitVec.ofNat 32 (v 4)).signExtend 64)) ∧
      Completes (.ldN32 d a k) s (s.setS d (BitVec.ofNat 64 (v 4)))) ∧
    (s.localOk (adr 8) 8 .load = true → Completes (.ldI64 d a k) s (s.setS d (BitVec.ofNat 64 (v 8))))

/-- R128, R129: every local store writes the n low bytes of s[sd] at s[sa] + imm × n, the pre-images taken first (storeBytes), and
changes nothing else: each byte of each tile outside the n bytes reads as before, and every register but the pc is unchanged. A store that
the turn leaves unperformed, or that meets one of the strand's earlier stores still unperformed, joins them (R348): no byte of any tile
reads otherwise, and the strand itself reads the bytes. The tile's storage has no error. -/
def Obligations.LocalStoresWriteOnlyTheirBytes : Prop :=
  ∀ (s : State) (d a : BitVec 6) (k : BitVec 10), s.plain 1 = true → s.here.errs = [] →
    ∀ p ∈ [(Instr.st8 d a k, 1), (Instr.st16 d a k, 2), (Instr.st32 d a k, 4), (Instr.st64 d a k, 8)],
      let adr := s.address a k p.2
      let stored : Nat → Byte := fun x => BitVec.ofNat 8 ((s.getS d).toNat / 2 ^ (8 * (x - adr.toNat)))
      let within : Nat → Prop := fun x => adr.toNat ≤ x ∧ x < adr.toNat + p.2
      let part : Pend := { strand := s.curStrand, since := s.cycle, line := adr.toNat / 64,
                           cells := byteCells adr.toNat (toBytes p.2 (s.getS d).toNat) }
      let waits := s.late || s.here.sbuf.any (fun e => e.strand == s.curStrand && e.meets part)
      s.localOk adr p.2 .store = true →
        (s.direct = true →
          Completes p.1 s (s.setHere (s.here.storeBytes (isMgmt s.curTile) adr.toNat (toBytes p.2 (s.getS d).toNat)))) ∧
        (s.direct = false → waits = false → Completes p.1 s (s.setHere (s.here.performPart (isMgmt s.curTile) part))) ∧
        (waits = true → Completes p.1 s (s.setHere { s.here with sbuf := s.here.sbuf ++ [part] })) ∧
        ∀ t, exec p.1 s = .next t →
          (∀ u x, (t.tile u).byte x = if u = s.curTile ∧ within x ∧ waits = false then stored x else (s.tile u).byte x) ∧
          (∀ x, within x → t.view.byte x = stored x) ∧ (s.me.early = {} → ∀ x, ¬ within x → t.view.byte x = s.view.byte x) ∧
          t.me = { s.me with pc := BitVec.ofNat 16 (s.own + 4), pfx := [], wait := none, stall := none, gread := none,
                             walk := none, vseq := none, early := {} } ∧
          (∀ n, n ≠ s.curStrand → t.here.strand n = s.here.strand n) ∧
          t.here.acc = s.here.acc ∧ t.here.band = s.here.band ∧ t.here.qcfg = s.here.qcfg ∧ t.mods = s.mods ∧ t.ctxs = s.ctxs

/-- R129: a local load or store raises the first cause that applies, in the order LOCAL_BOUND, MISALIGNED, RANGE_LOCK and, for a store,
RETENTION_FULL, with TVAL the address, and has no other effect. -/
def Obligations.LocalAccessRaisesFirstCause : Prop :=
  ∀ (s : State) (d a : BitVec 6) (k : BitVec 10), s.pone = false →
    ∀ p ∈ [(Instr.ldI8 d a k, 1, Access.load), (Instr.ldI16 d a k, 2, Access.load), (Instr.ldI32 d a k, 4, Access.load),
        (Instr.ldI64 d a k, 8, Access.load), (Instr.ldN8 d a k, 1, Access.load), (Instr.ldN16 d a k, 2, Access.load),
        (Instr.ldN32 d a k, 4, Access.load), (Instr.st8 d a k, 1, Access.store), (Instr.st16 d a k, 2, Access.store),
        (Instr.st32 d a k, 4, Access.store), (Instr.st64 d a k, 8, Access.store)],
      let n := p.2.1
      let adr := s.address a k n
      let traps : BitVec 8 → Prop := fun c => exec p.1 s = .next ((s.takeTrap c 0 adr s.me.pc.toNat false).afterRetire)
      (2 ^ 18 ≤ adr.toNat → traps 0x09) ∧
      (adr.toNat < 2 ^ 18 → adr.toNat % n ≠ 0 → traps 0x08) ∧
      (adr.toNat < 2 ^ 18 → adr.toNat % n = 0 → s.here.locked adr.toNat n p.2.2 = true → traps 0x11) ∧
      (p.2.2 = .store → adr.toNat < 2 ^ 18 → adr.toNat % n = 0 → s.here.locked adr.toNat n .store = false →
        s.here.retentionOk (isMgmt s.curTile) (linesOf adr.toNat n) = false → traps 0x12)

/-- R132, R133: an atomic writes its new value at s[sa] and its old value, sign-extended, to sd, in one step, after every earlier store
of its strand has been performed (R349); AMOCAS writes the value back that was there when the comparison fails. -/
def Obligations.AtomicsReadModifyWrite : Prop :=
  ∀ (s : State) (d a b e : BitVec 6), s.plain 1 = true → s.here.errs = [] →
    let r := s.release
    let adr := s.getS a
    let old : Nat → Nat := fun n => r.view.lm adr.toNat n
    let write : Nat → Nat → Tile := fun n v => r.here.storeBytes (isMgmt s.curTile) adr.toNat (toBytes n v)
    let done32 : Instr → BitVec 32 → Prop := fun i v =>
      Completes i s ((r.setHere (write 4 v.toNat)).setS d ((BitVec.ofNat 32 (old 4)).signExtend 64))
    let done64 : Instr → BitVec 64 → Prop := fun i v => Completes i s ((r.setHere (write 8 v.toNat)).setS d (BitVec.ofNat 64 (old 8)))
    (s.localOk adr 4 .store = true →
      let x := BitVec.ofNat 32 (old 4)
      let y := (s.getS b).setWidth 32
      done32 (.amoadd32 d a b) (x + y) ∧ done32 (.amoand32 d a b) (x &&& y) ∧ done32 (.amoor32 d a b) (x ||| y) ∧
      done32 (.amoxor32 d a b) (x ^^^ y) ∧ done32 (.amomin32 d a b) (if x.sle y then x else y) ∧
      done32 (.amomax32 d a b) (if x.sle y then y else x) ∧ done32 (.amoswp32 d a b) y ∧
      (s.plain 2 = true → done32 (.amocas d a b 0 e) (if x = y then (s.getS e).setWidth 32 else x))) ∧
    (s.localOk adr 8 .store = true →
      let x := BitVec.ofNat 64 (old 8)
      let y := s.getS b
      done64 (.amoadd64 d a b) (x + y) ∧ done64 (.amoand64 d a b) (x &&& y) ∧ done64 (.amoor64 d a b) (x ||| y) ∧
      done64 (.amoxor64 d a b) (x ^^^ y) ∧ done64 (.amomin64 d a b) (if x.sle y then x else y) ∧
      done64 (.amomax64 d a b) (if x.sle y then y else x) ∧ done64 (.amoswp64 d a b) y ∧
      (s.plain 2 = true → done64 (.amocas d a b 1 e) (if x = y then s.getS e else x)))

/-- R130, R131: LDBITS reads, and STBITS replaces, the field of w bits from the bit address in sa, w from 1 to 64; no other bit of the
touched bytes changes, nor does it when the store stays unperformed (R348) and each touched line is written later, as one access. -/
def Obligations.BitFieldsReadAndWrite : Prop :=
  ∀ (s : State) (d a w : BitVec 6), s.plain 1 = true → s.here.errs = [] →
    let b := (s.getS a).toNat
    let n := w.toNat + 1
    let p := b / 8
    let m := (b + w.toNat) / 8 + 1 - b / 8
    b + n ≤ 2 ^ 21 →
      (s.here.locked p m .load = false →
        Completes (.ldbits d a w) s (s.setS d (BitVec.ofNat 64 (s.view.lm p m / 2 ^ (b % 8) % 2 ^ n)))) ∧
      (s.here.locked p m .store = false → s.here.retentionOk (isMgmt s.curTile) (linesOf p m) = true →
        (s.direct = true →
          ∃ new : Nat, Completes (.stbits d a w) s (s.setHere (s.here.storeBytes (isMgmt s.curTile) p (toBytes m new))) ∧
            ∀ j < 8 * m, new.testBit j =
              if b % 8 ≤ j ∧ j < b % 8 + n then (s.getS d).getLsbD (j - b % 8) else (s.here.lm p m).testBit j) ∧
        (s.direct = false →
          let cells := fieldCells b n (s.getS d).toNat
          Completes (.stbits d a w) s (s.storeParts (partsOf s.curStrand s.cycle 64 cells)) ∧ cells.map WCell.addr = span p m ∧
            ∀ c ∈ cells, ∀ j < 8, c.mask.getLsbD j = decide (b ≤ 8 * c.addr + j ∧ 8 * c.addr + j < b + n) ∧
              (c.mask.getLsbD j = true → c.val.getLsbD j = (s.getS d).getLsbD (8 * c.addr + j - b))))

/-- R246: LDFE whose word is full writes the word to sd and 0 (MET) to WST, and empties the tag, unless KEEP; R247: STFE whose word is
empty writes the word and fills the tag, once every earlier store of the strand has been performed (R349). No other strand of the tile
waits.
R136: FETAG answers the old side band in sd; SETF and SETE set and clear tags, and write the descriptor when bit 32 of sb is 1; PEEK
changes nothing, SETF and SETE come after every earlier store of the strand (R349). No strand of the tile waits. -/
def Obligations.FullEmptyWordsAndSideBand : Prop :=
  (∀ (s : State) (d a : BitVec 6) (l : BitVec 3), s.plain 1 = true → s.here.errs = [] →
    (∀ n, n ≠ s.curStrand → (s.here.strand n).st ≠ .wait) →
    let adr := s.getS a
    let x := adr.toNat
    let mgmt := isMgmt s.curTile
    (s.localOk adr 4 .ldfeKeep = true → s.here.full x = true →
      Completes (.ldfeKeep d a l) s ((s.setS d (BitVec.ofNat 64 (s.view.lm x 4))).setWst 0 s.me.pc.toNat)) ∧
    (s.localOk adr 4 .ldfe = true → s.here.full x = true →
      Completes (.ldfe d a l) s
        (((s.setHere ((s.here.touch mgmt (x / 64) 0).setFull x false)).setS d (BitVec.ofNat 64 (s.view.lm x 4))).setWst 0 s.me.pc.toNat)) ∧
    (s.localOk adr 4 .store = true → s.here.full x = false →
      Completes (.stfe d a l) s
        ((s.release.setHere (((s.release.here.storeBytes mgmt x (toBytes 4 (s.getS d).toNat)).touch mgmt (x / 64) 0).setFull x true)).setWst 0
          s.me.pc.toNat))) ∧
  (∀ (s : State) (d a b : BitVec 6), s.plain 1 = true → s.here.errs = [] →
    (∀ n, n ≠ s.curStrand → (s.here.strand n).st ≠ .wait) →
    let adr := s.getS a
    let line := adr.toNat / 64
    let mgmt := isMgmt s.curTile
    let r := s.release
    let old := r.view.bandAt line
    let y := s.getS b
    let desc : BitVec 32 → BitVec 32 := fun tags =>
      if y.getLsbD 32 then ((y.setWidth 32 >>> 16) <<< 16) ||| (tags &&& 0xFFFF) else tags
    let put : BitVec 32 → State := fun new =>
      if new = old then r else r.setHere ((r.here.touch mgmt line 0).setBand line new)
    adr.toNat < 2 ^ 18 → adr.toNat % 64 = 0 →
      (s.here.locked adr.toNat 64 .peek = false → Completes (.fetagPeek d a) s (s.setS d ((s.view.bandAt line).setWidth 64))) ∧
      (s.here.locked adr.toNat 64 .store = false → s.here.retentionOk mgmt [line] = true →
        Completes (.fetagSetf d a b) s ((put (desc (old ||| (y.setWidth 32 &&& 0xFFFF)))).setS d (old.setWidth 64)) ∧
        Completes (.fetagSete d a b) s ((put (desc (old &&& ~~~(y.setWidth 32 &&& 0xFFFF)))).setS d (old.setWidth 64))))

/-- R137, R138, R141, R142: a branch whose condition holds goes to own + 4 × imm, with a JUMP record of the branch trace, when the target
passes the checks of R46 and R48; one whose condition fails goes on, whatever its target.
R139, R140: J goes to its target; JAL and JALR also write own + 4 to s63 and sd; JR and JALR take the target from sa, read before
the link is written. -/
def Obligations.TransfersGoToTheirTargets : Prop :=
  (∀ (s : State) (x y : BitVec 6) (i : BitVec 16) (q n : BitVec 3) (c : BitVec 4) (off : BitVec 32), n.toNat ≤ 3 → c.toNat ≤ 5 →
    let u := s.getS x
    let v := s.getS y
    let pr := s.getP q
    let short : Int := s.own + 4 * s.imm i
    let long : Int := s.own + 4 * off.toInt
    ∀ b ∈ [(Instr.bz x i, short, u == 0), (.bnz x i, short, u != 0), (.bltz x i, short, u.slt 0), (.bgez x i, short, !u.slt 0),
        (.bgtz x i, short, BitVec.slt 0 u), (.blez x i, short, !BitVec.slt 0 u), (.bws x i, short, s.me.wst == x.setWidth 8),
        (.bp q n i, short,
          if n = 0 then pr != 0 else if n = 1 then pr == BitVec.allOnes 64 else if n = 2 then pr == 0 else pr != BitVec.allOnes 64),
        (.bcmp x y c off, long,
          if c = 0 then u == v else if c = 1 then u != v else if c = 2 then u.slt v else if c = 3 then v.sle u
          else if c = 4 then u.ult v else v.ule u)],
      s.plain (wordsOf b.1) = true →
        (b.2.2 = false → Completes b.1 s s) ∧
        (b.2.2 = true → s.canGoTo b.2.1 = true →
          exec b.1 s = .next ((s.branchRecord s.curTile s.curStrand 1 s.me.pc.toNat b.2.1.toNat).arriveAt b.2.1.toNat))) ∧
  (∀ (s : State) (d a : BitVec 6) (i : BitVec 22), s.plain 1 = true →
    let far : Int := s.own + 4 * s.imm i
    let reg : Int := (s.getS a).toNat
    let link := BitVec.ofNat 64 (s.own + 4)
    let goes : Instr → State → Int → Prop := fun j t k =>
      s.canGoTo k = true → exec j s = .next ((t.branchRecord s.curTile s.curStrand 1 s.me.pc.toNat k.toNat).arriveAt k.toNat)
    goes (.j i) s far ∧ goes (.jal i) (s.setS 63 link) far ∧ goes (.jr a) s reg ∧ goes (.jalr d a) (s.setS d link) reg)

/-- R29, R46, R48: a taken transfer whose target is not below CLIM raises FETCH_BOUND, a register target that is not a multiple of 4
raises MISALIGNED, and one at which no instruction word with T = 1 begins raises LANDING, each with TVAL the target and no effect.
R30: where the next sequential address of a unit is 0x1_0000 and no back edge is taken, the unit raises FETCH_BOUND, with TVAL
0x1_0000, before any effect. Said of ADD, whose register is not written. -/
def Obligations.TransferAndSequenceBounds : Prop :=
  (∀ (s : State) (d a : BitVec 6) (i : BitVec 22),
    let far : Int := s.own + 4 * s.imm i
    let reg := s.getS a
    let k := s.cluster (clusterOf s.curTile)
    let traps : Instr → BitVec 8 → Word → Prop := fun j c tv =>
      exec j s = .next ((s.takeTrap c 0 tv s.me.pc.toNat false).afterRetire)
    (∀ j ∈ [Instr.j i, .jal i],
      ((far < 0 ∨ (s.clim : Int) ≤ far) → traps j 0x07 (BitVec.ofInt 64 far)) ∧
      (0 ≤ far → far < s.clim → far % 4 = 0 → k.lands far.toNat = false → traps j 0x06 (BitVec.ofInt 64 far))) ∧
    (∀ j ∈ [Instr.jr a, .jalr d a],
      ((2 ^ 16 ≤ reg.toNat ∨ s.clim ≤ reg.toNat) → traps j 0x07 reg) ∧
      (reg.toNat < 2 ^ 16 → reg.toNat < s.clim → reg.toNat % 4 ≠ 0 → traps j 0x08 reg) ∧
      (reg.toNat < 2 ^ 16 → reg.toNat < s.clim → reg.toNat % 4 = 0 → k.lands reg.toNat = false → traps j 0x06 reg))) ∧
  (∀ (s : State) (d a b : BitVec 6), s.me.st = .run → innermost s.me.lstk = none → s.own + 4 = 0x10000 →
    exec (.add d a b) s = .next ((s.takeTrap 0x07 0 0x10000 s.me.pc.toNat false).afterRetire))

/-- R146, R147: LOOP and LOOPI push an entry of the body and go on, or skip the body, with no back edge, when the count is 0.
R149: the unit whose words end past the innermost counted entry's END takes its back edge: CNT is lowered and the strand goes to
START, or, from a CNT of 1, the entry is popped and the strand goes to END + 4. Said of NOP, whose own effect is nothing. -/
def Obligations.CountedLoopsPushSkipAndCount : Prop :=
  (∀ (s : State) (x : BitVec 6) (e count : BitVec 16), s.own % 4 = 0 →
    let fin := s.own + 4 * e.toNat
    let entry : Nat → Nat → State := fun start n => s.setMe { s.me with lstk := s.me.lstk.set 0 (entPack false start fin n) }
    (s.plain 1 = true → fin ≤ 0xFFFC → (s.getS x).toNat < 2 ^ 32 → (s.getS x).toNat ≠ 0 → 0 < e.toNat →
      Completes (.loop x e) s (entry (s.own + 4) (s.getS x).toNat)) ∧
    (s.plain 1 = true → fin + 4 < 0x10000 → s.getS x = 0 → exec (.loop x e) s = .next (s.arriveAt (fin + 4))) ∧
    (s.plain 2 = true → fin ≤ 0xFFFC → count ≠ 0 → 1 < e.toNat →
      Completes (.loopi e count) s (entry (s.own + 8) count.toNat)) ∧
    (s.plain 2 = true → fin + 4 < 0x10000 → exec (.loopi e 0) s = .next (s.arriveAt (fin + 4)))) ∧
  (∀ (s : State) (start cnt : Nat), s.me.st = .run → s.me.stepping = false → s.me.touched = [] → s.me.pfx = [] →
    s.me.lstk = #v[entPack false start s.me.pc.toNat cnt, 0, 0, 0] → s.me.pc.toNat % 4 = 0 → s.me.pc.toNat < 0xFFFC →
    start % 4 = 0 → start < 0x10000 → 0 < cnt → cnt < 2 ^ 32 →
      (1 < cnt → exec .nop s =
        .next ((s.setMe { s.me with lstk := #v[entPack false start s.me.pc.toNat (cnt - 1), 0, 0, 0] }).arriveAt start)) ∧
      (cnt = 1 → exec .nop s = .next ((s.setMe { s.me with lstk := #v[0, 0, 0, 0] }).arriveAt (s.me.pc.toNat + 4))))

/-- R150: LBRK, OP 0x2F with a zero body, pops the innermost entry and goes to END + 4 of that entry, with no test of a T mark there; it raises
LOOP_STACK with SUB 2 when no entry is active, and FETCH_BOUND when END + 4 is 0x1_0000 (R30).
That an outer entry of the same END takes no back edge then is the model's choice (log entry 56), and so is LOOP_STACK before FETCH_BOUND in the last word
(log entry 50). -/
def Obligations.BreakPopsTheInnermostLoop : Prop :=
  (∀ (t : Bool) (x : BitVec 22) (p : BitVec 32),
    decodeWords (BitVec.ofNat 32 (0x2F * 2 ^ 22 + (if t then 2 ^ 29 else 0) + x.toNat)) p = if x = 0 then .ok .lbrk else .error .reserved) ∧
  ∀ (s : State), s.me.stepping = false → s.me.touched = [] →
    (∀ i, innermost s.me.lstk = some i →
      let past := entEnd (lstkAt s.me.lstk i) + 4
      (past ≠ 0x10000 → exec .lbrk s = .next ((s.setMe { s.me with lstk := setAt s.me.lstk i 0 }).arriveAt past)) ∧
      (past = 0x10000 → exec .lbrk s = .next ((s.takeTrap 0x07 0 0x10000 s.me.pc.toNat false).afterRetire))) ∧
    (innermost s.me.lstk = none →
      exec .lbrk s = .next (s.takeTrap 0x0B 2 (BitVec.ofNat 64 s.own) s.me.pc.toNat false))

/-- R148: LOOPS at a queue with a data record pushes the stream entry, clears p7, sets WST to MET and begins the body; at an end-of-stream
record it consumes the record, sets p7 to all ones and WST to EOS, and goes past END. The tile's storage has no error. -/
def Obligations.StreamLoopExaminesQueue : Prop :=
  ∀ (s : State) (q : BitVec 2) (l : BitVec 3) (e : BitVec 16), s.plain 1 = true → s.own % 4 = 0 → s.here.errs = [] →
    let seen := (s.arriveAt s.me.pc.toNat).view
    let fin := s.own + 4 * e.toNat
    let entry := entPack true (s.own + 4) fin (q.toNat + 4 * l.toNat)
    0 < e.toNat → fin < 0xFFFC → s.here.ringExists s.supervisor q = true →
      (∀ p z, seen.headRec q = .record false p z →
        exec (.loops q l e) s = .next ((((s.setMe { s.me with lstk := s.me.lstk.set 0 entry }).setP 7 0).setWst 0 s.me.pc.toNat).arriveAt
          (s.own + 4))) ∧
      (∀ p z, seen.headRec q = .record true p z →
        exec (.loops q l e) s = .next (((((s.setHere (s.here.consume q p z)).setMe { s.me with lstk := s.me.lstk.set 0 0 }).setP 7 (BitVec.allOnes 64)).setWst 5 s.me.pc.toNat).arriveAt
          (fin + 4)))

/-- R22 to R27, R480, R531 and the layouts they name: MFS reads each control register of a strand and its tile, zero-extended, into sd, and in supervisor
mode the registers of the module: SCRUBP's BUSY, QUAR where no cluster is marked, OPS and REMAIN, MODID, MBXP and the fields of ISLCTL.
That a field which the hardware computes (PTID, STRN, RETU, RETC, and ELECT's bit 4) reads what CODEST.reg has put over it, until the strand starts again, is the
model's reading of R484 (forced, log entry 14). -/
def Obligations.MfsReadsControlRegisters : Prop :=
  ∀ (s : State) (d : BitVec 6), s.plain 1 = true →
    let r := s.me
    let x := s.here
    let k := s.cluster (clusterOf s.curTile)
    (∀ p ∈ ([(0, BitVec.ofNat 64 (r.st.code * 512 + (if x.irv then 256 else 0) + (if r.th then 2 else 0) + (if s.supervisor then 1 else 0))),
        (1, r.wst.setWidth 64), (2, r.dla.setWidth 64), (3, r.dt[0].setWidth 64), (4, r.dt[1].setWidth 64), (5, r.dt[2].setWidth 64),
        (6, r.dt[3].setWidth 64), (7, r.dt[4].setWidth 64), (8, r.dt[5].setWidth 64), (9, r.dt[6].setWidth 64), (10, r.flg.setWidth 64),
        (11, r.tvec.setWidth 64), (12, r.tcause.setWidth 64), (13, r.tpc.setWidth 64), (14, r.tval), (15, r.tpol.setWidth 64),
        (16, r.mtm), (17, r.vpm), (18, r.sen.setWidth 64), (19, BitVec.ofNat 64 (x.num * 2 ^ 16 + x.att % 2 ^ 16)), (20, r.dlpol.setWidth 64),
        (21, BitVec.ofNat 64 (r.wtoAddr.toNat * 2 ^ 32 + r.wtoCount.toNat)),
        (22, BitVec.ofNat 64 ((if r.comm && r.raised then 8 else 0) + (if r.comm then 4 else 0) + r.prio.toNat)), (23, k.clim.setWidth 64),
        (24, BitVec.ofNat 64 (r.schcBase.toNat * 2 ^ 36 + r.schcLen.toNat * 2 ^ 16 + r.cur.toNat)),
        (25, r.lstk[0]), (26, r.lstk[1]), (27, r.lstk[2]), (28, r.lstk[3]), (29, x.vtid.setWidth 64), (31, s.curStrand.setWidth 64),
        (30, BitVec.ofNat 64 (if isMgmt s.curTile then (s.curTile - 2 ^ 28) / 16 % 8 else s.curTile % 2 ^ 18)),
        (32, BitVec.ofNat 64 (r.oakSys.toNat * 2 ^ 32 + r.oakCtx.toNat * 2 ^ 16 + r.oakTile.toNat)),
        (33, BitVec.ofNat 64 (64 * x.pre.length + 2560 * x.accPre.length)), (34, (65536 : Word)),
        (35, BitVec.ofNat 64 (k.elect.toNat + if isMgmt s.curTile || s.curTile % 16 == k.elect.toNat then 16 else 0)),
        (36, (s.tick s.curTile).setWidth 64), (260, x.qcfg[0]), (261, x.qcfg[1]), (262, x.qcfg[2]), (263, x.qcfg[3]), (264, x.grpm), (270, x.ewin),
        (271, x.ethr), (272, (x.window (s.refTick (modOf s.curTile))).ecnt)] : List (Nat × Word)),
      SMap.find r.forced p.1 = none → Completes (.mfs d (BitVec.ofNat 10 p.1)) s (s.setS d p.2)) ∧
      (∀ v n, n ∈ [30, 31, 33, 34] → SMap.find r.forced n = some v → Completes (.mfs d (BitVec.ofNat 10 n)) s (s.setS d v)) ∧
      (∀ v, SMap.find r.forced 35 = some v →
        Completes (.mfs d 35) s (s.setS d (BitVec.ofNat 64 (k.elect.toNat + if v.getLsbD 4 then 16 else 0)))) ∧
      (∀ j < 64, Completes (.mfs d (BitVec.ofNat 10 (280 + j))) s (s.setS d (SMap.get 0 x.latacc j))) ∧
      (s.supervisor = false → Completes (.mfs d 256) s (s.setS d x.rega0) ∧ Completes (.mfs d 257) s (s.setS d x.rega1)) ∧
      (s.supervisor = true →
        let md := s.mod (modOf s.curTile)
        let isl := md.island md.islSel.toNat
        (∃ w : Word, Completes (.mfs d 514) s (s.setS d w) ∧ w.getLsbD 63 = !md.scrubs.isEmpty ∧
          (md.scrubs = [] → md.service = [] → s.clusters = [] → w = 0) ∧
          bitsOf w.toNat 47 32 = md.scrubs.length % 2 ^ 16 ∧ w.toNat % 2 ^ 32 = (md.scrubs.map ScrubOp.units).foldl (· + ·) 0 % 2 ^ 32) ∧
        Completes (.mfs d 515) s (s.setS d (BitVec.ofNat 64 (modOf s.curTile % 1024))) ∧
        (∃ w : Word, Completes (.mfs d 516) s (s.setS d w) ∧ ∀ i < 64, w.getLsbD i = md.pending.any (fun b => b % 16 == i)) ∧
        Completes (.mfs d 518) s (s.setS d (BitVec.ofNat 64 ((if isl.busy then 2 ^ 63 else 0) + (if md.islFail then 2 ^ 62 else 0) +
          md.islSel.toNat * 2 ^ 48 + isl.op.toNat * 2 ^ 40 + isl.req.toNat * 2 ^ 32 + isl.temp.toNat))) ∧
        Completes (.mfs d 512) s (s.setS d md.evt) ∧ Completes (.mfs d 513) s (s.setS d (md.evlost.setWidth 64)) ∧
        Completes (.mfs d 517) s (s.setS d (md.href.setWidth 64)))

/-- R22 to R24, R294, R420: MTS writes the writable fields of a control register from s[sa]; read-only and reserved fields keep their values; a field of TPOL written
3 holds 2. QCFGq of an empty queue with no overflow and no message on its way takes EN, LOG2 and BASE, and of any queue a HEAD that is a multiple of 16 from
CHEAD to TAIL. A written loop-stack entry is left inactive here, so that no back edge follows.
R22 to R24, R480: MFS and MTS of a number from 512 up raise PRIVILEGE in user mode; MTS of a register that the mode may not write raises
PRIVILEGE (DT7 in user mode); an unassigned number raises ILLEGAL_ENCODING; TVAL is the number, and nothing is read or written.
That a number from 576 up, of the debug registers (R504), raises ILLEGAL_ENCODING in supervisor mode is the model's reading (log entry 34). -/
def Obligations.ControlRegisterWritesAndPrivilege : Prop :=
  (∀ (s : State) (a : BitVec 6), s.plain 1 = true →
    let r := s.me
    let v := s.getS a
    (∀ p ∈ ([(1, { r with wst := v.setWidth 8 }), (2, { r with dla := v.setWidth 48 }), (3, { r with dt := r.dt.set 0 (v.setWidth 32) }),
        (4, { r with dt := r.dt.set 1 (v.setWidth 32) }), (5, { r with dt := r.dt.set 2 (v.setWidth 32) }),
        (6, { r with dt := r.dt.set 3 (v.setWidth 32) }), (7, { r with dt := r.dt.set 4 (v.setWidth 32) }),
        (8, { r with dt := r.dt.set 5 (v.setWidth 32) }),
        (10, { r with flg := (r.flg &&& 0x7FCE0) ||| (v.setWidth 19 &&& 0x0031F) }),
        (11, { r with tvec := v.setWidth 16 &&& 0xFFFD }), (13, { r with tpc := v.setWidth 16 &&& 0xFFFC }), (16, { r with mtm := v }),
        (17, { r with vpm := v }), (20, { r with dlpol := v.setWidth 16 }),
        (21, { r with wtoAddr := (v >>> 32).setWidth 16, wtoCount := v.setWidth 16 }),
        (22, { r with prio := v.setWidth 2, comm := v.getLsbD 2 }), (24, { r with cur := v.setWidth 11 })] : List (Nat × Strand)),
      Completes (.mts a (BitVec.ofNat 10 p.1)) s (s.setMe p.2)) ∧
    (v.getLsbD 63 = false → ∀ j : Fin 4,
      Completes (.mts a (BitVec.ofNat 10 (25 + j))) s (s.setMe { r with lstk := r.lstk.set j (v &&& 0xFFFFFFFCFFFFFFFF) })) ∧
    (∃ tp : BitVec 12, Completes (.mts a 15) s (s.setMe { r with tpol := tp }) ∧
      ∀ i < 6, tp.toNat / 4 ^ i % 4 = min (v.toNat / 4 ^ i % 4) 2) ∧
    (∀ q : BitVec 2,
      let x := s.here
      let c := x.qcfgAt q
      let from_ := if isMgmt s.curTile then qHead c else x.cheadAt q
      let moves : Bool := decide (qHead v % 16 = 0 ∧ (qHead v + 65536 - from_) % 65536 ≤ (qTail c + 65536 - from_) % 65536)
      let fixed : Bool := qHead c != qTail c || !(x.overflowAt q).isEmpty || x.messageWaits q
      let old := if fixed then c else v
      ∃ w : Word, Completes (.mts a (BitVec.ofNat 10 (260 + q.toNat))) s (s.setHere { x with qcfg := x.qcfg.set q.toNat w q.isLt }) ∧
        qHead w = (if moves then qHead v else qHead c) ∧ qTail w = qTail c ∧ qEn w = qEn old ∧ qLog w = qLog old ∧ qBase w = qBase old ∧
        w.toNat / 2 ^ 29 % 8 = 0 ∧ w.toNat / 2 ^ 18 % 64 = 0) ∧
    (s.supervisor = true →
      let m := modOf s.curTile
      Completes (.mts a 512) s (s.setMod m { s.mod m with evt := v &&& 0x1F }) ∧
      Completes (.mts a 513) s (s.setMod m { s.mod m with evlost := v.setWidth 32 }) ∧
      Completes (.mts a 517) s (s.setMod m { s.mod m with href := (s.mod m).href &&& ~~~(v.setWidth 32) }) ∧
      Completes (.mts a 9) s (s.setMe { r with dt := r.dt.set 6 (v.setWidth 32) })) ∧
    (s.supervisor = false →
      Completes (.mts a 256) s (s.setHere { s.here with rega0 := v }) ∧ Completes (.mts a 257) s (s.setHere { s.here with rega1 := v }))) ∧
  (∀ (s : State) (a : BitVec 6) (r : BitVec 10),
    let traps : Instr → BitVec 8 → Prop := fun i c =>
      exec i s = .next ((s.takeTrap c 0 (r.setWidth 64) s.me.pc.toNat false).afterRetire)
    (512 ≤ r.toNat → s.supervisor = false → traps (.mfs a r) 0x0A ∧ traps (.mts a r) 0x0A) ∧
    ((r.toNat ∈ [0, 12, 14, 18, 19, 23, 29, 30, 31, 32, 33, 34, 35, 36, 264, 270, 271, 272] ∨ 280 ≤ r.toNat ∧ r.toNat ≤ 343) → traps (.mts a r) 0x0A) ∧
    (s.supervisor = false → r = 9 → traps (.mts a r) 0x0A) ∧
    ((37 ≤ r.toNat ∧ r.toNat ≤ 255 ∨ r.toNat = 258 ∨ r.toNat = 259 ∨ 265 ≤ r.toNat ∧ r.toNat ≤ 269 ∨ 273 ≤ r.toNat ∧ r.toNat ≤ 279 ∨
      344 ≤ r.toNat ∧ r.toNat ≤ 511) → traps (.mfs a r) 0x02 ∧ traps (.mts a r) 0x02) ∧
    (s.supervisor = true → (r = 256 ∨ r = 257) → traps (.mfs a r) 0x02 ∧ traps (.mts a r) 0x02) ∧
    (s.supervisor = true → r.toNat ∈ [514, 515, 516] → traps (.mts a r) 0x0A) ∧
    (s.supervisor = true → 519 ≤ r.toNat → traps (.mfs a r) 0x02 ∧ traps (.mts a r) 0x02))

/-- R251, R252, R272, R273, R521: NOW reads the tile's tick clock, SETDL sets DLA to it plus min(s[sa], 2^47 - 1), NEXTT reads the next entry of
the schedule or ends with EOS, PRIO writes PRIOC, PROFRD reads a latency account and PROFRD.CLR clears it. -/
def Obligations.ClockScheduleAndProfileInstructions : Prop :=
  ∀ (s : State) (d a : BitVec 6) (c : BitVec 1) (p : BitVec 2), s.plain 1 = true →
    let r := s.me
    let x := s.here
    let now := s.tick s.curTile
    let account := (s.getS a).toNat % 64
    Completes (.now d) s (s.setS d (now.setWidth 64)) ∧
    Completes (.setdl a) s (s.setMe { r with dla := now + BitVec.ofNat 48 (min (s.getS a).toNat (2 ^ 47 - 1)) }) ∧
    (s.supervisor = false → r.cur.toNat < r.schcLen.toNat →
      let t := s.setS d (BitVec.ofNat 64 (16 * r.schcBase.toNat + 16 * r.cur.toNat))
      Completes (.nextt d) s (t.setMe { t.me with cur := r.cur + 1, wst := 0 })) ∧
    (s.supervisor = false → r.schcLen.toNat ≤ r.cur.toNat → Completes (.nextt d) s (s.setMe { r with wst := 5 })) ∧
    Completes (.prio c p) s (s.setMe { r with prio := p, comm := c == 1 }) ∧
    Completes (.profrd d a) s (s.setS d (SMap.get 0 x.latacc account)) ∧
    (let t := s.setS d (SMap.get 0 x.latacc account)
     Completes (.profrdClr d a) s (t.setHere { t.here with latacc := SMap.del t.here.latacc account }))

/-- R38, R41, R152, R153, R62: TRAP, SVC and an ILL word take their cause; RTT, with TH set, clears it and goes to TPC. -/
def Obligations.TrapsAndReturn : Prop :=
  ∀ (s : State) (c : BitVec 7) (n : BitVec 8) (x : BitVec 22), s.me.stepping = false → s.me.touched = [] →
    let pc := s.me.pc.toNat
    let took : BitVec 8 → BitVec 8 → Word → Nat → Host.Outcome State Fault Refusal := fun c sub tv ret =>
      .next ((s.takeTrap c sub tv ret false).afterRetire)
    (0x40 ≤ c.toNat → exec (.trap c) s = took (c.setWidth 8) 0 0 (pc + 4)) ∧
    (0x80 ≤ n.toNat → exec (.svc n) s = took n 0 (s.getS 16) (pc + 4)) ∧
    exec (.ill x) s = took 0x01 1 (((s.cluster (clusterOf s.curTile)).word s.own).setWidth 64) pc ∧
    (s.me.th = false → exec .rtt s = took 0x02 0 0 pc) ∧
    (s.me.th = true → let a := s.me.tpc.toNat / 4 * 4
      exec .rtt s = .next (((s.setMe { s.me with th := false }).branchRecord s.curTile s.curStrand 3 s.own a).arriveAt a))

/-- R38: a trap under HANDLE, with TVEC enabled and TH clear, writes TCAUSE, TPC and TVAL, sets TH, and goes to the handler; no other
register of the strand changes, and the unit's wait and prefixes are over. The strand stays in RUN. Its earlier local stores are performed first (R32,
release), and no other byte of local memory changes.
R38, R39, R420: a trap under ESCALATE, or under HANDLE with no enabled handler or with TH set, parks the strand with the cause saved and
TCAUSE.POL = 2; its pc and its other registers keep their values. Under ABORT the strand waits with TCAUSE.POL = 1. -/
def Obligations.TrapEntryFollowsThePolicy : Prop :=
  (∀ (s : State) (c sub : BitVec 8) (tv : Word) (ret : Nat), policyOf s.me.tpol c = 0 → s.me.tvec.getLsbD 0 = true → s.me.th = false →
    (c.toNat < 0x38 ∨ 0x3A < c.toNat ∨ s.here.dbg.en = false ∨ isMgmt s.curTile = true) →
    let t := s.takeTrap c sub tv ret false
    t.me = { s.me with tcause := BitVec.ofNat 18 (sub.toNat * 256 + c.toNat), tpc := BitVec.ofNat 16 (ret / 4 * 4), tval := tv,
                       th := true, pc := BitVec.ofNat 16 (s.me.tvec.toNat / 4 * 4), st := .run, wait := none, stall := none, pfx := [],
                       touched := [], gread := none, walk := none, vseq := none, early := {}, badEntry := none } ∧
    (∀ u x, (t.tile u).byte x = (s.release.tile u).byte x) ∧ (∀ n, n ≠ s.curStrand → t.here.strand n = s.here.strand n)) ∧
  (∀ (s : State) (c sub : BitVec 8) (tv : Word) (ret : Nat),
    (c.toNat < 0x38 ∨ 0x3A < c.toNat ∨ s.here.dbg.en = false ∨ isMgmt s.curTile = true) →
    let t := s.takeTrap c sub tv ret false
    let pol := policyOf s.me.tpol c
    let saved : Nat → Strand := fun p =>
      { s.me with tcause := BitVec.ofNat 18 (p * 65536 + sub.toNat * 256 + c.toNat), tpc := BitVec.ofNat 16 (ret / 4 * 4), tval := tv,
                  stall := none, pfx := [], touched := [], gread := none, walk := none, vseq := none, early := {},
                  badEntry := none }
    ((pol = 2 ∨ (pol = 0 ∧ (s.me.tvec.getLsbD 0 = false ∨ s.me.th = true))) → t.me = { saved 2 with st := .park, wait := none }) ∧
    (pol = 1 → ∃ w, t.me = { saved 1 with st := .wait, wait := some w } ∧ w.kind = .aborted))

/-- R154: NOP, OP 0x35 with a zero body, has no effect; BRK, OP 0x36 with a zero body, raises BREAKPOINT with SUB 1 and TVAL = own, and returns to own
(to its unit, which accepts no prefix). -/
def Obligations.NopAndBreakpoint : Prop :=
  (∀ (x : BitVec 22) (p : BitVec 32),
    decodeWords (BitVec.ofNat 32 (0x35 * 2 ^ 22 + x.toNat)) p = (if x = 0 then .ok .nop else .error .reserved) ∧
    decodeWords (BitVec.ofNat 32 (0x36 * 2 ^ 22 + x.toNat)) p = (if x = 0 then .ok .brk else .error .reserved)) ∧
  (∀ s : State, s.plain 1 = true → Completes .nop s s) ∧
  (∀ s : State, s.me.pfx = [] → exec .brk s = .next ((s.takeTrap 0x38 1 (BitVec.ofNat 64 s.own) s.own false).afterRetire))

/-- R155, R156: TMARK adds a marker to the branch trace; RETIRE, with no MMA, no held fault and no pending token, leaves the
strand RETIRED with FLG[9:0] and s16[15:0] kept for the done word (R316).
R55 to R58: a prefix word only joins its unit, and the immediate of the instruction behind a PEXT is X × 2^w + imm. -/
def Obligations.MarkersPrefixesAndRetire : Prop :=
  (∀ (s : State) (v : BitVec 22), s.plain 1 = true →
    Completes (.tmark v) s (s.branchRecord s.curTile s.curStrand 4 (v.toNat / 64) (v.toNat % 64 * 1024)) ∧
    (s.here.mmaOf s.curStrand = none → s.me.held = none → (∀ k, (s.me.tok k).st ≠ .pending) →
      exec .retire s = .next ((s.setMe { s.me with st := .retired, retiredNow := true, doneFlg := s.me.flg.setWidth 10,
                                                   doneVal := (s.getS 16).setWidth 16, pfx := [],
                                                   wait := none, stall := none }).formArrival s.curTile))) ∧
  (∀ (s : State) (sa : BitVec 1) (rm : BitVec 3) (x : BitVec 22) (i : BitVec 10),
    let with_ : Pfx → State := fun p => s.setMe { s.me with pfx := s.me.pfx ++ [p] }
    exec (.prnd sa rm) s = .next (with_ (.prnd (sa == 1) rm)) ∧ exec (.pext x) s = .next (with_ (.pext x)) ∧
    exec .pone s = .next (with_ .pone) ∧
    (s.me.pfx = [] → (with_ (.prnd (sa == 1) rm)).mode = rm.toNat ∧ (with_ .pone).pone = true ∧ s.imm i = i.toInt ∧
      (with_ (.pext x)).imm i = ((x ++ i : BitVec 32)).toInt))

/-- R158 to R162, R168: a vector instruction of the arithmetic group completes; element i of vd is the operation's result where the predicate
makes i active and unchanged elsewhere, and FLG takes the flags of the active elements, where no active element of a floating type diverges
from its shadow (R425, R426); where one does, SHADOW_DIVERGENCE is raised, SUB the first such element and TVAL all of them (R427). No lane of
the tile is at fault.
R91, R96, R97, R100, R169, R171: on finite f32, f16 and bf16 elements a sum, a difference, a product and a fused multiply-add are EncodeFloat of
the exact result, whose zero has the sign that R100 gives; EncodeFloat rounds a magnitude m × 2^k once, at the quantum of R96, with the flags NX, UF and OF,
and delivers OverflowResult beyond the largest finite value; compares go by value, and a NaN is unordered; a conversion is EncodeFloat of the value.
A value stands here as a whole number of units of 2^low, the smallest subnormal of the format. -/
def Obligations.VectorOperationsByElement : Prop :=
  (∀ (s : State) (d a b : BitVec 5) (p : BitVec 3) (y : BitVec 4) (op : BitVec 7) (n : BitVec 6), s.here.errs = [] →
    let va := s.getV a
    let vb := s.getV b
    let rep := ofElems (tyOf y).width (List.replicate (512 / (tyOf y).width) ((s.getS n).toNat % 2 ^ (tyOf y).width))
    ∀ q ∈ ([(.vadd d a b p y, 0, vb, y), (.vsub d a b p y, 1, vb, y), (.vmul d a b p y, 2, vb, y), (.vfma d a b p y, 3, vb, y),
        (.vfms d a b p y, 4, vb, y), (.vfnma d a b p y, 5, vb, y), (.vmin d a b p y, 6, vb, y), (.vmax d a b p y, 7, vb, y),
        (.vabs d a p y, 8, 0, y), (.vneg d a p y, 9, 0, y), (.vdiv d a b p y, 10, vb, y), (.vsqrt d a p y, 11, 0, y),
        (.vand d a b p, 12, vb, 0), (.vor d a b p, 13, vb, 0), (.vxor d a b p, 14, vb, 0), (.vandn d a b p, 15, vb, 0),
        (.vshl d a b p y, 16, vb, y), (.vshr d a b p y, 17, vb, y), (.vsra d a b p y, 18, vb, y),
        (.vops d a p y op n, op.toNat, rep, y)] : List (Instr × Nat × Line × BitVec 4)),
      let t := tyOf q.2.2.2
      let w := t.width
      let el : Line → Nat → Nat := fun v i => lineElem v.toNat w i
      let r : Nat → Nat × Flags := fun i => elemOp q.2.1 t s.mode s.sat (el va i) (el q.2.2.1 i) (el (s.getV d) i)
      let fails : Nat → Bool := fun i => t.isFloat && decide (q.2.1 ≤ 11) && active (s.getP p) w i &&
        elemDiverges q.2.1 t s.mode s.sat (el va i) (el q.2.2.1 i) (el (s.getV d) i) (r i).2 (r i).1
      let failing := (List.range (512 / w)).filter fails
      (∀ k, failing.head? = some k → exec q.1 s = .next (((s.countTrap 0x32 (k * w / 32)).trapUnit 0x32 (BitVec.ofNat 8 k)
        (BitVec.ofNat 64 (failing.foldl (fun m j => m + 2 ^ j) 0)) false).afterRetire)) ∧
      (s.plain (wordsOf q.1) = true → failing = [] →
        Completes q.1 s ((s.setV d (ofElems w ((List.range (512 / w)).map
          (fun i => if active (s.getP p) w i then (r i).1 else el (s.getV d) i)))).orFlags
            (((List.range (512 / w)).filter (active (s.getP p) w)).foldl (fun f i => f ||| (r i).2) 0)))) ∧
  (∀ (eb mb bias eb2 mb2 bias2 mode : Nat) (sat : Bool), (eb, mb, bias) ∈ [(8, 23, 127), (5, 10, 15), (8, 7, 127)] → mode ≤ 4 →
    (eb2, mb2, bias2) ∈ [(8, 23, 127), (5, 10, 15), (8, 7, 127)] →
    let w := 1 + eb + mb
    let t : Ty := .flt w eb mb bias 0
    let low : Int := 1 - bias - mb
    let expo : Nat → Nat := fun v => v / 2 ^ mb % 2 ^ eb
    let frac : Nat → Nat := fun v => v % 2 ^ mb
    let neg : Nat → Bool := fun v => v.testBit (w - 1)
    let signed : Bool → Nat → Int := fun n m => if n then -(m : Int) else m
    let units : Nat → Int := fun v => signed (neg v) (if expo v = 0 then frac v else (2 ^ mb + frac v) * 2 ^ (expo v - 1))
    let finite : Nat → Prop := fun v => v < 2 ^ w ∧ expo v ≠ 2 ^ eb - 1
    let isNaN : Nat → Bool := fun v => decide (expo v = 2 ^ eb - 1 ∧ frac v ≠ 0)
    let signals : Nat → Bool := fun v => isNaN v && decide (frac v < 2 ^ (mb - 1))
    let rounded : Nat × Flags → Int → Int → Bool → Prop := fun r e at_ zero => ∃ (n : Bool) (m : Nat) (k : Int),
      r = encodeFloat eb mb bias 0 (.fin n m k false) mode sat ∧ at_ ≤ k ∧ signed n m * 2 ^ (k - at_).toNat = e ∧ (m = 0 → n = zero)
    let sumZero : Int → Int → Bool → Bool → Bool := fun a b na nb => if a = 0 ∧ b = 0 ∧ na = nb then na else mode == 3
    (∀ x y z, finite x → finite y → finite z →
      let product := units x * units y
      let fine := units z * 2 ^ (-low).toNat
      let np := neg x != neg y
      rounded (elemOp 0 t mode sat x y z) (units x + units y) low (sumZero (units x) (units y) (neg x) (neg y)) ∧
      rounded (elemOp 1 t mode sat x y z) (units x - units y) low (sumZero (units x) (units y) (neg x) (!neg y)) ∧
      rounded (elemOp 2 t mode sat x y z) product (2 * low) np ∧
      rounded (elemOp 3 t mode sat x y z) (product + fine) (2 * low) (sumZero product fine np (neg z)) ∧
      rounded (elemOp 4 t mode sat x y z) (product - fine) (2 * low) (sumZero product fine np (!neg z)) ∧
      rounded (elemOp 5 t mode sat x y z) (-product + fine) (2 * low) (sumZero product fine (!np) (neg z))) ∧
    (∀ (n : Bool) (m : Nat) (k : Int),
      let r := encodeFloat eb mb bias 0 (.fin n m k false) mode sat
      let q : Int := max ((Nat.log2 m : Int) + k) (1 - bias) - mb
      let d := 2 ^ (q - k).toNat
      let whole := if q ≤ k then m * 2 ^ (k - q).toNat else m / d
      let rest := if q ≤ k then 0 else m % d
      let up : Bool := decide (rest ≠ 0 ∧ (mode = 0 ∧ (d < 2 * rest ∨ 2 * rest = d ∧ whole % 2 = 1) ∨ mode = 2 ∧ n = false ∨ mode = 3 ∧ n = true ∨
        mode = 4 ∧ d ≤ 2 * rest))
      let given := (if up then whole + 1 else whole) * 2 ^ (q - low).toNat
      let most := (2 ^ (mb + 1) - 1) * 2 ^ (2 ^ eb - 3)
      let sign := if n then 2 ^ (w - 1) else 0
      (m = 0 → r = (sign, 0)) ∧
      (m ≠ 0 → given ≤ most → finite r.1 ∧ units r.1 = signed n given ∧ neg r.1 = n ∧
        r.2 = (if rest = 0 then 0 else if given < 2 ^ mb then 0x003 else 0x001)) ∧
      (m ≠ 0 → most < given → r = (sign + (2 ^ eb - 1) * 2 ^ mb -
        (if sat = false ∧ (mode = 0 ∨ mode = 4 ∨ mode = 2 ∧ n = false ∨ mode = 3 ∧ n = true) then 0 else 1), 0x005))) ∧
    (∀ c x y, c < 8 → x < 2 ^ w → y < 2 ^ w →
      (finite x → finite y → cmpElem c t x y = ([decide (units x = units y), decide (units x ≠ units y), decide (units x < units y),
        decide (units x ≤ units y), decide (units y < units x), decide (units y ≤ units x), false, true].getD c false, 0)) ∧
      (isNaN x || isNaN y → cmpElem c t x y =
        (c == 1 || c == 6, if signals x || signals y || decide (2 ≤ c ∧ c ≤ 5) then 0x010 else 0))) ∧
    ∀ x, finite x → ∃ (n : Bool) (m : Nat) (k : Int),
      cvtElem (.flt (1 + eb2 + mb2) eb2 mb2 bias2 0) t mode sat x = encodeFloat eb2 mb2 bias2 0 (.fin n m k false) mode sat ∧
      low ≤ k ∧ signed n m * 2 ^ (k - low).toNat = units x ∧ (m = 0 → n = neg x))

/-- R162 to R167 on integer elements: the exact result is wrapped, or saturated under PRND.SAT, to the element's type; bitwise operations and
shifts, which count the whole element of vb, act on the encodings. No flag is raised. -/
def Obligations.IntegerElementOperations : Prop :=
  ∀ (w : Nat) (sg sat : Bool) (mode x y z : Nat), w ∈ [8, 16, 32, 64] → x < 2 ^ w → y < 2 ^ w → z < 2 ^ w →
    let t : Ty := .int sg w
    let v : Nat → Int := intVal sg w
    let lo : Int := if sg then -2 ^ (w - 1) else 0
    let hi : Int := if sg then 2 ^ (w - 1) - 1 else 2 ^ w - 1
    let fit : Int → Nat × Flags := fun e => (((if sat then max lo (min hi e) else e) % 2 ^ w).toNat, 0)
    elemOp 0 t mode sat x y z = fit (v x + v y) ∧ elemOp 1 t mode sat x y z = fit (v x - v y) ∧
    elemOp 2 t mode sat x y z = fit (v x * v y) ∧ elemOp 3 t mode sat x y z = fit (v x * v y + v z) ∧
    elemOp 4 t mode sat x y z = fit (v x * v y - v z) ∧ elemOp 5 t mode sat x y z = fit (-(v x * v y) + v z) ∧
    elemOp 6 t mode sat x y z = (if v x ≤ v y then x else y, 0) ∧ elemOp 7 t mode sat x y z = (if v x ≤ v y then y else x, 0) ∧
    elemOp 8 t mode sat x y z = fit |v x| ∧ elemOp 9 t mode sat x y z = fit (-v x) ∧
    elemOp 12 t mode sat x y z = (x &&& y, 0) ∧ elemOp 13 t mode sat x y z = (x ||| y, 0) ∧ elemOp 14 t mode sat x y z = (x ^^^ y, 0) ∧
    elemOp 15 t mode sat x y z = (x &&& (2 ^ w - 1 - y), 0) ∧
    (elemOp 16 t mode sat x y z).1 = (if y < w then x * 2 ^ y % 2 ^ w else 0) ∧
    (elemOp 17 t mode sat x y z).1 = (if y < w then x / 2 ^ y else 0) ∧
    (elemOp 18 t mode sat x y z).1 = ((intVal true w x / 2 ^ (min y (w - 1))) % 2 ^ w).toNat

/-- R169 to R174: compare, select, convert, broadcast, extract, insert and permute.
R175, R101: a reduction leaves in element 0 of vd the combination of the active elements, the inactive ones entering as the operation's
identity, and 0 in every other element; an integer sum wraps or saturates once, a floating reduction takes the tree of R101. A floating sum
that diverges from its shadow raises SHADOW_DIVERGENCE with SUB 0 and TVAL 1 (R425 to R427). -/
def Obligations.VectorMovesAndReductions : Prop :=
  (∀ (s : State) (d a b : BitVec 5) (p q c : BitVec 3) (y src : BitVec 4) (n : BitVec 6) (z : BitVec 2) (i : BitVec 6), s.plain 1 = true →
    let pr := s.getP p
    let w := (tyOf y).width
    let k := 8 * 2 ^ z.toNat
    let el : Nat → Line → Nat → Nat := fun w v j => lineElem v.toNat w j
    let lanes : Nat → (Nat → Nat) → Line := fun w f => ofElems w ((List.range (512 / w)).map f)
    (let r : Nat → Bool × Flags := fun j => cmpElem c.toNat (tyOf y) (el w (s.getV a) j) (el w (s.getV b) j)
     8 ≤ w → ∃ m : Word, Completes (.vcmp q a b c y) s ((s.setP q m).orFlags ((List.range (512 / w)).foldl (fun f j => f ||| (r j).2) 0)) ∧
       ∀ j < 64, m.getLsbD j = (r (j / (w / 8))).1) ∧
    (∃ v : Line, Completes (.vsel d a b p) s (s.setV d v) ∧
      ∀ j < 64, el 8 v j = if pr.getLsbD j then el 8 (s.getV a) j else el 8 (s.getV b) j) ∧
    (let dt := tyOf y
     let st := tyOf src
     let m := min dt.count st.count
     let r : Nat → Nat × Flags := fun j => cvtElem dt st s.mode s.sat (el st.width (s.getV a) j)
     Completes (.vcvt d a src p y) s ((s.setV d (ofElems dt.width ((List.range dt.count).map (fun j =>
       if active pr dt.width j then (if j < m then (r j).1 else 0) else el dt.width (s.getV d) j)))).orFlags
         ((((List.range dt.count).filter (fun j => active pr dt.width j && decide (j < m))).foldl (fun f j => f ||| (r j).2) 0)))) ∧
    Completes (.vbcast d n p z) s (s.setV d (lanes k (fun j =>
      if active pr k j then (s.getS n).toNat % 2 ^ k else el k (s.getV d) j))) ∧
    Completes (.vext d n z i) s (s.setS n (BitVec.ofNat 64 (el k (s.getV d) i.toNat))) ∧
    (i.toNat < 512 / k → Completes (.vins d n z i) s (s.setV d (lanes k (fun j =>
      if j = i.toNat then (s.getS n).toNat % 2 ^ k else el k (s.getV d) j)))) ∧
    Completes (.vperm d a b p y) s (s.setV d (lanes w (fun j =>
      if active pr w j then (let m := el w (s.getV b) j; if m < 512 / w then el w (s.getV a) m else 0) else el w (s.getV d) j)))) ∧
  (∀ (s : State) (d a : BitVec 5) (p : BitVec 3) (y : BitVec 4), s.plain 1 = true → s.here.errs = [] →
    let t := tyOf y
    let w := t.width
    let xs : Nat → List Nat := fun op => (List.range (512 / w)).map
      (fun j => if active (s.getP p) w j then lineElem (s.getV a).toNat w j else redIdentity op t)
    let tree : Nat → Nat → Bool → Nat × Flags := fun op mode sat => treeReduce (fun u v => elemOp op t mode sat u v 0) 6 (xs op)
    let done : Instr → Nat × Flags → Prop := fun i r => Completes i s ((s.setV d (BitVec.ofNat 512 r.1)).orFlags r.2)
    (t.isFloat = true →
      (let sum := tree 0 s.mode s.sat
       let off := sumDiverges t s.mode s.sat (xs 0) sum.2 sum.1
       (off = false → done (.vredsum d a p y) sum) ∧
       (off = true → exec (.vredsum d a p y) s = .next (((s.countTrap 0x32 0).trapUnit 0x32 0 1 false).afterRetire))) ∧
      done (.vredmax d a p y) (tree 7 s.mode s.sat) ∧
      done (.vredmin d a p y) (tree 6 s.mode s.sat)) ∧
    (∀ sg, t = .int sg w →
      let sum := ((xs 0).map (intVal sg w)).foldl (· + ·) 0
      done (.vredsum d a p y) (narrow sum sg w s.sat, 0) ∧ done (.vredmax d a p y) (tree 7 0 false) ∧
      done (.vredmin d a p y) (tree 6 0 false)))

/-- R181, R182, R183: the predicate instructions, OP 0x25 to 0x27 with their fn, p0 reading as all ones and discarding a write (getP, setP); other
values of fn are unassigned, and fields not named must be zero. -/
def Obligations.PredicateInstructions : Prop :=
  (∀ (d a b : BitVec 3) (x : BitVec 6) (z : BitVec 32),
    let word : Nat → Nat → BitVec 3 → BitVec 6 → BitVec 3 → BitVec 3 → BitVec 32 := fun op fn pd sa pa pb =>
      BitVec.ofNat 32 (2 ^ 30 + op * 2 ^ 22 + pd.toNat * 2 ^ 19 + pa.toNat * 2 ^ 16 + pb.toNat * 2 ^ 13 + sa.toNat * 2 ^ 7 + fn * 2 ^ 3)
    decodeWords (word 0x25 0 d 0 a b) z = .ok (.plogAnd d a b) ∧ decodeWords (word 0x25 1 d 0 a b) z = .ok (.plogOr d a b) ∧
    decodeWords (word 0x25 2 d 0 a b) z = .ok (.plogXor d a b) ∧ decodeWords (word 0x25 3 d 0 a b) z = .ok (.plogAndn d a b) ∧
    decodeWords (word 0x25 4 d 0 a 0) z = .ok (.plogNot d a) ∧ decodeWords (word 0x26 0 d 0 a 0) z = .ok (.pmov d a) ∧
    decodeWords (word 0x26 1 d x 0 0) z = .ok (.pmovFrom d x) ∧ decodeWords (word 0x26 2 0 x a 0) z = .ok (.pmovTo a x) ∧
    decodeWords (word 0x27 0 0 x a 0) z = .ok (.pcnt a x) ∧
    (∀ fn < 16, (5 ≤ fn → decodeWords (word 0x25 fn d x a b) z = .error .unassigned) ∧
      (3 ≤ fn → decodeWords (word 0x26 fn d x a b) z = .error .unassigned) ∧
      (fn < 5 → x ≠ 0 → decodeWords (word 0x25 fn d x a b) z = .error .reserved) ∧
      ((fn ≠ 0 ∨ d ≠ 0 ∨ b ≠ 0) → decodeWords (word 0x27 fn d x a b) z = .error .reserved)) ∧
    (b ≠ 0 → decodeWords (word 0x25 4 d x a b) z = .error .reserved) ∧
    ((x ≠ 0 ∨ b ≠ 0) → decodeWords (word 0x26 0 d x a b) z = .error .reserved) ∧
    ((a ≠ 0 ∨ b ≠ 0) → decodeWords (word 0x26 1 d x a b) z = .error .reserved) ∧
    ((d ≠ 0 ∨ b ≠ 0) → decodeWords (word 0x26 2 d x a b) z = .error .reserved) ∧
    (∀ i ∈ [Instr.plogAnd d a b, .plogOr d a b, .plogXor d a b, .plogAndn d a b, .plogNot d a, .pmov d a, .pmovFrom d x, .pmovTo a x, .pcnt a x],
      i.acceptsPext = false ∧ i.acceptsPrnd = false ∧ i.acceptsPone = false)) ∧
  ∀ (s : State) (d a b : BitVec 3) (x : BitVec 6), s.plain 1 = true →
    let u := s.getP a
    let v := s.getP b
    Completes (.plogAnd d a b) s (s.setP d (u &&& v)) ∧ Completes (.plogOr d a b) s (s.setP d (u ||| v)) ∧
    Completes (.plogXor d a b) s (s.setP d (u ^^^ v)) ∧ Completes (.plogAndn d a b) s (s.setP d (u &&& ~~~v)) ∧
    Completes (.plogNot d a) s (s.setP d (~~~u)) ∧ Completes (.pmov d a) s (s.setP d u) ∧
    Completes (.pmovFrom d x) s (s.setP d (s.getS x)) ∧ Completes (.pmovTo a x) s (s.setS x u) ∧
    Completes (.pcnt a x) s (s.setS x (BitVec.ofNat 64 ((List.range 64).filter (fun i => u.getLsbD i)).length))

/-- R13: a scalar or predicate register reads what was written to it last and no other register changes; s0 reads 0 and p0 all ones, and
both discard writes. -/
def Obligations.RegisterFilesReadBack : Prop :=
  ∀ (s : State) (d e : BitVec 6) (p q : BitVec 3) (v w : BitVec 5) (x : Word) (l : Line),
    (s.setS d x).getS e = (if e = 0 then 0 else if e = d then x else s.getS e) ∧
    (s.setP p x).getP q = (if q = 0 then BitVec.allOnes 64 else if q = p then x else s.getP q) ∧
    (s.setV v l).getV w = (if w = v then l else s.getV w) ∧
    s.setS 0 x = s ∧ s.setP 0 x = s ∧
    (s.setS d x).getP q = s.getP q ∧ (s.setS d x).getV w = s.getV w ∧ (s.setP p x).getS e = s.getS e ∧
    (s.setP p x).getV w = s.getV w ∧ (s.setV v l).getS e = s.getS e ∧ (s.setV v l).getP q = s.getP q

/-- R176, R177, R264: VLD reads the bytes whose predicate bit is 1 of the line at s[sb] + imm × 64; VST writes those bytes and no others; VLDD
reads the line and its descriptor; VSTD writes the line and the descriptor of p[p]. A store that the turn leaves unperformed is in its aligned
parts of 16 bytes, a descriptor going with the first (R346).
R178, R179: VLDB and VSTB move fields of f bits, one for each active lane, packed from a bit address; VGATH and VSCAT move elements at the
addresses that a vector of indices gives. A store that the turn leaves unperformed writes the bits of its fields, a touched line at a time, or
its elements (R346). No lock is held. -/
def Obligations.VectorMemoryAccesses : Prop :=
  (∀ (s : State) (x : BitVec 5) (b : BitVec 6) (p : BitVec 3) (i : BitVec 8), s.plain 1 = true → s.pone = false → s.here.errs = [] →
    let adr := (s.address b i 64).toNat
    let line := adr / 64
    let mgmt := isMgmt s.curTile
    let pr := s.getP p
    let stored : Nat → Byte := fun k => BitVec.ofNat 8 (lineElem (s.getV x).toNat 8 (k - adr))
    adr < 2 ^ 18 → adr % 64 = 0 →
      (s.here.locks = [] → ∃ v : Line, Completes (.vld x b p i) s (s.setV x v) ∧
        ∀ j < 64, lineElem v.toNat 8 j = if pr.getLsbD j then (s.view.byte (adr + j)).toNat else lineElem (s.getV x).toNat 8 j) ∧
      (s.here.locks = [] → s.here.retentionOk mgmt [line] = true →
        (s.direct = true → ∃ y : Tile, Completes (.vst x b p i) s (s.setHere y) ∧ y.strands = s.here.strands ∧
          ∀ k, y.byte k = if adr ≤ k ∧ k < adr + 64 ∧ pr.getLsbD (k - adr) = true then stored k else s.here.byte k) ∧
        (s.direct = false → Completes (.vst x b p i) s (s.storeParts (partsOf s.curStrand s.cycle 16
          (((List.range 64).filter (fun j => pr.getLsbD j)).map (fun j => { addr := adr + j, mask := 0xFF, val := stored (adr + j) })))))) ∧
      (s.here.locked adr 64 .load = false →
        Completes (.vldd x b p i) s ((s.setV x (BitVec.ofNat 512 (s.view.lm adr 64))).setP p
          (BitVec.ofNat 64 ((s.view.bandAt line).toNat / 2 ^ 16)))) ∧
      (let dsc := pr.toNat % 2 ^ 16
       let v := if dsc / 256 = 0x12 ∨ dsc / 256 = 0x13 then (s.getV x).toNat % 2 ^ 480 else (s.getV x).toNat
       fmtAssigned (dsc / 256) = true → s.here.locked adr 64 .store = false → s.here.retentionOk mgmt [line] = true →
        (s.direct = true →
          let y := s.here.storeBytes mgmt adr (toBytes 64 v)
          Completes (.vstd x b p i) s (s.setHere (y.setBand line ((y.bandAt line &&& 0xFFFF) ||| BitVec.ofNat 32 (dsc * 2 ^ 16))))) ∧
        (s.direct = false → Completes (.vstd x b p i) s (s.storeParts ((List.range 4).map (fun j =>
          { strand := s.curStrand, since := s.cycle, line := line, cells := byteCells (adr + 16 * j) (toBytes 16 (v / 2 ^ (128 * j))),
            desc := if j = 0 then some (BitVec.ofNat 16 dsc) else none })))))) ∧
  (∀ (s : State) (x v : BitVec 5) (b : BitVec 6) (p : BitVec 3) (z : BitVec 2) (e : BitVec 1) (f : BitVec 5), s.plain 1 = true →
    s.here.errs = [] → s.here.locks = [] →
    let w := 8 * 2 ^ z.toNat
    let fw := f.toNat + 1
    let base := s.getS b
    let pr := s.getP p
    let n := 512 / w
    let on := (List.range n).filter (fun j => active pr w j)
    let old : Nat → Nat := fun j => lineElem (s.getV x).toNat w j
    let at_ : Nat → Word := fun j => base + BitVec.ofNat 64 (lineElem (s.getV v).toNat w j * (w / 8))
    let room := s.here.retu + 64 * (64 + s.here.sbuf.length) ≤ 65536
    (fw ≤ w → base.toNat + n * fw ≤ 2 ^ 21 →
      let field : Nat → Nat := fun j => s.view.bits (base.toNat + j * fw) fw
      Completes (.vldb x b p z e f) s (s.setV x (ofElems w ((List.range n).map (fun j =>
        if active pr w j then (if e = 1 then ((intVal true fw (field j)) % 2 ^ w).toNat else field j) else old j)))) ∧
      (room → s.direct = true → ∃ y : Tile, Completes (.vstb x b p z f) s (s.setHere y) ∧ y.strands = s.here.strands ∧
        (∀ j < n, active pr w j = true → y.bits (base.toNat + j * fw) fw = old j % 2 ^ fw) ∧
        (∀ k, (∀ j < n, active pr w j = true → 8 * k + 8 ≤ base.toNat + j * fw ∨ base.toNat + (j + 1) * fw ≤ 8 * k) →
          y.byte k = s.here.byte k)) ∧
      (room → s.direct = false → Completes (.vstb x b p z f) s (s.storeParts (partsOf s.curStrand s.cycle 64
        (on.flatMap (fun j => fieldCells (base.toNat + j * fw) fw (old j))))))) ∧
    ((∀ j < n, active pr w j = true → (at_ j).toNat < 2 ^ 18 ∧ (at_ j).toNat % (w / 8) = 0) →
      Completes (.vgath x b p z v) s (s.setV x (ofElems w ((List.range n).map (fun j =>
        if active pr w j then s.view.lm (at_ j).toNat (w / 8) else old j)))) ∧
      (room → s.direct = true → ∃ y : Tile, Completes (.vscat x b p z v) s (s.setHere y) ∧ y.strands = s.here.strands ∧
        (∀ k, (∀ j < n, active pr w j = true → k < (at_ j).toNat ∨ (at_ j).toNat + w / 8 ≤ k) → y.byte k = s.here.byte k) ∧
        (∀ j < n, active pr w j = true → (∀ i < n, j < i → active pr w i = true → at_ i ≠ at_ j) →
          y.lm (at_ j).toNat (w / 8) = old j)) ∧
      (room → s.direct = false → Completes (.vscat x b p z v) s (s.storeParts (partsOf s.curStrand s.cycle (w / 8)
        (on.flatMap (fun j => byteCells (at_ j).toNat (toBytes (w / 8) (old j)))))))))

/-- R202 to R204: ZACC clears an accumulator and sets its anchor, ACCANCH rescales it to a new anchor, ACCADD adds one of the same anchor, each with
the pre-image of its target taken first (writeAcc). The strand's matrix unit is free and no error stands in the tile. -/
def Obligations.AccumulatorUpdates : Prop :=
  ∀ (s : State) (c a : BitVec 3) (x : BitVec 6), s.plain 1 = true → s.here.mmaq = [] → s.me.held = none → s.here.errs = [] →
    s.here.retu + 64 * s.here.sbuf.length + 2560 ≤ 65536 →
    let old := s.here.accAt c
    let add := s.here.accAt a
    let new : BitVec 16 := (s.getS x).setWidth 16
    Completes (.zacc c x) s (s.writeAcc c { elems := [], anc := new }) ∧
    (∃ (r : Acc) (fl : Flags), Completes (.accanch c x) s ((s.writeAcc c r).orFlags fl) ∧ r.anc = new ∧
      ∀ e < 256, r.elem e = (rescale (old.anc.toInt - new.toInt) (old.elem e)).1) ∧
    (old.anc = add.anc → ∃ r : Acc, Completes (.accadd c a) s (s.writeAcc c r) ∧ r.anc = old.anc ∧
      ∀ e < 256, r.elem e = accCombine (old.elem e) (add.elem e)) ∧
    (old.anc ≠ add.anc → exec (.accadd c a) s = .next ((s.takeTrap 0x0D 7 (BitVec.ofNat 64 (old.anc.toNat * 2 ^ 16 + add.anc.toNat))
      s.me.pc.toNat false).afterRetire))

/-- R205 to R209: ACCRD writes a row to vd as f32 with its flags; ACCST writes n + 1 described lines; ACCSV writes the 256 raw elements and ACCLD
reads them back. A row whose elements pass the accumulator's range is written with AOV, or with o = 1 raises ACC_OVERFLOW. A store that the
turn leaves unperformed is in its aligned parts of 16 bytes, a descriptor going with the first of its line (R346). -/
def Obligations.AccumulatorReadOut : Prop :=
  ∀ (s : State) (c : BitVec 3) (d : BitVec 5) (b : BitVec 6) (y r n : BitVec 4) (o : BitVec 1), s.plain 1 = true → s.here.mmaq = [] →
    s.me.held = none → s.here.errs = [] → s.here.locks = [] →
    let acc := s.here.accAt c
    let adr := s.getS b
    let a := adr.toNat
    let mgmt := isMgmt s.curTile
    let row : Nat → List Ext := fun k => (List.range 16).map (fun j => accExt acc.anc.toInt (acc.elem (16 * k + j)))
    let f32 := (row r.toNat).map (fun e => encodeTy tF32 e s.mode s.sat)
    (rowOverflows acc r.toNat = false → Completes (.accrd c d r o) s
      ((s.setV d (ofElems 32 (f32.map Prod.fst))).orFlags (f32.foldl (fun f e => f ||| e.2) 0))) ∧
    (rowOverflows acc r.toNat = true →
      Completes (.accrd c d r 0) s ((s.setV d (ofElems 32 (f32.map Prod.fst))).orFlags (f32.foldl (fun f e => f ||| e.2) 0 ||| flAOV)) ∧
      exec (.accrd c d r 1) s = .next ((s.takeTrap 0x34 (r.setWidth 8) (c.setWidth 64) s.me.pc.toNat false).afterRetire)) ∧
    (a % 64 = 0 → a + 64 * (n.toNat + 1) ≤ 2 ^ 18 → r.toNat + n.toNat < 16 →
      (∀ j ≤ n.toNat, rowOverflows acc (r.toNat + j) = false) → s.here.retentionOk mgmt (linesOf a (64 * (n.toNat + 1))) = true →
      let line : Nat → Nat × Nat × Flags := fun j => quantizeLine (accstFmt y) (row (r.toNat + j))
      let fl := (List.range (n.toNat + 1)).foldl (fun f j => f ||| (line j).2.2) 0
      (s.direct = true → ∃ z : Tile, Completes (.accst c b y r n o) s ((s.setHere z).orFlags fl) ∧ z.strands = s.here.strands ∧
        (∀ j ≤ n.toNat, z.lm (a + 64 * j) 64 = (line j).1 % 2 ^ 512 ∧
          (z.bandAt (a / 64 + j)).toNat / 2 ^ 16 = (line j).2.1 % 2 ^ 16 ∧
          (z.bandAt (a / 64 + j)).toNat % 2 ^ 16 = (s.here.bandAt (a / 64 + j)).toNat % 2 ^ 16) ∧
        ∀ k, (k < a ∨ a + 64 * (n.toNat + 1) ≤ k) → z.byte k = s.here.byte k) ∧
      (s.direct = false → Completes (.accst c b y r n o) s ((s.storeParts ((List.range (n.toNat + 1)).flatMap (fun j =>
        (List.range 4).map (fun q =>
          { strand := s.curStrand, since := s.cycle, line := a / 64 + j,
            cells := byteCells (a + 64 * j + 16 * q) (toBytes 16 ((line j).1 / 2 ^ (128 * q))),
            desc := if q = 0 then some (BitVec.ofNat 16 (line j).2.1) else none })))).orFlags fl))) ∧
    (a % 64 = 0 → a + 4096 ≤ 2 ^ 18 → (∀ e < 256, (accQ (acc.elem e)).2 = false) → s.here.retentionOk mgmt (linesOf a 4096) = true →
      let raws := (List.range 256).flatMap (fun e => rawElem acc.anc (acc.elem e))
      (s.direct = true → Completes (.accsv c b o) s (s.setHere (s.here.storeBytes mgmt a raws))) ∧
      (s.direct = false → Completes (.accsv c b o) s (s.storeParts (partsOf s.curStrand s.cycle 16 (byteCells a raws))))) ∧
    (a % 64 = 0 → a + 4096 ≤ 2 ^ 18 → s.here.retu + 64 * s.here.sbuf.length + 2560 ≤ 65536 →
      let raw : Nat → List Byte := fun e => s.view.bytes (a + 16 * e) 16
      let anc : Nat → Nat := fun e => ofBytes (((raw e).drop 12).take 2)
      (∀ e < 256, rawValid (raw e) = true ∧ anc e = anc 0) →
      ∃ q : Acc, Completes (.accld c b) s (s.writeAcc c q) ∧ q.anc = BitVec.ofNat 16 (anc 0) ∧ ∀ e < 256, q.elem e = ofRaw (raw e))

/-- R191 to R193: an MMA whose checks pass takes the pre-image of its accumulator and its token, locks its operands for reading, and enters the matrix
unit's queue; it computes nothing yet. Every local store that a strand of the tile has issued before is performed first (R352). -/
def Obligations.MmaIssues : Prop :=
  ∀ (s : State) (c a b : BitVec 3) (k : BitVec 4), s.plain 1 = true → s.here.mmaq = [] → s.me.held = none →
    s.here.errs = [] → s.here.retu + 64 * s.here.sbuf.length + 2560 ≤ 65536 → (s.getTok k).st ≠ .pending →
    let da := s.getD a
    let db := s.getD b
    let okay : Desc → Prop := fun d =>
      d.toNat &&& dNamed = d.toNat ∧ dBase d % 64 = 0 ∧ dStride d % 64 = 0 ∧ 0 < dKlen d ∧ dKlen d ≤ 64 ∧ dKlen d = dKlen da ∧
        dClass d ≤ 5 ∧ dBase d + dLen d ≤ 0x40000
    let lock : Desc → List Lock := fun d =>
      if dNolock d then [] else [{ lo := dBase d, len := dLen d, kind := .read, use := .mma, strand := s.curStrand, tok := k }]
    okay da → okay db → s.here.locks = [] →
      let x := s.settle.here.touchAcc (isMgmt s.curTile) c
      let m : Mma :=
        { strand := s.curStrand, own := s.me.pc, acc := c, dA := da, dB := db, tok := k, mtm := s.me.mtm, before := x.accAt c }
      Completes (.mma c a b k) s
        ((s.setHere { x with locks := lock da ++ lock db, mmaq := [m] }).setTok k { st := .pending, use := .mma, step := s.here.num })

/-- R193 to R196, R201, R428: the matrix unit runs the next k-block of the MMA at its head: every element gains the exact sum of the products of its
row of A and its row of B, as the block's reads return them (mmaView), the flags gather in FLG and bit j of MTM is set, where no fault of the
main unit acts (an empty ev.nums) and no element's sum diverges from its shadow; where one diverges, the MMA ends in SHADOW_DIVERGENCE with SUB the block.
When no block is left the token is SET with status 0, MTM is 0 and the locks of the MMA are released. -/
def Obligations.MmaBlockAccumulates : Prop :=
  ∀ (s : State) (m : Mma) (rest : List Mma),
    let t := s.ev.tile
    let x := s.tile t
    let blocks := List.range (dKlen m.dA)
    x.errs = [] → x.mmaq = m :: rest →
      (∀ j, blocks.find? (fun i => !m.mtm.getLsbD i) = some j → (x.mmaView m j).checkBlock m j = none →
        let seen := x.mmaView m j
        let acc := x.accAt m.acc
        let rows : Desc → List (List Ext) := fun d => (List.range 16).map (fun i => seen.operandRow d i j)
        let dot : Nat → AccElem × Flags := fun e => dotElem acc.anc.toInt (seen.operandRow m.dA (e / 16) j) (seen.operandRow m.dB (e % 16) j)
        let sums := (List.range 256).map (fun e => (dot e).1)
        let off : List Nat → Bool := fun fault => shadowFails acc.anc.toInt (rows m.dA) (rows m.dB) sums (bend fault sums)
        (off s.ev.nums = true → exec .mmaKblock s = .next (s.mmaFault t m 0x32 (BitVec.ofNat 8 j) false j)) ∧
        (s.ev.nums = [] → off [] = false → ∃ (new : Acc) (r : Strand), exec .mmaKblock s = .next (s.setTile t
            ({ x.setAcc m.acc new with
               mmaq := { m with mtm := m.mtm ||| (1#64 <<< j), early := SMap.del m.early j } :: rest }.setStrand m.strand r)) ∧
          new.anc = acc.anc ∧ (∀ e < 256, new.elem e = accCombine (acc.elem e) (dot e).1) ∧
          r = { x.strand m.strand with mtm := (x.strand m.strand).mtm ||| (1#64 <<< j), flg := r.flg } ∧
          ∀ i, r.flg.getLsbD i = ((x.strand m.strand).flg.getLsbD i || (List.range 256).any (fun e => decide (i < 19) && (dot e).2.getLsbD i)))) ∧
      (blocks.find? (fun i => !m.mtm.getLsbD i) = none →
        let r := x.strand m.strand
        exec .mmaKblock s = .next (s.setTile t
          ((({ x with mmaq := rest } : Tile).unlock m.strand m.tok [.mma]).setStrand m.strand
            { r.setTok m.tok { r.tok m.tok with st := .set, status := 0 } with mtm := 0 })))

/-- R210 to R212: CBLD loads a codebook and its table selectors, LDD loads a descriptor register from 32 bytes, SETD replaces one quarter of it. -/
def Obligations.DescriptorAndCodebookLoads : Prop :=
  ∀ (s : State) (d : BitVec 3) (b : BitVec 6) (i : BitVec 8) (c ta tb : BitVec 2) (n : BitVec 4), s.plain 1 = true → s.here.errs = [] →
    s.here.locks = [] →
    let at_ := s.getS b
    let off := at_ + BitVec.ofNat 64 (64 * i.toNat)
    (s.here.mmaq = [] → s.me.held = none → at_.toNat + 32 ≤ 2 ^ 18 → at_.toNat % 32 = 0 →
      Completes (.cbld c b ta tb) s (s.setHere
        { s.here with cb := s.here.cb.set c.toNat (BitVec.ofNat 256 (s.view.lm at_.toNat 32)) c.isLt, ta := ta, tb := tb })) ∧
    (off.toNat + 32 ≤ 2 ^ 18 → off.toNat % 32 = 0 → Completes (.ldd d b i) s (s.setD d (BitVec.ofNat 256 (s.view.lm off.toNat 32)))) ∧
    (n.toNat < 4 → ∃ v : Desc, Completes (.setd d b n) s (s.setD d v) ∧
      ∀ j < 256, v.getLsbD j = if j / 64 = n.toNat then at_.getLsbD (j % 64) else (s.getD d).getLsbD j)

/-- R233, R241 to R245, R250, R259: each waiting instruction whose condition holds when it is issued completes at once: KWAIT and KWANY with the
status of their token (WST OK, or FAULT for a status that is not 0), WAITC and FENCE with WST OK, REALIGN with every named strand present.
That KWANY ends at once while its mask also holds the token of a running MMA is the model's choice (log entry 56). -/
def Obligations.WaitsCompleteWhenMet : Prop :=
  ∀ (s : State) (d a : BitVec 6) (l : BitVec 3) (k : BitVec 4) (nt nc ns nl : BitVec 8) (sc : BitVec 2), s.me.held = none →
    let pc := s.me.pc.toNat
    let mask := (s.getS a).toNat % 2 ^ 16
    let ends : BitVec 8 → BitVec 8 := fun status => if status = 0 then 0 else 6
    let busy : List TokUse → Nat := fun uses => (s.me.k.toList.filter (fun t => t.st == .pending && uses.contains t.use)).length
    (s.plain 1 = true → (s.getTok k).st ≠ .pending → Completes (.kwait d l k) s
      ((s.setS d ((s.getTok k).status.setWidth 64)).setWst (ends (s.getTok k).status) pc)) ∧
    (s.plain 1 = true → mask = 0 → Completes (.kwany d a l) s ((s.setS d 16).setWst 4 pc)) ∧
    (s.plain 1 = true → ∀ i < 16, mask.testBit i = true → (s.getTok (BitVec.ofNat 4 i)).st ≠ .pending →
      (∀ j < i, mask.testBit j = true → (s.getTok (BitVec.ofNat 4 j)).st = .pending) →
      Completes (.kwany d a l) s ((s.setS d (BitVec.ofNat 64 i)).setWst (ends (s.getTok (BitVec.ofNat 4 i)).status) pc)) ∧
    (s.plain 2 = true → busy [.mma] ≤ nt.toNat → busy [.copy] ≤ nc.toNat → busy [.wbl] ≤ ns.toNat → busy [.fetchl, .fetchNext] ≤ nl.toNat →
      Completes (.waitc l nt nc ns nl) s (s.setWst 0 pc)) ∧
    (s.plain 1 = true → (sc = 0 ∨ s.me.refusal = false) → s.outstanding sc = 0 → Completes (.fence d l sc) s ((s.setS d 0).setWst 0 pc)) ∧
    (s.plain 1 = true → (∀ b < 64, (s.getS a).getLsbD b = true →
        let r := s.strand (16 * clusterOf s.curTile + b / 4) (BitVec.ofNat 2 (b % 4))
        r.st = .idle ∨ r.st = .retired ∨ (16 * clusterOf s.curTile + b / 4 = s.curTile ∧ b % 4 = s.curStrand.toNat)) →
      (∀ u ∈ tilesOf (clusterOf s.curTile), ∀ n, (u, n) ≠ (s.curTile, s.curStrand) →
        (s.strand u n).st ≠ .wait) →
      Completes (.realign d a l) s ((s.setS d 0).setWst 0 pc))

/-- R232 to R234: a wait whose condition fails ends at once as POLL (WST 4) with DL field 0, and with another DL field whose deadline has not expired
puts the strand in WAIT at its unit, with that deadline. Said of KWAIT.
R235, R237, R238: an ending with a code other than 1 to 3 clears WTO; a counted ending at the same address raises its COUNT and parks the strand,
and sends DEADLINE_ESCALATION (code 2, with the PTID, the strand and the address) to its module's supervisor, when the count reaches DLPOL's limit. -/
def Obligations.WaitsPollWaitAndEscalate : Prop :=
  (∀ (s : State) (d : BitVec 6) (l : BitVec 3) (k : BitVec 4), s.me.held = none → (s.getTok k).st = .pending → s.me.wait = none →
    (l = 0 → s.plain 1 = true → Completes (.kwait d l k) s (s.setWst 4 s.me.pc.toNat)) ∧
    (l ≠ 0 → s.expired s.curTile (s.deadlineOf l) = false →
      let w : WaitRec := { kind := .named l (s.deadlineOf l), instr := .kwait d l k, pfx := s.me.pfx, since := s.cycle }
      exec (.kwait d l k) s = .next (s.setMe { s.me with st := .wait, wait := some w, touched := [] })) ∧
    s.deadlineOf 7 = s.me.dla ∧
    (l ≠ 0 → l ≠ 7 → s.deadlineOf l = s.tick s.curTile + ((s.me.dt.getD (l.toNat - 1) 0).setWidth 48))) ∧
  (∀ (s : State) (code : BitVec 8) (pc : Nat), pc < 65536 →
    let t := s.setWst code pc
    let cnt := if s.me.wtoCount ≠ 0 ∧ s.me.wtoAddr.toNat = pc then min (s.me.wtoCount.toNat + 1) 65535 else 1
    t.me.wst = code ∧
    (code ∉ [1, 2, 3] → t.me.wtoAddr = 0 ∧ t.me.wtoCount = 0 ∧ t.me.st = s.me.st) ∧
    (code ∈ [1, 2, 3] → t.me.wtoAddr.toNat = pc ∧ t.me.wtoCount.toNat = cnt ∧
      (t.me.st = if s.me.dlpol ≠ 0 ∧ cnt = s.me.dlpol.toNat then .park else s.me.st) ∧
      let md := s.mod (modOf s.curTile)
      let e : Event := { ctx := s.ctxWord s.curTile, ext := 0, code := 2, strand := s.curStrand.setWidth 8,
                         unit := BitVec.ofNat 32 (ptidOf s.curTile), value := BitVec.ofNat 64 (pc + code.toNat * 65536) }
      (s.me.dlpol = 0 ∨ cnt ≠ s.me.dlpol.toNat → t.mods = s.mods) ∧
      (s.me.dlpol ≠ 0 → cnt = s.me.dlpol.toNat → md.events ≠ [] → md.events.length < 4096 →
        (t.mod (modOf s.curTile)).events = md.events ++ [e]) ∧
      (s.me.dlpol ≠ 0 → cnt = s.me.dlpol.toNat → md.events = [] → ∀ r u, t.me = r → (s.setMe r).deliverEvent (modOf s.curTile) e = some u →
        t.tiles = u.tiles ∧ t.mods = u.mods)))

/-- R295, R297: MRECV of a queue with a record at its head, no PAD before it, gives the record's local address, moves HEAD past it, and ends with MET, or EOS for
an end-of-stream record. The tile's storage has no error. -/
def Obligations.ReceiveTakesTheHeadRecord : Prop :=
  ∀ (s : State) (d : BitVec 6) (l : BitVec 3) (q : BitVec 2), s.plain 1 = true → s.here.errs = [] →
    s.here.ringExists s.supervisor q = true → ∀ eos p z, s.view.headRec q = .record eos p z →
      let c := s.here.qcfgAt q
      Completes (.mrecv d l q) s (((s.setHere (s.here.consume q p z)).setS d (BitVec.ofNat 64 (qBase c + p % qSize c))).setWst
        (if eos then 5 else 0) s.me.pc.toNat) ∧
      qHead ((s.here.consume q p z).qcfgAt q) = (p + z) % 65536 ∧ qTail ((s.here.consume q p z).qcfgAt q) = qTail c

/-- R279, R306, R309, R310: CBAR, with nothing of the strand outstanding, leaves the strand in WAIT with its arrival, and the tile forms its own
when every strand has arrived; ABORTV writes the code and votes abort; IRREV sets IRV and releases the pre-images.
R300 to R305, R308: an ARRIVE that reaches a node is kept there, and with the last of the node's children the combined arrival goes rootward; a
WITHDRAW takes the child's arrival back, or is passed on when the node has forwarded it; a WCONF opens the node, or the tile, again; a DECIDE opens
the next superstep at a node and goes to each of its children; a waiting arrival whose deadline has expired is withdrawn.
That a message which finds nothing to do changes nothing is the model's choice (log entry 1). -/
def Obligations.BarriersAndTheirMessages : Prop :=
  (∀ (s : State) (d a : BitVec 6) (l : BitVec 3) (k : BitVec 1) (o : BitVec 3) (c : BitVec 16), isMgmt s.curTile = false →
    (s.here.mmaq = [] → s.me.held = none → s.me.refusal = false → s.me.wait = none → s.own + 4 ≠ 0x10000 → s.cbarBlocked = false →
      let arr : Arrival :=
        { op := o, value := if o = 0 then 0 else s.getS a, ck := k == 1, flags := flgLow s.me.flg, dest := d,
          next := BitVec.ofNat 16 (s.own + 4), deadline := some (s.deadlineOf l) }
      let w : WaitRec := { kind := .barrier, instr := .cbar d a l k o, pfx := s.me.pfx, since := s.cycle }
      exec (.cbar d a l k o) s =
        .next ((s.setMe { s.me with st := .wait, wait := some w, touched := [], arrival := some arr }).formArrival s.curTile)) ∧
    (s.plain 1 = true →
      let cause : BitVec 8 := if 1 ≤ c.toNat ∧ c.toNat ≤ 0x7F then c.setWidth 8 else 0xF0
      Completes (.abortv c) s ((s.setHere { s.here with code := c }).voteAbort s.curTile cause) ∧
      (s.here.irv = true → Completes .irrev s s) ∧
      (s.here.irv = false → s.here.capture = none → Completes .irrev s (s.setHere { s.here with irv := true, pre := [], accPre := [] })))) ∧
  ((∀ (s : State) (c num : Nat) (src dst p : NodeId) (a : Arrive) (d : Decide) (n : TreeNode), s.oldest s.ev.i = true →
    (s.ctx c).node dst = some n → n.parent = some p →
    let u : State := { s with net := listDel s.net s.ev.i }
    let with_ : State → TreeNode → State := fun v m => v.setCtx c ((s.ctx c).setNode m)
    let kept : TreeNode := { n with arrived := n.arrived.filter (fun e => e.1 != src) ++ [(src, a)] }
    let full := n.kids.all (fun k => kept.arrived.any (fun e => e.1 == k))
    (s.net[s.ev.i]? = some (.arrive c src dst a) → u.overtaken c src dst = false → a.num = n.num →
      (full = false → exec .treeArrive s = .next (with_ u kept)) ∧
      (full = true → n.forwarded = false →
        exec .treeArrive s = .next ((with_ (with_ u kept) { kept with forwarded := true }).send (.arrive c dst p kept.combined)))) ∧
    (s.net[s.ev.i]? = some (.withdraw c src dst num) → u.overtaken c src dst = false → num = n.num →
      n.arrived.any (fun e => e.1 == src) = true →
      (n.forwarded = false → exec .treeWithdraw s =
        .next ((with_ u { n with arrived := n.arrived.filter (fun e => e.1 != src) }).send (.wconf c dst src num))) ∧
      (n.forwarded = true → n.leaving = [] → exec .treeWithdraw s =
        .next ((with_ u { n with leaving := [src] }).send (.withdraw c dst p num)))) ∧
    (s.net[s.ev.i]? = some (.wconf c src dst num) → (∀ t, dst ≠ .tile t) →
      ∃ t, exec .treeWconf s = .next t ∧ t.net = u.net ++ n.leaving.map (fun k => .wconf c dst k num) ∧ t.tiles = s.tiles ∧
        t.ctx c = (s.ctx c).setNode { n with
          arrived := n.arrived.filter (fun e => !n.leaving.contains e.1), forwarded := false, leaving := [] }) ∧
    (s.net[s.ev.i]? = some (.decide c src dst d) → (∀ t, dst ≠ .tile t) →
      ∃ t, exec .treeDecide s = .next t ∧ t.net = (u.voidFrom c dst).net ++ n.kids.map (fun k => .decide c dst k d) ∧ t.tiles = s.tiles ∧
        t.ctx c = (s.ctx c).setNode { n with arrived := [], forwarded := false, leaving := [], num := d.nextNum })) ∧
  (∀ (s : State) (c t : Nat) (n : BitVec 2) (src : NodeId) (num : Nat) (d : Decide) (a : Arrival) (dead : BitVec 48),
    let x := s.tile t
    let r := x.strand n
    let u : State := { s with net := listDel s.net s.ev.i }
    (s.oldest s.ev.i = true → s.net[s.ev.i]? = some (.wconf c src (.tile t) num) → x.bar = .withdrawing →
      (∀ m, s.arrivalOver t m = false) →
      exec .treeWconf s = .next ((u.setTile t { x with bar := .opened }).formArrival t)) ∧
    (s.oldest s.ev.i = true → s.net[s.ev.i]? = some (.decide c src (.tile t) d) → (s.cluster (clusterOf t)).lost = false →
      (x.frozen = true → exec .treeDecide s =
        .next ((u.setTile t { x with dbg := { x.dbg with decision := some d } }).voidFrom c (.tile t))) ∧
      (x.frozen = false → exec .treeDecide s = .next (u.runDecision c t d))) ∧
    (s.ev.tile = t → s.ev.n = n.toNat → s.ctxOf t = some c → r.st = .wait → r.arrival = some a → a.deadline = some dead →
      a.expired = false → s.expired t dead = true → x.bar = .sent → x.dbg.decision = none →
      exec .cbarDeadlineExpiry s =
        .next ((s.setTile t { x.setStrand n { r with arrival := some { a with expired := true } } with bar := .withdrawing }).send
          (.withdraw c (.tile t) (.cluster (clusterOf t)) x.num)))))

/-- R281, R282, R285, R288 to R292, R296: a remote instruction whose address names a tile, or a group, of the context sends one delta for each destination
under one issue sequence, and counts each in OAK (sendAll); nothing else changes. -/
def Obligations.RemoteInstructionsSendDeltas : Prop :=
  ∀ (s : State) (d a b : BitVec 6) (x : BitVec 5) (p : BitVec 3) (i : BitVec 8) (n q : BitVec 2) (f : BitVec 4) (o : BitVec 3) (y : BitVec 4)
    (t g : Nat) (ms : List Nat), s.plain 1 = true → isMgmt s.curTile = false → s.me.oakTile.toNat < 65535 - 1024 →
    s.me.oakCtx.toNat < 65535 - 1024 → s.me.oakSys.toNat < 65535 - 1024 → s.here.errs = [] → s.here.locks = [] →
    let adr := s.getS a
    let low : Nat := adr.toNat % 2 ^ 18
    let vt := adr.toNat / 2 ^ 18
    let isTile : Bool := decide (adr.toNat < 2 ^ 45) && decide (vt < s.myCtx.tiles) && s.myCtx.tileOf vt == some t
    let isGroup : Bool := adr.toNat / 2 ^ 63 == 1 && adr.toNat % 2 ^ 55 / 2 ^ 18 == 0 && bitsOf adr.toNat 62 55 == g &&
      SMap.get [] s.myCtx.groups g == ms && !ms.isEmpty
    let toTile : Nat → DeltaBody → Bool → Outgoing := fun at_ body wide =>
      { lane := 0, dest := .tile t, cls := s.tileCls t, acct := tileAcct t at_, body := body, wide := wide }
    let toAxlos : DeltaBody → Bool → Outgoing := fun body wide =>
      { lane := 0, dest := .axlos (modOf s.curTile) (BitVec.ofNat 8 g), cls := .ctx, acct := axlosAcct s.curTile, body := body, wide := wide }
    let v := s.getS d
    let line : Int := low + 64 * i.toInt
    let op := vrredOp o y
    let mask := activeMask (s.getP p) (8 * redSize op)
    let text := s.view.bytes (s.getS b).toNat v.toNat
    let tiles := ms.filterMap s.myCtx.tileOf
    let mail : Bool → List Byte → List Nat → List Outgoing := fun eos l ts => ts.map (fun u =>
      { lane := 0, dest := .tile u, cls := s.tileCls u, acct := tileAcct u 0, body := .message q eos l, wide := false })
    (isTile = true →
      (low % 2 ^ n.toNat = 0 → Completes (.rst d a n) s (s.sendAll [toTile low (storeBody low (2 ^ n.toNat) v) false])) ∧
      (0 ≤ line → line < 2 ^ 18 → line % 64 = 0 → s.getP p ≠ 0 →
        Completes (.vrst x a p i) s (s.sendAll [toTile line.toNat (.store line.toNat (s.getP p) (s.getV x)) true])) ∧
      (low % redSize f = 0 → Completes (.rred d a f) s (s.sendAll [toTile low (redBody low f v) false])) ∧
      (low % 64 = 0 → mask ≠ 0 → Completes (.vrred x a p o y) s (s.sendAll [toTile low (.reduce low op mask (s.getV x)) true])) ∧
      (low = 0 → Completes (.msendEos a q) s (s.sendAll (mail true [] [t]))) ∧
      (low = 0 → v.toNat ≤ 2048 → (s.getS b).toNat % 16 = 0 → (s.getS b).toNat + v.toNat < 2 ^ 18 →
        Completes (.msend d a b q) s (s.sendAll (mail false text [t])))) ∧
    (isGroup = true →
      (low % redSize f = 0 → Completes (.rred d a f) s (s.sendAll [toAxlos (redBody low f v) false])) ∧
      (low % 64 = 0 → mask ≠ 0 → Completes (.vrred x a p o y) s (s.sendAll [toAxlos (.reduce low op mask (s.getV x)) true])) ∧
      (low = 0 → ms.length ≤ 1024 → Completes (.msendgEos a q) s (s.sendAll (mail true [] tiles))) ∧
      (low = 0 → ms.length ≤ 1024 → v.toNat ≤ 2048 → (s.getS b).toNat % 16 = 0 → (s.getS b).toNat + v.toNat < 2 ^ 18 →
        Completes (.msendg d a b q) s (s.sendAll (mail false text tiles)))) ∧
    (∀ out : List Outgoing, out ≠ [] → (s.sendAll out).net = s.net ++ out.map (fun e => .delta (s.delta s.here.iseq.toNat e)) ∧
      (s.sendAll out).here.iseq = s.here.iseq + 1 ∧
      ∀ e, ((s.sendAll out).me.oakOf e).toNat = ((s.me.oakOf e).toNat + (out.filter (fun u => u.cls == e)).length) % 2 ^ 16)

/-- R283 to R285, R334, R335: a delta that arrives and is wanted enters the inbox, or its base die's tentative buffer, and is acknowledged; a stale one is
dropped and acknowledged; the acknowledgement lowers the count of OAK, which FATAL may have set to 0 (R304); a refusal becomes pending and the tile
votes abort. -/
def Obligations.DeltasArriveAndAreAnswered : Prop :=
  ∀ (s : State) (d : Delta) (t m c k n : Nat) (mirror : Bool),
    let u : State := { s with net := listDel s.net s.ev.i }
    let x := s.tile t
    let cx := s.ctx d.ctx
    let less : BitVec 16 → BitVec 16 := fun o => if o = 0 then 0 else o - 1
    (s.net[s.ev.i]? = some (.delta d) → d.dest = .tile t → (s.cluster (clusterOf t)).lost = false →
      ((s.ctxOf t ≠ some d.ctx ∨ d.current x.num x.att = false) → exec .deltaArrival s =
        .next ((u.setTile t { x with dbg := { x.dbg with stale := sat32 x.dbg.stale } }).send (.ack d))) ∧
      (s.ctxOf t = some d.ctx → d.current x.num x.att = true →
        (∀ e, x.placement d = some e → exec .deltaArrival s = .next ((u.setTile t { x with inbox := x.inbox ++ [e] }).send (.ack d))) ∧
        ((∀ q eos l, d.body ≠ .message q eos l) → x.placement d = none → x.dbg.halted = false →
          exec .deltaArrival s = .next ((u.setTile t x).send (.refusal d))))) ∧
    (s.net[s.ev.i]? = some (.delta d) → d.dest = .memory m mirror → isMgmt d.srcTile = false →
      ((cx.fatal || !d.current cx.num cx.att) = true → exec .globalDeltaArrival s = .next (u.send (.ack d))) ∧
      ((cx.fatal || !d.current cx.num cx.att) = false → s.bufferRoom d m mirror = true →
        exec .globalDeltaArrival s = .next ((u.holdDelta d).send (.ack d))) ∧
      ((cx.fatal || !d.current cx.num cx.att) = false → s.bufferRoom d m mirror = false →
        exec .globalDeltaArrival s = .next (u.send (.refusal d)))) ∧
    (s.net[s.ev.i]? = some (.ack d) →
      ∃ v : State, exec .deltaAcknowledgement s = .next (v.formArrival d.srcTile) ∧
        ((isMgmt d.srcTile = true ∨ (s.ctxOf d.srcTile = some d.ctx ∧ (s.tile d.srcTile).num = d.num ∧ (s.tile d.srcTile).att = d.att)) →
          (v.strand d.srcTile d.strand).oakOf d.cls = less ((s.strand d.srcTile d.strand).oakOf d.cls)) ∧
        (∀ j, j ≠ d.strand → v.strand d.srcTile j = s.strand d.srcTile j)) ∧
    (s.net[s.ev.i]? = some (.refusal d) → s.ctxOf d.srcTile = some d.ctx → (s.tile d.srcTile).num = d.num → (s.tile d.srcTile).att = d.att →
      (∀ q eos l, d.body ≠ .message q eos l) →
      ∃ v : State, exec .deltaRefusal s = .next ((v.voteAbort d.srcTile 0x25).formArrival d.srcTile) ∧
        (v.strand d.srcTile d.strand).refusal = true ∧
        (v.strand d.srcTile d.strand).oakOf d.cls = less ((s.strand d.srcTile d.strand).oakOf d.cls)) ∧
    (s.net[s.ev.i]? = some (.baseCommit c m k n) → (∀ j < s.ev.i, ∀ n', s.net[j]? ≠ some (.baseCommit c m k n')) →
      let v := u.commitStack c m k n
      exec .baseDieCommit s = .next ((((((v.ctxTiles c).foldl State.finishNext v).answerSyncs c).reportDone c).tryDecide c).demandNow c)) ∧
    (s.net[s.ev.i]? = some (.arrayAck c k n false) → exec .arrayAcknowledgement s =
      .next ((((u.setCtx c { s.ctx c with acksDue := (s.ctx c).acksDue - 1 }).showNew c k).tryDecide c).reportDone c))

/-- R339 to R342: LDG and VLDG whose data have come write them and MET; STG and REDG whose address translates send their delta to the base die; VSTG and
VREDG send one for each active lane under one issue sequence, in ascending order (sendLane), and clear VPM. -/
def Obligations.GlobalAccessesComplete : Prop :=
  ∀ (s : State) (d a : BitVec 6) (x : BitVec 5) (l y p : BitVec 3) (z : BitVec 2) (f : BitVec 4) (value : Line) (m pa k : Nat) (mirror : Bool),
    s.plain 1 = true → s.supervisor = false → s.pone = false → s.me.oakCtx.toNat < 60000 → s.me.oakSys.toNat < 60000 →
    let adr := s.getS a
    let n := adr.toNat
    let load : Nat → Bool := fun k => decide (n < 2 ^ 48) && n % k == 0
    let store : Nat → Bool := fun k => decide (n < 2 ^ 47) && n % k == 0
    let size := 2 ^ (y.toNat % 4)
    let got : Word := if y.toNat < 4 then BitVec.ofInt 64 (intVal true (8 * size) value.toNat) else BitVec.ofNat 64 value.toNat
    let w := 8 * 2 ^ z.toNat
    let wr := 8 * redSize f
    let at_ : Nat → Nat → Nat := fun w j => n + lineElem (s.getV (x + 1)).toNat w j * (w / 8)
    let lanes : Nat → List Nat := fun w => (List.range (512 / w)).filter (active (s.getP p) w)
    let known : Nat → Bool := fun w => (lanes w).all (fun j => decide (at_ w j < 2 ^ 47) && at_ w j % (w / 8) == 0 &&
      match s.storeTo (BitVec.ofNat 64 (at_ w j)) with | .place _ _ _ _ => true | _ => false)
    let sent : Nat → (Nat → Nat → DeltaBody) → State := fun w body => (lanes w).foldl (fun u j =>
      match s.storeTo (BitVec.ofNat 64 (at_ w j)) with
      | .place m pa k mirror => u.sendLane j (s.globalOut j m pa k mirror (body pa (lineElem (s.getV x).toNat w j)))
      | _ => u) s
    let cleared : State → State := fun t => t.setMe { t.me with vpm := 0 }
    (s.me.gread = some (.data value false) → y.toNat ≤ 6 → value.toNat < 2 ^ (8 * size) → load size = true →
      ∃ t, exec (.ldg d a l y) s = .next t ∧ t.me.pc = BitVec.ofNat 16 (s.own + 4) ∧ t.me.wst = 0 ∧ t.me.gread = none ∧
        ∀ r, t.getS r = if r = 0 then 0 else if r = d then got else s.getS r) ∧
    (s.me.gread = some (.data value false) → load 64 = true →
      ∃ t, exec (.vldg x a l) s = .next t ∧ t.me.pc = BitVec.ofNat 16 (s.own + 4) ∧ t.me.wst = 0 ∧ t.me.gread = none ∧
        ∀ r, t.getV r = if r = x then value else s.getV r) ∧
    (s.storeTo adr = .place m pa k mirror →
      (store (2 ^ z.toNat) = true →
        Completes (.stg d a z) s (s.sendAll [s.globalOut 0 m pa k mirror (storeBody pa (2 ^ z.toNat) (s.getS d))])) ∧
      (store (redSize f) = true →
        Completes (.redg d a f) s (s.sendAll [s.globalOut 0 m pa k mirror (redBody pa f (s.getS d))]))) ∧
    (s.me.vpm = 0 → known w = true →
      Completes (.vstg x a p z) s (cleared (sent w (fun pa v => storeBody pa (w / 8) (BitVec.ofNat 64 v))))) ∧
    (s.me.vpm = 0 → known wr = true →
      Completes (.vredg x a p f) s (cleared (sent wr (fun pa v => redBody pa f (BitVec.ofNat 64 v)))))

/-- R328 to R333, R338: a global load or store faults at the first of: an address beyond 48 bits, misalignment, a write to the upper half, and what the
translation finds; a leaf without W or R is PROTECTION; a miss of a store stalls it, with SUB 10, while its page is walked.
R325, R335, R337: a COMMIT that reaches a base die applies its tentative store: the bytes its mask picks become its data, under the key of their
page when it has one, and no other byte of the module changes; what has applied leaves the tentative buffer. The stack has no error and no poison, and
the line's journal has room.
R322, R323, R324: the parity block of a stripe holds old parity XOR old data XOR new data after every write of a byte of its data blocks, and
no other write changes it; a rebuild from the seven other blocks gives the data; the blocks of a stripe stand at one channel and stack-local
address of different stacks, and the parity in another. -/
def Obligations.GlobalCausesAndCommit : Prop :=
  (∀ (s : State) (d a : BitVec 6) (l : BitVec 3) (z : BitVec 2), s.supervisor = false → s.pone = false →
    let adr := s.getS a
    let n := adr.toNat
    let k := 2 ^ z.toNat
    let took : Instr → BitVec 8 → BitVec 8 → Prop := fun i c sub =>
      exec i s = .next ((s.takeTrap c sub adr s.me.pc.toNat false).afterRetire)
    (2 ^ 48 ≤ n → took (.stg d a z) 0x21 8 ∧ took (.ldg d a l 3) 0x20 8 ∧ took (.redg d a 0) 0x21 8) ∧
    (n < 2 ^ 48 → (n % k ≠ 0 → took (.stg d a z) 0x08 0) ∧ (n % 8 ≠ 0 → took (.ldg d a l 3) 0x08 0)) ∧
    (2 ^ 47 ≤ n → n < 2 ^ 48 → n % k = 0 → took (.stg d a z) 0x22 2) ∧
    (n < 2 ^ 47 → n % k = 0 →
      (∀ c sub, s.storeTo adr = .bad c sub → took (.stg d a z) c sub) ∧
      (s.storeTo adr = .walk → ∃ t, exec (.stg d a z) s = .next t ∧ t.me.st = .wait ∧
        t.walks = s.walks ++ [{ ctx := s.myCtxNo, tile := s.curTile, strand := s.curStrand, va := adr, write := true }] ∧
        (match t.me.wait with | some w => (match w.kind with | .stall sub tv _ => sub = 10 ∧ tv = adr | _ => False) | none => False))) ∧
    (∀ c e va size write, (s.leafCheck c e va size write = some (0x22, 1) ↔ (write = true ∧ e / 8 % 2 = 0)) ∧
      (s.leafCheck c e va size write = some (0x22, 0) ↔ (write = false ∧ e / 4 % 2 = 0)))) ∧
  (∀ (s : State) (c m k num a : Nat) (d : Delta) (mask : BitVec 64) (data : BitVec 512),
    let x := s.stackAt m k
    x.tbuf.filter (fun e => e.ctx == c && e.num == num) = [d] → d.body = .store a mask data → d.dest = .memory m false →
    a % 64 = 0 → (placeOf a).stack = k → x.bad = [] → s.stackFailed m k = false → x.poison = [] → x.journal.length < 2 ^ 24 →
      let t := s.commitStack c m k num
      let stored : Nat → Byte := fun j => BitVec.ofNat 8 (data.toNat / 2 ^ (8 * j))
      (d.kslot = 0 → ∀ j, Memory.read (t.mod m).mem j =
        if a ≤ j ∧ j < a + 64 ∧ mask.getLsbD (j - a) = true then stored (j - a) else Memory.read (s.mod m).mem j) ∧
      (let plain := s.cipher false m d.kslot (a / 64) (Memory.num (s.mod m).mem a 64)
       ∃ new : Nat, (∀ j < 64, new / 2 ^ (8 * j) % 256 = if mask.getLsbD j = true then (stored j).toNat else plain / 2 ^ (8 * j) % 256) ∧
         Memory.num (t.mod m).mem a 64 = s.cipher true m d.kslot (a / 64) (new % 2 ^ 512) % 2 ^ 512) ∧
      (∀ j, (j < a ∨ a + 64 ≤ j) → Memory.read (t.mod m).mem j = Memory.read (s.mod m).mem j) ∧
      (t.stackAt m k).tbuf = x.tbuf.filter (fun e => !(e.ctx == c && e.num == num)) ∧ t.tiles = s.tiles ∧
      ∀ w, w ≠ m → t.mod w = s.mod w) ∧
  (∀ (mem : Memory) (a b : Nat) (v : Byte),
    parityByte (Memory.write mem a v) a = parityByte mem a ^^^ Memory.read mem a ^^^ v ∧
    (a ∉ stripeOf b → parityByte (Memory.write mem a v) b = parityByte mem b) ∧
    rebuiltByte mem a = Memory.read mem a ∧
    (b ∈ stripeOf a → (placeOf b).channel = (placeOf a).channel ∧ (placeOf b).localAt = (placeOf a).localAt ∧
      (placeOf b).parity = (placeOf a).parity ∧ (placeOf b).stack ≠ (placeOf b).parity ∧ (b ≠ a → (placeOf b).stack ≠ (placeOf a).stack)))

/-- R330 to R334, R339, R464, R381: a walk that has a walker, and ends at a leaf, puts it in the cluster's cache for every access that waits for its page,
and a read in flight becomes data, or a read; an array acknowledgement of the last checkpoint image makes it durable; a captured image is acknowledged; a
report of a line marks it to be read again.
That the answer of a read whose line has a commit still to apply leaves the state as it is is the model's choice (log entry 1).
R375 to R377: a line that a FETCHL or a COPY from global memory reads arrives: its 64 bytes go to the local line that the entry, or the descriptor, gives,
with the descriptor of the source if its page has one, and with the tags full when the operation asks for it; the operation goes on to its next line, and
with the last line its token is SET with status 0. engReadAt is the committed line as the engine reads it once it has been translated, engRead translates it
first; no strand waits for a tag that becomes full, no capture is under way and no next fetch is ready to end. -/
def Obligations.GlobalAndEngineStepsComplete : Prop :=
  (∀ (s : State) (w : Walk) (c t m pa kslot va size n stack : Nat) (mirror : Bool) (x : Word),
    let u : State := { s with net := listDel s.net s.ev.i }
    let z := s.strand t (BitVec.ofNat 2 s.ev.n)
    let y := s.tile t
    (s.walks[s.ev.i]? = some w → s.walkerHas s.ev.i = true →
      let r := ({ s with walks := s.walks.filter (fun v => !w.same v) } : State).walkLeaf (some (dieOf w.tile)) w.ctx (modOf w.tile)
        w.va.toNat w.write
      exec .pageWalkComplete s = .next (((s.walks.filter w.same).foldl (fun q v => q.walkServe r.2 v) r.1).demandNow w.ctx) ∧
      ∀ (q : State) leaf size,
        (q.leafCheck w.ctx leaf w.va.toNat size w.write = none → q.walkServe (.ok (leaf, size)) w =
          (q.fillCache w.tile w.ctx w.va.toNat leaf size).walkResult w (.ok (leaf, size))) ∧
        ∀ f, q.leafCheck w.ctx leaf w.va.toNat size w.write = some f → q.walkServe (.ok (leaf, size)) w = q.walkResult w (.error f)) ∧
    (s.ev.tile = t → s.ev.ok = true → z.gread = some (.reading m pa kslot mirror) → z.loadOf = some (x, size) →
      let k := s.ctxOf t
      let waits : Bool := k.any (fun e => s.commitPending e m pa)
      let partner := k.bind (fun e => if mirror then some (s.ctx e).partner else none)
      let p := s.readPhys m pa size partner k y.vtid.toNat kslot
      let q := (p.1.tile t).account (baseAcct pa) s.ev.delay
      let j := BitVec.ofNat 2 s.ev.n
      let v := p.1.setTile t (q.setStrand j { q.strand j with gread := some (.data (BitVec.ofNat 512 p.2.1) p.2.2) })
      (waits = true → exec .globalReadResponse s = .next s) ∧
      (waits = false → exec .globalReadResponse s = .next (match k with | some e => v.demandNow e | none => v))) ∧
    (s.net[s.ev.i]? = some (.arrayAck c stack n true) →
      let q := s.ctx c
      exec .arrayAcknowledgement s = .next ((u.setCtx c (if q.ckAcksDue = 1 ∨ q.ckAcksDue = 0
        then { q with ckAcksDue := 0, ckReady := q.ckPending, ckPending := none, journalStuck := false }
        else { q with ckAcksDue := q.ckAcksDue - 1 })).tryDecide c)) ∧
    (∀ p, s.ev.tile = t → y.capture = some p → s.ctxOf t = some c →
      exec .checkpointCaptureDone s = .next ((s.setTile t { y with capture := none }).send (.arrayAck c 0 p.num true))) ∧
    (s.net[s.ev.i]? = some (.refetch t va) → exec .refetchReport s =
      .next ((u.setTile t { y with eng := y.eng.map (fun e =>
        if e.kind = .fetchl ∧ e.next = true ∧ e.localsOf va ≠ [] ∧ ¬ (va ∈ e.again) then { e with again := e.again ++ [va] } else e) }).finishNext t)) ∧
    (∀ e : EngOp, s.ev.tile = t → y.eng[s.ev.i]? = some e → isMgmt t = false → e.kind = .copy → e.glob = false → e.line < cpLen e.desc →
      y.errs = [] → y.capture = none → e.tag = false → (∀ c, s.ctxOf t = some c → (s.ctx c).demand = none) →
      let src := cpSrc e.desc / 64 + e.line
      let dst := cpDst e.desc / 64 + e.line
      ∃ v : State, exec .engineLocalLine s = .next v ∧
        (∀ j, (v.tile t).byte j = if 64 * dst ≤ j ∧ j < 64 * dst + 64 then y.byte (64 * src + (j - 64 * dst)) else y.byte j) ∧
        (e.line + 1 < cpLen e.desc → (v.tile t).eng[s.ev.i]? = some { e with line := e.line + 1 })) ∧
    (∀ e : EngOp, s.ev.tile = t → y.eng[s.ev.i]? = some e → isMgmt t = false → s.lulled t e = false → e.kind = .fetchl → e.ents.length = e.j →
      y.errs = [] → e.j < fdNent e.desc →
      let q := s.setEng t s.ev.i { e with ents := e.ents ++ [BitVec.ofNat 128 (y.lm (fdList e.desc + 16 * e.j) 16)] }
      exec .engineLineArrival s = .next ((if e.j + 1 = fdNent e.desc then q.setTile t ((q.tile t).unlock e.strand e.tok [.list]) else q).afterEngine t))) ∧
  (∀ (s w : State) (e : EngOp) (t dst pa : Nat) (bytes : List Byte) (desc : Option (BitVec 16)),
    let y := s.tile t
    let fills : Bool := e.tag && !e.next
    s.ev.tile = t → y.eng[s.ev.i]? = some e → (isMgmt t && e.outside) = false → s.lulled t e = false → y.capture = none →
    (fills = false ∨ ∀ n, (y.strand n).st ≠ .wait) →
    (∀ c, s.ctxOf t = some c → (w.ctx c).demand = none) → (∀ f ∈ y.eng, f.next = true → f.closed = false ∨ f.moved = false) →
      let band : BitVec 32 := match desc with
        | some d => (y.bandAt dst &&& 0xFFFF) ||| (d.setWidth 32 <<< 16)
        | none => y.bandAt dst
      let lands : State → Prop := fun v =>
        (∀ j, (v.tile t).byte j = if 64 * dst ≤ j ∧ j < 64 * dst + 64 then bytes.getD (j - 64 * dst) 0 else y.byte j) ∧
        (v.tile t).bandAt dst = (if fills then band ||| 0xFFFF else band)
      let done : State → Prop := fun v => (((v.tile t).strand e.strand).tok e.tok).st = .set ∧ (((v.tile t).strand e.strand).tok e.tok).status = 0
      (∀ n l, e.kind = .fetchl → e.ents[e.j]? = some n → e.xlated = true → e.lines[e.position]? = some l → s.engReadAt t l = (w, .data pa bytes desc) →
        dst = enLocal n e.line / 64 → e.j < fdNent e.desc → (e.next = false ∨ e.closed = false) →
        (e.line + 1 ≠ enCount n → ∃ v, exec .engineLineArrival s = .next v ∧ lands v ∧
          (v.tile t).eng[s.ev.i]? = some { e with line := e.line + 1, moved := false }) ∧
        (e.line + 1 = enCount n → e.j + 1 < fdNent e.desc → ∃ v, exec .engineLineArrival s = .next v ∧ lands v ∧
          (v.tile t).eng[s.ev.i]? = some { e with j := e.j + 1, line := 0, xlated := false, moved := false }) ∧
        (e.line + 1 = enCount n → e.j + 1 = fdNent e.desc → e.next = false → ∃ v, exec .engineLineArrival s = .next v ∧ done v)) ∧
      (e.kind = .copy → e.glob = true → e.next = false → s.engRead t (cpSrc e.desc + 64 * e.line) = (w, .data pa bytes desc) →
        dst = cpDst e.desc / 64 + e.line →
        (e.line + 1 < cpLen e.desc → ∃ v, exec .engineLineArrival s = .next v ∧ lands v ∧
          (v.tile t).eng[s.ev.i]? = some { e with line := e.line + 1 }) ∧
        (e.line + 1 = cpLen e.desc → ∃ v, exec .engineLineArrival s = .next v ∧ done v)))

/-- R365 to R374, R378: an engine instruction whose checks pass takes its locks, its token and a queue slot, and transfers nothing yet; WBL takes an
issue sequence; COLL sends its request with its parameter block to Axlos. Every local store that a strand of the tile has issued before is performed
first (R374, settle).
R385: RLSTAT.LOCK gives the lock word of an address, RLSTAT.PROG the progress of the last operation of a token, RLSTAT.FADDR its faulting address. -/
def Obligations.EngineInstructionsAndProgress : Prop :=
  (∀ (s : State) (a : BitVec 3) (k : BitVec 4) (g : BitVec 1), s.plain 1 = true → isMgmt s.curTile = false → (s.getTok k).st ≠ .pending →
    s.here.locks = [] → s.here.eng = [] → s.here.errs = [] →
    let d := s.getD a
    let x := s.settle.here
    let lock : Nat → Nat → LockKind → LockUse → Lock := fun lo n kind use =>
      { lo := lo, len := n, kind := kind, use := use, strand := s.curStrand, tok := k }
    let dk : LockKind := if g = 1 then .tag else .write
    let op : EngKind → Bool → Bool → Bool → BitVec 32 → EngOp := fun kind next tag glob seq =>
      { kind := kind, next := next, tag := tag, glob := glob, desc := d, strand := s.curStrand, tok := k, step := x.num, seq := seq, ents := [],
        j := 0, line := 0, xlated := false, out := 0, moved := false, again := [], closed := false }
    let issue : List Lock → EngOp → TokUse → State := fun ls e use =>
      (s.setHere { x with locks := ls, eng := [e] }).setTok k { st := .pending, use := use, step := x.num }
    let listOk : Bool := d.toNat &&& fdNamed == d.toNat && decide (0 < fdNent d) && decide (fdNent d ≤ 256) && decide (0 < fdSpan d) &&
      decide (fdSpan d ≤ 4096) && fdList d % 16 == 0 && fdSlo d % 64 == 0 && decide (fdList d + 16 * fdNent d ≤ 0x40000) &&
      decide (fdSlo d + 64 * fdSpan d ≤ 0x40000)
    let copyOk : Bool := d.toNat &&& cpNamed == d.toNat && decide (0 < cpLen d) && decide (cpLen d ≤ 4096) && cpSrc d % 64 == 0 &&
      cpDst d % 64 == 0 && decide (cpDst d + 64 * cpLen d ≤ 0x40000)
    let list := lock (fdList d) (16 * fdNent d) .read .list
    let lands : Nat → Nat → Bool := fun lo n => (List.range n).all (fun j => x.attr (lo + 64 * j) == 1 || x.attr (lo + 64 * j) == 2)
    (listOk = true → lands (fdSlo d) (fdSpan d) = true →
      Completes (.fetchl a k g) s (issue [list, lock (fdSlo d) (64 * fdSpan d) dk .span] (op .fetchl false (g == 1) true 0) .fetchl) ∧
      Completes (.fetchlNext a k g) s (issue [list, lock (fdSlo d) (64 * fdSpan d) dk .span] (op .fetchl true (g == 1) true 0) .fetchNext)) ∧
    (listOk = true → Completes (.wbl a k) s
      (let t := issue [list, lock (fdSlo d) (64 * fdSpan d) .read .source] (op .wbl false false true x.iseq) .wbl
       t.setHere { t.here with iseq := x.iseq + 1 })) ∧
    (copyOk = true → lands (cpDst d) (cpLen d) = true →
      let n := 64 * cpLen d
      (cpSrc d + n ≤ 0x40000 → (cpSrc d + n ≤ cpDst d ∨ cpDst d + n ≤ cpSrc d) → Completes (.copy a k g) s
        (issue [lock (cpSrc d) n .read .source, lock (cpDst d) n dk .span] (op .copy false (g == 1) false 0) .copy)) ∧
      (cpSrc d < 2 ^ 47 → Completes (.copyG a k g) s (issue [lock (cpDst d) n dk .span] (op .copy false (g == 1) true 0) .copy))) ∧
    (d.toNat &&& cdNamed = d.toNat → cdNarg d ≤ 8 → cdNcon d = 0 → cdNland d = 0 → 2 ≤ cdDue d → cdPblk d % 64 = 0 →
      cdPblk d + 128 ≤ 0x40000 → x.inGroup (cdGroup d) = true → s.me.oakCtx.toNat < 65535 →
      Completes (.coll a k) s ((s.settle.setTok k { st := .pending, use := .coll, step := x.num }).sendAll
        [{ lane := 0, dest := .axlos (modOf s.curTile) (BitVec.ofNat 8 (cdGroup d)), cls := .ctx, acct := axlosAcct s.curTile, wide := false,
           body := .request d (BitVec.ofNat 1024 (x.lm (cdPblk d) 128)) s.me.dt.toList s.me.dla k }]))) ∧
  (∀ (s : State) (d a : BitVec 6) (k : BitVec 4), s.plain 1 = true →
    let x := s.here
    let n := (s.getS a).toNat
    let tok := s.getTok k
    let engine : Bool := tok.use == .fetchl || tok.use == .fetchNext || tok.use == .wbl || tok.use == .copy
    (n < 2 ^ 18 → ∃ w : Word, Completes (.rlstatLock d a) s (s.setS d w) ∧
      (x.locks.length ≤ 16 → w.toNat / 2 ^ 16 = 16 - x.locks.length ∧
        (w.getLsbD 0 = true ↔ ∃ l ∈ x.locks, l.kind = .read ∧ l.lo ≤ n ∧ n < l.lo + l.len) ∧
        (w.getLsbD 1 = true ↔ ∃ l ∈ x.locks, l.kind = .write ∧ l.lo ≤ n ∧ n < l.lo + l.len) ∧
        (w.getLsbD 2 = true ↔ ∃ l ∈ x.locks, l.kind = .tag ∧ l.lo ≤ n ∧ n < l.lo + l.len))) ∧
    (2 ^ 18 ≤ n → exec (.rlstatLock d a) s = .next ((s.takeTrap 0x09 0 (s.getS a) s.me.pc.toNat false).afterRetire)) ∧
    (engine = false → Completes (.rlstatProg d k) s (s.setS d 0) ∧ Completes (.rlstatFaddr d k) s (s.setS d 0)) ∧
    (engine = true → Completes (.rlstatFaddr d k) s (s.setS d tok.faddr) ∧
      Completes (.rlstatProg d k) s (s.setS d (BitVec.ofNat 64 (tok.sub.toNat * 2 ^ 40 + tok.cause.toNat * 2 ^ 32 +
        (match x.eng.find? (fun e => e.strand == s.curStrand && e.tok == k) with | some e => e.j | none => tok.done.toNat) % 512)))))

/-- R481, R482, R484: in supervisor mode a supervisor instruction whose block is read and whose conditions hold writes 0 to sd, makes its token PENDING and lists
its operation, which begins its work if it has any and nothing accepted earlier for its target is open; one that is refused writes the first code that applies and starts nothing; LAUNCH completes at once with its context; in user mode
each raises PRIVILEGE with TVAL its first word. The
management tile is no tile of the context in s[sa].
The order of two refusal conditions is the model's reading (log entry 19). -/
def Obligations.SupervisorOperationsAccepted : Prop :=
  ∀ (s : State) (d a b : BitVec 6) (k : BitVec 4),
    let m := modOf s.curTile
    let v := (s.getS a).toNat
    let at_ := (s.getS b).toNat
    let withBlock : List Instr := ([.bindBind d a b k, .tmapMap d a b k, .tmapInval d a b k, .tmapGroup d a b k, .codestCode d a b k,
      .codestLocal d a b k, .codestReg d a b k, .codestChunk d a b k, .codestPtab d a b k, .startResume d a b k, .startStrand d a b k,
      .imgmvSave d a b k, .imgmvRestore d a b k, .imgmvMove d a b k, .keyld d a b k, .scrubPages d a b k] : List Instr) ++
      [.dumpLog d a b k, .dumpCtx d a b k, .dumpTrace d a b k]
    let bare : List Instr := [.bindUnbind d a k, .bindFence d a k, .bindUnfence d a k, .startLaunch d a k, .quiesceRequest d a k,
      .quiesceCkpt d a k, .quiesceCancel d a k, .quiescePark d a k, .keyz d a k, .scrubCluster d a k, .forceab d a k]
    let issue : Instr → List Byte → Nat → Prop := fun i l extra =>
      let code := s.refusal m i v l
      let op : SupOp := { instr := i, tile := s.curTile, strand := s.curStrand, tok := k, target := supTarget m i v,
                          args := l ++ List.replicate (128 - l.length) 0 ++ toBytes 8 v ++ toBytes 8 extra, since := s.cycle, begun := false }
      let t := (s.setS d 0).setTok k { st := .pending, use := .supervisor, step := s.here.num }
      (code ≠ 0 → Completes i s (s.setS d (BitVec.ofNat 64 code))) ∧
      (code = 0 → Completes i s ((t.setMod m { t.mod m with ops := (t.mod m).ops ++ [op] }).startOp m (t.mod m).ops.length))
    (s.plain 2 = true → s.supervisor = true → (s.getTok k).st ≠ .pending → s.here.errs = [] → s.curTile ∉ s.ctxTiles v →
      (∀ i ∈ bare, issue i [] 0) ∧
      (at_ % 64 = 0 →
        (∀ i ∈ withBlock, at_ + blockSize i ≤ 2 ^ 18 → issue i (s.view.bytes at_ (blockSize i))
          (match i with | .startStrand .. => (s.tile (tileNo m v)).num * 65536 + (s.tile (tileNo m v)).att | _ => at_)) ∧
        (at_ + 64 ≤ 2 ^ 18 →
          let l := s.view.bytes at_ 64
          let code := s.refuseLaunch v l
          (code ≠ 0 → Completes (.launch d a b k) s (s.setS d (BitVec.ofNat 64 code))) ∧
          (∀ c, code = 0 → s.freeCtx = some c →
            ∃ x : Ctx, Completes (.launch d a b k) s ((({ s with free := s.free + 1 }.setCtx c x).setS d (BitVec.ofNat 64 (256 * c))).setTok k
              { st := .set, use := .supervisor, step := s.here.num }) ∧
              x.tiles = blockNum l 0 4 ∧ x.abortLim = blockNum l 4 2 ∧ x.root = blockNum l 8 8 ∧ x.plim = blockNum l 16 4 ∧
              x.home = m ∧ x.started = false)))) ∧
    (s.supervisor = false → ∀ i ∈ Instr.launch d a b k :: withBlock ++ bare,
      exec i s = .next ((s.takeTrap 0x0A 0 (((s.cluster (clusterOf s.curTile)).word s.own).setWidth 64) s.me.pc.toNat false).afterRetire)) ∧
    (s.supervisor = true → (s.getTok k).st = .pending → ∀ i ∈ Instr.launch d a b k :: withBlock ++ bare,
      exec i s = .next ((s.takeTrap 0x0F 0 (k.setWidth 64) s.me.pc.toNat false).afterRetire))

/-- R482, R484: an operation with nothing accepted earlier for its target, and nothing to wait for, ends: its token becomes SET with a status, 0x80 plus the
code for what its conditions no longer allow, 0x33 for a link failure on the way, and 0 with its effect, here the new contents of what it changes; one whose
source read meets poison ends with 0x24. A launch, a resume, a save and a move are those of startLaunchCtx, resumeCtx, saveImage and moveImage. A scrub, a
park or a forced abort that had to wait begins then, and one that has begun ends with 0 or, after a link failure, with 0x33.
The statuses for what an operation meets on the way are the model's reading (log entries 19, 46). -/
def Obligations.SupervisorOperationsEnd : Prop :=
  ∀ (s : State) (o : SupOp) (d a b : BitVec 6) (k : BitVec 4),
    let m := s.ev.m
    let i := s.ev.i
    let v := blockNum o.args 128 8
    let ends : State → Nat → State := fun t status =>
      let u := t.setMod m { t.mod m with ops := listDel (t.mod m).ops i }
      u.setStrand o.tile o.strand ((u.strand o.tile o.strand).setTok o.tok
        { (u.strand o.tile o.strand).tok o.tok with st := .set, status := BitVec.ofNat 8 status })
    let code := if s.restarted m o then 1 else s.refusal m o.instr v o.args
    let done : Nat → State → Prop := fun status t => exec .supervisorOpComplete s = .next (ends t status)
    let md := s.mod m
    let cl := clusterNo m v
    let arg : Nat → Nat → Nat := blockNum o.args
    let q := tileNo m v
    let src := arg 0 8
    let read : Nat → State × List Byte × Bool := s.readSpan (physModule src) (physOffset src)
    let got := read (arg 8 4)
    let dumped : State → Nat → Nat → Bool → Prop := fun t kind whole header =>
      16 ≤ arg 8 4 → Memory.bytes (t.mod (physModule src)).mem (physOffset src) 16 =
        toBytes 8 (src - dumpBase (physModule src)) ++ toBytes 4 (min whole (arg 8 4)) ++ [BitVec.ofNat 8 kind, BitVec.ofNat 8 v] ++
          toBytes 2 (if header then 2 else if arg 8 4 < whole then 1 else 0)
    md.ops[i]? = some o → s.opFirst m i o = true →
      (o.begun = true → s.opReady m i o = true → done (if s.ev.value = 0x33 then 0x33 else 0) s) ∧
      (o.begun = false → works o.instr || s.opReady m i o →
        (code ≠ 0 → done (0x80 + code) s) ∧
        (code = 0 → s.ev.value = 0x33 → done 0x33 s) ∧
        (code = 0 → s.ev.value ≠ 0x33 → works o.instr = true →
          exec .supervisorOpComplete s = .next ((s.setMod m { md with ops := listSet md.ops i { o with begun := true } }).beginOp m o.instr v o.args)) ∧
        (code = 0 → s.ev.value ≠ 0x33 →
          (o.instr = .bindBind d a b k → done 0 (s.setCluster cl { s.cluster cl with
            ctx := some (arg 0 1), vci := none, owner := (s.ctx (arg 0 1)).owner, elect := 0, started := false, gone := false })) ∧
          (o.instr = .bindUnbind d a k → ∃ t, done 0 t ∧ (t.cluster cl).ctx = none ∧ (t.cluster cl).owner = (s.cluster cl).owner ∧
            ((s.cluster cl).lost = false → (s.cluster cl).gone = false → ∀ u ∈ tilesOf cl, ∀ n, (t.strand u n).st = .idle)) ∧
          (o.instr = .tmapMap d a b k → let p := clusterNo m (arg 4 2)
            ∃ t, done 0 t ∧ SMap.find (t.ctx v).tmap (arg 0 4) = some p ∧ (t.cluster p).vci = some (arg 0 4) ∧
              ∀ j < 16, (t.tile (16 * p + j)).vtid = BitVec.ofNat 27 (16 * arg 0 4 + j)) ∧
          (o.instr = .tmapInval d a b k → ∃ t, done 0 t ∧ t.tiles = s.tiles ∧
            (∀ c, ∀ e ∈ (t.cluster c).tcache, e.ctx = v → arg 8 1 ≠ 1 ∧ src / e.size ≠ e.page) ∧
            ∀ c, ∀ e ∈ (s.cluster c).tcache, e.ctx ≠ v → e ∈ (t.cluster c).tcache) ∧
          (o.instr = .tmapGroup d a b k → let r := s.groupBitmap o.args
            (r.2.2 = true → done 0x24 r.1) ∧
            (r.2.2 = false → ∃ t, done 0 t ∧ SMap.find (t.ctx v).groups (arg 0 1) =
              some ((List.range (arg 16 4)).filter (fun j => (r.2.1.getD (j / 8) 0).getLsbD (j % 8))))) ∧
          (o.instr = .codestCode d a b k → got.2.2 = false → done 0 (got.1.setCluster cl { got.1.cluster cl with
            store := Memory.writeBytes [] 0 got.2.1, clim := BitVec.ofNat 17 got.2.1.length, errs := [] })) ∧
          (o.instr = .codestLocal d a b k → got.2.2 = false → ∃ t, done 0 t ∧ ∀ u x, (t.tile u).byte x =
            if u ∈ tilesOf cl ∧ (arg 16 2).testBit (u % 16) = true ∧ arg 12 4 ≤ x ∧ x < arg 12 4 + got.2.1.length
            then got.2.1.getD (x - arg 12 4) 0 else (got.1.tile u).byte x) ∧
          (o.instr = .codestReg d a b k → let w : Word := BitVec.ofNat 64 (arg 8 8)
            let named : List Nat := (tilesOf cl).filter (fun u => (arg 2 2).testBit (u % 16))
            (arg 0 2 = 256 → ∃ t, done 0 t ∧ ∀ u ∈ named, (t.tile u).rega0 = w) ∧
            (arg 0 2 = 14 → s.clusterHeld cl = true → ∃ t, done 0 t ∧ ∀ u ∈ named, ∀ n : BitVec 2,
              (t.strand u n).tval = if (arg 4 1).testBit n.toNat then w else (s.strand u n).tval)) ∧
          (o.instr = .codestChunk d a b k → got.2.2 = false → ∃ t, done 0 t ∧ ∀ j < got.2.1.length / 8,
            SMap.find (t.mod m).store (v + j) = some (BitVec.ofNat 64 (ofBytes ((got.2.1.drop (8 * j)).take 8)))) ∧
          (o.instr = .startLaunch d a k → let t := s.startLaunchCtx v
            done 0 t ∧ (t.ctx v).started = true ∧ (t.ctx v).running = true ∧ (t.ctx v).num = 1 ∧ (t.ctx v).att = 0 ∧ (t.ctx v).clock = 0) ∧
          (o.instr = .startResume d a b k → done (s.resumeCtx v src).2 (s.resumeCtx v src).1) ∧
          (o.instr = .startStrand d a b k → let n := BitVec.ofNat 2 (arg 2 1)
            let r := s.strand q n
            r.park = none → arg 3 1 = 0 → arg 0 2 % 4 = 0 →
              done 0 (s.setStrand q n { r with th := false, st := .run, wait := none, stall := none, pc := BitVec.ofNat 16 (arg 0 2), badEntry := none })) ∧
          (o.instr = .imgmvSave d a b k → (s.tile q).errs = [] → ∃ t, done 0 t ∧ t = s.saveImage q (arg 8 1) src ∧ t.tiles = s.tiles ∧ t.ctxs = s.ctxs) ∧
          (o.instr = .imgmvRestore d a b k → let r := read 0x54000
            (r.2.2 = true → done 0x24 r.1) ∧
            (r.2.2 = false → ∃ t, done 0 t ∧ ∀ x < 2 ^ 18, (t.tile q).attr x ≠ 1 →
              (t.tile q).byte x = Memory.read (r.1.mod (physModule src)).mem (physOffset src + 0x14000 + x))) ∧
          (o.instr = .imgmvMove d a b k → (s.tile q).errs = [] → ∃ t, done 0 t ∧ t = s.moveImage q (tileNo m (arg 0 4)) ∧
            ∀ u, u ≠ tileNo m (arg 0 4) → t.tile u = s.tile u) ∧
          (o.instr = .keyld d a b k → done 0 (let t := s.setMod m { md with
              keys := SMap.set md.keys (arg 0 1) { ctx := v, key := BitVec.ofNat 512 (arg 64 64) } }
            t.setTile o.tile ((t.tile o.tile).writeBytes (arg 136 8) (List.replicate 128 0)))) ∧
          (o.instr = .dumpLog d a b k → ∃ t, done 0 t ∧ t.tiles = s.tiles ∧ dumped t 0 (64 + 32 * (s.logOf m v).length) false) ∧
          (o.instr = .dumpCtx d a b k → ∃ t, done 0 t ∧ ((s.ctx v).prot = true → t.tiles = s.tiles) ∧
            dumped t 1 (if (s.ctx v).prot then 64 else 64 + 0x54000 * (s.ctx v).tiles) (s.ctx v).prot) ∧
          (o.instr = .dumpTrace d a b k → ∃ t, done 0 t ∧ t.tiles = s.tiles ∧ dumped t 2 (64 + 24 + 65536 * 128) false) ∧
          (o.instr = .bindFence d a k → done 0 (s.setCluster cl { s.cluster cl with fenced := true })) ∧
          (o.instr = .bindUnfence d a k → done 0 (s.setCluster cl { s.cluster cl with fenced := false })) ∧
          (o.instr = .codestPtab d a b k → done 0 (s.setMod m { md with ptab := SMap.set md.ptab v (ptabEntry o.args) })) ∧
          (o.instr = .quiesceRequest d a k →
            done 0 (s.setCtx v { s.ctx v with preempt := some ((s.ctx v).clock + BitVec.ofNat 48 (s.ctx v).plim) })) ∧
          (o.instr = .quiesceCkpt d a k → done 0 (s.setCtx v { s.ctx v with ckReq := true })) ∧
          (o.instr = .quiesceCancel d a k → done 0 (s.setCtx v { s.ctx v with preempt := none })) ∧
          (o.instr = .keyz d a k → done 0 (s.setMod m { md with keys := md.keys.filter (fun e => e.2.ctx != v) }))))

/-- R399, R402, R403, R409: the chunk instructions over registers, the branches among slots, and ABORTC; the thread goes on at the next slot, or at the target.
Slots are counted from the start of the store, the model's reading (log entry 27). -/
def Obligations.ChunkRegistersAndFlow : Prop :=
  ∀ (s : State), (s.thread s.curModule s.curThread).isSome = true →
    let t := s.thr
    let f := s.cf
    let x := s.gA
    let y := s.gB
    let z := s.gC
    let k := f.imm.signExtend 64
    let far := (BitVec.ofInt 64 ((t.pc : Int) + f.imm.toInt)).toNat
    let goes : Instr → Thread → Nat → Prop := fun i r pc =>
      exec i s = .next (s.setThr { r with pc := pc, st := .running, wait := none, got := false, left := [] })
    let sets : Instr → Word → Prop := fun i v => goes i (t.setG f.a v) (t.pc + 1)
    goes .chunkNop t (t.pc + 1) ∧ sets .setg k ∧ sets .setgh (f.imm ++ x.setWidth 32) ∧ sets .movg y ∧ sets .addg (y + k) ∧ sets .addgr (y + z) ∧
    sets .subgr (y - z) ∧ sets .mulgr (y * z) ∧
    (z ≠ 0 → sets .remgr (y % z)) ∧
    (z = 0 → exec .remgr s = .next (s.threadFault s.curModule s.curThread 0x0C 0)) ∧
    (x ≠ 0 → goes .bnzg t far) ∧ (x = 0 → goes .bnzg t (t.pc + 1)) ∧
    (x ≠ 1 → goes .loopg (t.setG f.a (x - 1)) far) ∧ (x = 1 → goes .loopg (t.setG f.a 0) (t.pc + 1)) ∧
    exec .abortc s = .next (s.threadFault s.curModule s.curThread 0x10 (f.imm.toNat % 2 ^ 16))

/-- R400, R404 to R412: the chunk instructions over the window, the posted operations and the waits that hold at once, each of which ends with 0 in g13;
GATHER reads a member's bytes into the window and DELIVER writes the window's bytes to a member. -/
def Obligations.ChunkDataAndWaits : Prop :=
  ∀ (s : State) (i : Inst) (r : CollReq) (k T : Nat) (g : Nat × Nat),
    let t := s.thr
    let f := s.cf
    let x := s.gA
    let d := s.gA.toNat
    let src := s.gB.toNat
    let n := s.gC.toNat
    let tag := f.fn.setWidth 8
    let c : BitVec 3 := f.imm.setWidth 3
    let goes : Instr → Thread → Prop := fun j u =>
      exec j s = .next (s.setThr { u with pc := t.pc + 1, st := .running, wait := none, got := false, left := [] })
    let met : Thread := t.setG 13 0
    s.thread s.curModule s.curThread = some t →
    (t.fits d n = true → t.fits src n = true → t.hazard d n = false → t.spoiled src n = false →
      goes .chunkCopy (t.put d (t.bytes src n)) ∧
      (∀ l, t.spoiled d n = false → n % chunkSize (f.fn.toNat / 8 % 16) = 0 →
        chunkReduce (f.fn.toNat % 8) (f.fn.toNat / 8 % 16) (t.bytes d n) (t.bytes src n) = some l → goes .reduce (t.put d l))) ∧
    (s.badPeer x = false → t.posted.length < 8 →
      (t.fits src n = true →
        let sent := ({ t with posted := t.posted ++ [.send d tag src n] } : Thread).setG 13 0
        (s.peer t.inst d = none → goes .send sent) ∧
        (∀ m th p, s.peer t.inst d = some (m, th, p) → (m, th) ≠ (s.curModule, s.curThread) → s.thread m th = some p → p.recvs = [] →
          goes .send sent)) ∧
      goes .signal { t with posted := t.posted ++ [.signal d c] }) ∧
    (t.wait.isSome = true → t.got = true → goes .recv met) ∧
    (t.wait = none → s.badPeer x = false → t.fits src n = true → t.hazard src n = false → f.dl = 0 → t.recvs = [] →
      (s.peer t.inst d = none → goes .recv (t.setG 13 4)) ∧
      (∀ m th p, s.peer t.inst d = some (m, th, p) → (m, th) ≠ (s.curModule, s.curThread) → s.thread m th = some p → p.posted = [] →
        goes .recv (t.setG 13 4))) ∧
    (x.toNat ≤ (t.sc[c.toNat]'(c.isLt)).toNat → goes .waitSig met) ∧
    (∀ p, t.slots[c.toNat]'(c.isLt) = some p → p.applied = p.expect → goes .waitArm met) ∧
    (t.posted = [] → goes .fencec met ∧
      (s.instOf t.inst = none → exec .halt s = .next (s.setThr { t with st := .halted, wait := none })) ∧
      (s.instOf t.inst = some i → exec .halt s =
        .next (((s.setThr { t with st := .halted, wait := none }).retryPushes i.ctx).tryDecide i.ctx))) ∧
    (let len := (t.getG (f.fn.setWidth 4)).toNat
     let ty := f.fn.toNat / 128 % 16
     let op := f.fn.toNat / 16 % 8
     let size := chunkSize ty
     let slot : PushSlot :=
       { lo := d, len := len, off := src, op := BitVec.ofNat 3 op, ty := BitVec.ofNat 4 ty, expect := n, placed := 0, applied := 0 }
     let armed : Thread := { t.put src ((List.range (len / size)).flatMap (fun _ => toBytes size (identityOf op ty))) with
       slots := t.slots.set c.toNat (some slot) c.isLt, pc := t.pc + 1, st := .running, wait := none, got := false, left := [] }
     t.fits src len = true → t.hazard src len = false → t.slots[c.toNat]'(c.isLt) = none → d % size = 0 → len % size = 0 →
       n ≠ 0 → s.armed t.inst d len = false →
       (s.instOf t.inst = none → exec .armred s = .next (s.setThr armed)) ∧
       (s.instOf t.inst = some i → (s.ctx i.ctx).pushes = [] →
         exec .armred s = .next ((s.setThr armed).setCtx i.ctx { s.ctx i.ctx with pushes := [] }))) ∧
    (let off := src
     let at_ := n
     let len := (t.getG (f.fn.setWidth 4)).toNat
     let rng := f.fn.toNat / 16 % 4
     let lo := g.1 + at_
     s.instOf t.inst = some i → t.wait.isSome = true → t.left = [k] → f.fn.getLsbD 6 = false → (s.ctx i.ctx).resident = true →
     (s.ctx i.ctx).lull = false → i.member k = some r → (s.ctx i.ctx).tileOf r.vt = some T → (s.cluster (clusterOf T)).lost = false →
     (s.tile T).capture = none → (s.tile T).errs = [] →
       (r.range false rng = some g → goes .gather (t.put off ((s.tile T).bytes lo len) |>.setG 13 0)) ∧
       (r.range true rng = some g → t.spoiled off len = false → ∀ j ∈ [Instr.deliver, .mcast],
         exec j s = .next ((s.setTile T ((s.tile T).writeBytes lo (t.bytes off len))).setThr
           { met with pc := t.pc + 1, st := .running, wait := none, got := false, left := [] })))

/-- R393, R396, R401, R404, R405, R411, R413: the steps of the sequencer: a waiting instruction is tried again, and where its condition holds it completes and the thread goes
on; a deadline that has expired leads to the timeout
handler with 1 in g13 and the slot in g14, or faults; a transfer is written; a signal is counted; a thread starts; a request and an abort token are taken; a push delta is counted at the slot that
covers it and acknowledged, and refused past the expected count or with no instance.
g14 counts slots from the start of the store, the model's reading (log entry 27). -/
def Obligations.SequencerSteps : Prop :=
  ∀ (s : State) (w : ChunkWait) (t p : Thread) (m th n : Nat) (r : RecvRec) (l : List Byte) (c : BitVec 3) (i : Inst) (d : Delta) (q : CollReq),
    let u := s.focusThread
    let own := (s.ev.m, s.ev.th)
    let late := (u.thr.setG 13 1).setG 14 (BitVec.ofNat 64 u.thr.pc)
    let before := ((t.recvsFrom r.rank r.tag).filter (fun i => decide (i < s.ev.i))).length
    let sent : State := { s with net := listDel s.net s.ev.i }
    (u.thr.st = .waiting → u.chunkInstr ∈ [Instr.send, .recv, .waitSig, .waitArm, .gather, .deliver, .mcast, .signal, .halt, .fencec] →
      exec .chunkWaitMet s = exec u.chunkInstr u) ∧
    (u.thr.st = .waiting → u.thr.wait.isSome = true → u.chunkMet = true →
      let on : Thread → Prop := fun x =>
        exec .chunkWaitMet s = .next (u.setThr { x with pc := u.thr.pc + 1, st := .running, wait := none, got := false, left := [] })
      (u.chunkInstr ∈ [Instr.recv, .waitSig, .fencec] → on (u.thr.setG 13 0)) ∧
      (u.chunkInstr = .waitArm → (u.thr.slots.getD (u.cf.imm.toNat % 8) none).isSome = true → on (u.thr.setG 13 0)) ∧
      (u.chunkInstr = .signal → u.badPeer u.gA = false → on { u.thr with posted := u.thr.posted ++ [.signal u.gA.toNat (u.cf.imm.setWidth 3)] }) ∧
      (u.chunkInstr = .halt → u.instOf u.thr.inst = none → exec .chunkWaitMet s = .next (u.setThr { u.thr with st := .halted, wait := none }))) ∧
    (u.thr.wait = some w → u.chunkExpired = true → u.chunkMet = false →
      (w.dl ≠ 0 → u.thr.th ≠ 0 → u.chunkInstr ≠ .recv → exec .chunkWaitExpiry s = .next (u.setThr
        { late with pc := u.thr.base + u.thr.th, st := .running, wait := none, got := false, left := [] })) ∧
      (w.dl ≠ 0 → u.thr.th = 0 → exec .chunkWaitExpiry s = .next (u.threadFault s.ev.m s.ev.th 4 0)) ∧
      (w.dl = 0 → s.ev.ok = true → isXfer u.chunkInstr = false → exec .chunkBoundExpiry s = .next (u.threadFault s.ev.m s.ev.th 4 0))) ∧
    (s.thread s.ev.m s.ev.th = some t → s.peer t.inst r.rank = some (m, th, p) → (m, th) ≠ own → t.st ≠ .stopped → p.st ≠ .stopped →
      s.thread m th = some p → t.recvs[s.ev.i]? = some r → r.data = some l →
      ∃ v, exec .chunkTransferComplete s = .next v ∧
        v.thread s.ev.m s.ev.th = some { t.put r.off l with recvs := listDel t.recvs s.ev.i, got := t.got || !r.ended } ∧
        v.thread m th = some { p with posted := dropSend t.rank r.tag before p.posted }) ∧
    (s.thread s.ev.m s.ev.th = some t → t.posted[s.ev.i]? = some (.signal n c) → t.st ≠ .stopped →
      (s.setThread s.ev.m s.ev.th { t with posted := listDel t.posted s.ev.i }).peer t.inst n = some (m, th, p) →
      exec .signalApply s = .next ((s.setThread s.ev.m s.ev.th { t with posted := listDel t.posted s.ev.i }).setThread m th
        { p with sc := p.sc.set c.toNat (p.sc[c.toNat]'(c.isLt) + 1) c.isLt })) ∧
    (s.instOf s.ev.i = some i → (s.mod s.ev.m).freeThread = some n → i.st = .running → s.ev.m ∈ i.toStart → i.reqs.head? = some q →
      let e := (s.mod s.ev.m).entry i.handle
      let rank := (i.ranks.takeWhile (fun k => k != s.ev.m)).length
      (s.mod s.ev.m).chunksUsed + bitsOf e.w0.toNat 55 48 ≤ 16384 →
      ∃ (v : State) (x : Thread), exec .threadStart s = .next v ∧ v.thread s.ev.m n = some x ∧ x.inst = i.id ∧ x.rank = rank ∧
        x.pc = bitsOf e.w0.toNat 16 0 ∧ x.nbuf = bitsOf e.w0.toNat 55 48 ∧ x.win = [] ∧ x.dts = q.dts ∧ x.st = .running ∧
        x.getG 8 = BitVec.ofNat 64 rank ∧ x.getG 9 = BitVec.ofNat 64 i.ranks.length ∧ x.getG 10 = BitVec.ofNat 64 i.reqs.length ∧
        (∀ j : BitVec 4, j.toNat < cdNarg q.desc → j.toNat < 8 → x.getG j = BitVec.ofNat 64 (pbWord q.pblk j.toNat)) ∧
        ∀ e ∈ v.insts, e.id = i.id → s.ev.m ∉ e.toStart) ∧
    (∀ g desc pb dts dla tok, s.net[s.ev.i]? = some (.delta d) → d.dest = .axlos m g → d.body = .request desc pb dts dla tok →
      d.current (s.ctx d.ctx).num (s.ctx d.ctx).att = true → (s.mod m).handleOk (cdHandle desc) d.ctx = true →
      let a : CollReq := { vt := d.srcVt, tile := d.srcTile, strand := d.strand, tok := tok, seq := d.seq, desc := desc, pblk := pb, dts := dts, dla := dla }
      exec .collRequestArrival s =
        .next ((sent.setCtx d.ctx { s.ctx d.ctx with reqs := (s.ctx d.ctx).reqs ++ [(d.num, a)] }).send (.ack d))) ∧
    (∀ a op mask data, s.net[s.ev.i]? = some (.delta d) → (∃ g, d.dest = .axlos m g) → d.body = .reduce a op mask data →
      (d.current (s.ctx d.ctx).num (s.ctx d.ctx).att = false → exec .pushDeltaArrival s = .next (sent.send (.ack d))) ∧
      (d.current (s.ctx d.ctx).num (s.ctx d.ctx).att = true → s.insts = [] →
        exec .pushDeltaArrival s = .next (sent.send (.refusal d)))) ∧
    (∀ m g a op mask data (at_ : Nat × Nat × Nat) (v : PushSlot) (x : Thread), s.net[s.ev.i]? = some (.delta d) → d.dest = .axlos m g →
      d.body = .reduce a op mask data → d.current (s.ctx d.ctx).num (s.ctx d.ctx).att = true →
      ((s.slotsOf d.ctx g.toNat).filter (fun q => q.2.2.2.covers (pushExtent a op mask))).find? (fun q => pushAgrees q.2.2.2.op q.2.2.2.ty op) =
        some (at_.1, at_.2.1, at_.2.2, v) →
      SMap.find (s.mod at_.1).threads at_.2.1 = some x →
      (v.expect ≤ v.placed → exec .pushDeltaArrival s = .next (sent.send (.refusal d))) ∧
      (v.placed < v.expect →
        let counted : Thread := { x with slots := setAt x.slots at_.2.2 (some { v with placed := v.placed + 1 }) }
        exec .pushDeltaArrival s = .next (((sent.setMod at_.1 { s.mod at_.1 with threads := SMap.set (s.mod at_.1).threads at_.2.1 counted }).setCtx d.ctx
          { s.ctx d.ctx with pushes := (s.ctx d.ctx).pushes ++ [(d, some at_)] }).send (.ack d)))) ∧
    (∀ c, s.net[s.ev.i]? = some (.abortToken c n) → s.hasCtx c = true →
      exec .abortToken s = .next ((sent.stopInstances c).demandDecision c (.fatal 0x25 n)))

/-- R228, R232, R234, R257, R261, R265: WAIT_MET and WAIT_TIMEOUT try the waiting instruction again, the second with its deadline expired, so that it ends with
TIMEOUT; a stall whose cause is gone lets the unit issue again, and one that has lasted DT7 raises DEADLINE with its SUB and TVAL; the port serves a
block; a PONE record enters its queue, but is discarded when its strand has retired or when the tile has left its superstep or attempt (R263, R265).
That WAIT_TIMEOUT before the deadline leaves the state as it is is the model's choice (log entry 1). -/
def Obligations.WaitEventsEndWaits : Prop :=
  ∀ (s : State) (w : WaitRec) (d : BitVec 6) (l : BitVec 3) (k : BitVec 4) (dead t0 : BitVec 48) (sub : BitVec 8) (tv : Word) (n : BitVec 2)
    (p : PostRec) (t b cy : Nat),
    let u : State := { s with curTile := s.ev.tile, curStrand := BitVec.ofNat 2 s.ev.n }
    let r := u.me
    let awake : Bool → State := fun e => u.setMe { r with st := .run, pfx := w.pfx, wait := some { w with expire := e } }
    (r.st = .wait → r.wait = some w → w.kind = .named l dead → w.instr = .kwait d l k →
      exec .waitMet s = exec (.kwait d l k) (awake false) ∧
      (u.expired u.curTile dead = true → exec .waitTimeout s = exec (.kwait d l k) (awake true)) ∧
      (u.expired u.curTile dead = false → exec .waitTimeout s = .next s) ∧
      ((u.getTok k).st = .pending → r.held = none → r.dlpol = 0 → u.here.unwatched = true → r.touched = [] → r.stepping = false →
        innermost r.lstk = none → u.own = r.pc.toNat → w.pfx = [] → r.pc.toNat + 4 < 0x10000 → u.expired u.curTile dead = true →
        exec .waitTimeout s = .next (((awake true).setWst 1 r.pc.toNat).arriveAt (r.pc.toNat + 4)))) ∧
    (r.st = .wait → r.wait = some w → w.kind = .stall sub tv t0 →
      (u.stallHolds sub tv w.instr = false → exec .waitMet s = .next (u.setMe { r with st := .run, wait := none })) ∧
      (u.stallHolds sub tv w.instr = true → sub ≠ 6 → u.expired u.curTile (t0 + ((r.dt.getD 6 0).setWidth 48)) = true →
        exec .implicitDeadline s =
          .next (((u.setMe { r with st := .run }).takeTrap 0x10 sub tv r.pc.toNat false).afterRetire))) ∧
    (s.net[s.ev.i]? = some (.post t n p) → ((s.strand t n).st = .retired ∨ p.num < (s.tile t).num ∨ (p.num = (s.tile t).num ∧ p.att < (s.tile t).att)) →
      exec .poneRecordArrival s = .next { s with net := listDel s.net s.ev.i }) ∧
    (s.net[s.ev.i]? = some (.post t n p) → (s.strand t n).st ≠ .retired →
      ((s.tile t).num < p.num ∨ (p.num = (s.tile t).num ∧ (s.tile t).att ≤ p.att)) →
      ∃ v : State, exec .poneRecordArrival s = .next v ∧ v.net = listDel s.net s.ev.i ∧
        v.tile t = { s.tile t with posts := (s.tile t).posts.set n.toNat ((s.tile t).posts[n.toNat]'(n.isLt) ++ [p]) n.isLt }) ∧
    (isMgmt s.ev.tile = false → (∀ q ∈ tilesOf (clusterOf s.ev.tile), ∀ j, (s.strand q j).req =
        if q = s.ev.tile ∧ j = n then some (b, cy) else none) →
      ∃ v, exec .fetchBlockServed s = .next v ∧ (v.strand s.ev.tile n).req = none ∧ (v.cluster (clusterOf s.ev.tile)).served = some b ∧
        (b = (s.strand s.ev.tile n).pc.toNat / 32 → b ∈ (v.strand s.ev.tile n).blocks))

/-- R298, R360, R446, R457, R489 to R496, R529: a request that the host has put in a mailbox is served, each kind with its effect and its RESULT (postResult: 0 OK,
1 INVALID, 2 NOCTX, 4 REFUSED, 6 DENIED); a kind that the device does not accept gives INVALID, a context that does not exist NOCTX.
A launch waits while its producer's superstep is open, and fails when there is no such context; a host-sync stamps the writes before it and goes to the root.
That each kind is served in one step, the codes in states that R491 does not name, the KIND byte of RECORD, that a launch whose producer does not exist
fails, and the message that a signature of KEYS or WRITE_SLOT covers are the model's (log entries 8, 15, 45, 49, 54). -/
def Obligations.MailboxRequestsAreServed : Prop :=
  ∀ (s : State) (t c0 : Nat),
    let m := s.ev.m
    let box := s.ev.th
    let md := s.mod m
    let body : Nat → Nat → Nat := fun o n => ofBytes (s.boxBody m box o n)
    let accepted : Nat → Bool := fun k => if md.recovery then k == 8 || k == 10 || k == 11 else decide (1 ≤ k) && decide (k ≤ 9)
    let here : Nat → Bool := fun k => decide (box < 16) && (!md.recovery || box == 0) && s.boxNum m box 2 1 == 1 && md.pending.contains box &&
      s.boxNum m box 0 2 == k
    let asked : Nat → Bool := fun k => here k && accepted k
    let answer : State → Nat → Nat → Host.Outcome State Fault Refusal := fun u code v => .next (u.postResult m box code v)
    let c := body 0 1
    let x := s.ctx c
    (∀ k i, accepted k = false → here k = true →
      i ∈ [Instr.launchRequest, .hostSync, .record, .preempt, .resumeRequest, .teardown, .attest, .keys, .recover, .writeSlot, .reboot] →
      exec i s = answer s 1 0) ∧
    (s.hasCtx c = false → ∀ p ∈ [(Instr.hostSync, 2), (.record, 3), (.preempt, 4), (.resumeRequest, 5), (.teardown, 6)],
      asked p.2 = true → exec p.1 s = answer s 2 0) ∧
    (asked 1 = true →
      let q := s.launchReq m box
      let seq := s.boxNum m box 4 4
      let launched : State → Nat → Nat → Host.Outcome State Fault Refusal := fun u code v =>
        let w := u.postResult m box code v
        .next (w.setMod m { w.mod m with deps := (w.mod m).deps.filter (fun d => d.box != box) })
      let after := blockNum q.body 72 1
      (q.bad = true → exec .launchRequest s = launched s 1 0) ∧
      (q.bad = false → (s.ev.ok = false ∨ q.denied = true) → exec .launchRequest s = launched s 6 0) ∧
      (q.bad = false → s.ev.ok = true → q.denied = false →
        (after = 255 → (s.dependency m box q).2 = .met) ∧
        (after ≠ 255 → md.deps.find? (fun d => d.box == box) = none → s.hasCtx after = true → blockNum q.body 80 8 < (s.ctx after).num →
          (s.dependency m box q).2 = .met) ∧
        (after ≠ 255 → md.deps.find? (fun d => d.box == box) = none → s.hasCtx after = false → (s.dependency m box q).2 = .failed) ∧
        ∀ u : State,
          (s.dependency m box q = (u, .failed) → exec .launchRequest s = launched (u.notice m 4 255 seq seq) 5 0) ∧
          (s.dependency m box q = (u, .open_) → exec .launchRequest s = .next u) ∧
          (s.dependency m box q = (u, .met) → u.freeCtx = some c0 → u.launchReady q u.ev.nums = true →
            (u.launchCtx m c0 seq q u.ev.nums).2 = true →
            exec .launchRequest s = launched (u.launchCtx m c0 seq q u.ev.nums).1 0 c0))) ∧
    (asked 2 = true → s.hasCtx c = true → (m, box) ∉ x.syncBox → (m, box) ∉ x.syncNow → s.syncInFlight c m box = false →
      let mine : HostWrite → HostWrite := fun w => { w with syncs := w.syncs ++ [(m, box)] }
      (x.hostLog = [] → s.net = [] → x.syncNow = [] → exec .hostSync s = answer ((s.setCtx c { x with syncNow := [(m, box)] }).setCtx c { x with syncNow := [] }) 0 0) ∧
      (x.hostLog ≠ [] → exec .hostSync s = .next ((s.setCtx c { x with hostLog := x.hostLog.map mine }).send (.sync c m box)))) ∧
    (asked 3 = true → s.hasCtx c = true →
      let q := BitVec.ofNat 2 (body 8 1)
      let len := body 16 2
      let kind := body 9 1
      let rec_ := recordBytes len kind 1 (body 12 4) 0 0 (s.boxBody m box 64 len)
      let y := s.tile t
      ((x.tiles ≤ body 4 4 ∨ 3 < body 8 1 ∨ 2048 < len ∨ 1 < kind ∨ (kind = 1 ∧ len ≠ 0)) → exec .record s = answer s 1 0) ∧
      (body 4 4 < x.tiles → body 8 1 ≤ 3 → len ≤ 2048 → (kind = 0 ∨ kind = 1 ∧ len = 0) → x.tileOf (body 4 4) = some t → x.resident = true → s.ctxOf t = some c →
        (s.cluster (clusterOf t)).lost = false → (s.cluster (clusterOf t)).gone = false → y.ringExists false q = true → rec_.length ≤ qSize (y.qcfgAt q) →
        (y.appendRecord q rec_).spillUsed ≤ 262144 → exec .record s = answer (s.setTile t (y.appendRecord q rec_)) 0 0)) ∧
    (asked 4 = true → s.hasCtx c = true → x.resident = true → x.preBox = none → x.tear = none → x.held = false →
      exec .preempt s = .next (s.setCtx c { x with preBox := some (m, box), preempt := some (x.clock + BitVec.ofNat 48 x.plim) })) ∧
    (asked 5 = true → s.hasCtx c = true → x.tear = none →
      (x.held = false → exec .resumeRequest s = answer s 4 0) ∧
      (x.held = true → x.fatal = false → x.resident = true → x.irrev = false → s.missesTile c = false →
        exec .resumeRequest s = answer (s.resumeCtx c x.num).1 (if (s.resumeCtx c x.num).2 = 0 then 0 else 4) 0)) ∧
    (asked 6 = true → s.hasCtx c = true → x.tear = none → x.preBox = none →
      let u := s.setCtx c { x with tear := some (m, box) }
      exec .teardown s = .next (if x.runs then u.demandDecision c .force else u.parkAll c)) ∧
    (asked 7 = true →
      let w := body 32 1
      (w ≠ 255 → s.hasCtx w = false → exec .attest s = answer s 2 0) ∧
      ((w = 255 ∨ s.hasCtx w = true) → ∃ report : List Byte, report.length = 256 ∧ report.take 32 = s.boxBody m box 0 32 ∧
        (report.drop 32).take 64 = toBytes 64 md.m2.toNat ∧
        exec .attest s = answer (s.setMod m { md with mbox := Memory.writeBytes md.mbox (4096 * box + 64) report }) 0 0)) ∧
    (asked 8 = true →
      let b := s.boxBody m box 0 40
      let key := blockNum b 0 32
      let signed := md.verifies (Config.sha512 (toBytes 32 (Config.identityKey m).toNat ++ b)) (BitVec.ofNat 512 (ofBytes (s.boxBody m box 64 64)))
      (blockNum b 36 4 ≠ md.enrol.toNat + 1 → exec .keys s = answer s 6 0) ∧
      (blockNum b 36 4 = md.enrol.toNat + 1 → exec .keys s = if signed then answer (s.setMod m { md with
        ownerKey := if key = 0 then none else some (BitVec.ofNat 256 key), enrol := md.enrol + 1, exclusive := key != 0 && blockNum b 32 1 != 0 }) 0 0
        else answer s 6 0)) ∧
    (asked 9 = true →
      (s.ctxs ≠ [] → exec .recover s = answer s 6 0) ∧
      (s.ctxs = [] → ∃ u : State, exec .recover s = .next u ∧ (u.mod m).recovery = true ∧ (u.mod m).threads = [] ∧ (u.mod m).mem = md.mem ∧
        (u.mod m).flashA = md.flashA ∧ (u.mod m).flashB = md.flashB ∧ (u.mod m).ownerKey = md.ownerKey ∧ (u.mod m).floor = md.floor)) ∧
    (asked 10 = true →
      let image := Memory.bytes md.staging (body 8 8) (body 16 4)
      ((1 < body 0 1 ∨ 2 ^ 36 < body 8 8 + body 16 4) → exec .writeSlot s = answer s 1 0) ∧
      (body 0 1 ≤ 1 → body 8 8 + body 16 4 ≤ 2 ^ 36 → exec .writeSlot s = if md.slotValid image then answer (s.setMod m
        (if body 0 1 = 0 then { md with flashA := image } else { md with flashB := image })) 0 0 else answer s 1 0)) ∧
    (asked 11 = true → exec .reboot s = .next (s.resetModule m md.strap))

/-- R358, R359, R447, R449, R450, R479, R489: a host access reaches what R489 maps at its address, or is refused, counted and answered with all ones and an
unsupported request; a logged write enters the log; an event enters its ring when there is room; the pre-emption limit forces an abort; Lull's report is
passed on, or a restore, a migration or a save begins.
The places of the attach registers and the module that serves a window are the model's (log entries 32, 40), and so are when Lull reports and the supervisor
acts, and on which clusters (log entries 15, 22). -/
def Obligations.HostAccessesAndSupervision : Prop :=
  ∀ (s : State) (e : Event) (rest : List Event) (u : State) (dead : BitVec 48),
    let m := s.ev.m
    let md := s.mod m
    let a := s.ev.value.toNat
    let n := s.ev.i
    let l := s.ev.bytes
    let c := s.ev.i
    let x := s.ctx c
    let begun : State := s.setMod m { md with unsupported := false }
    let refused : State := begun.setMod m { md with href := sat32 md.href, unsupported := true }
    let hits : Prop := ∃ b, a / 4096 ≤ b ∧ b ≤ (a + l.length - 1) / 4096 ∧ Memory.read md.mbox (4096 * b + 2) = 1
    let reads : State → List Byte → Prop := fun t v => exec .hostRead s = .next (t.setMod m { t.mod m with answer := v })
    (0 < n →
      (a + n ≤ 0x10000 → md.recovery = false → reads begun (Memory.bytes md.mbox a n)) ∧
      (2 ^ 40 ≤ a → a + n ≤ 2 ^ 40 + 2 ^ 36 → reads begun (Memory.bytes md.staging (a - 2 ^ 40) n)) ∧
      (0x11000 + 32768 ≤ a → a < 0x100000 → reads refused (List.replicate n 0xFF)) ∧
      (md.recovery = false → ∀ p r, ptidExists p = true → r < 512 → n = 8 → a = 0x100000 + 4096 * p + 8 * r →
        reads begun (toBytes 8 (begun.readDebug (2 ^ 18 * m + p) (512 + r)).toNat))) ∧
    (l ≠ [] → a + l.length ≤ 0x10000 → md.recovery = false →
      (hits → exec .hostWrite s = .next refused) ∧
      (¬ hits → exec .hostWrite s = .next (begun.setMod m { md with mbox := Memory.writeBytes md.mbox a l, unsupported := false }))) ∧
    (∀ k va, l ≠ [] → begun.hostPlace m a l.length = .window k va → begun.windowOpen k va l.length = true →
      (s.ctx k).logUsed + l.length ≤ (s.ctx k).logSize * 2 ^ 20 →
      exec .hostWrite s = .next (begun.setCtx k { s.ctx k with hostLog := (s.ctx k).hostLog ++ [{ va := va, data := l, synced := false, syncs := [] }] })) ∧
    (md.events = e :: rest → s.deliverEvent m e = some u → exec .eventDelivery s = .next (u.setMod m { u.mod m with events := rest })) ∧
    (x.preempt = some dead → x.runs = true → x.running = true → x.decided = none → x.demand = none → expiredAt x.clock dead = true →
      exec .plimExpiry s = .next (s.demandDecision c .force)) ∧
    (x.tearOps = none → s.quiet c = false → ∀ ks, s.ev.nums = 1 :: ks → x.started = true → x.tear = none → s.restoreDue c = true →
      exec .lullReport s = .next (s.parkAll c)) ∧
    (s.quiet c = true → x.tearOps = none →
      (x.tear.isSome = true → exec .lullReport s = .next (s.tearApart c)) ∧
      (x.tear = none → s.ev.nums = [] →
        (s.awayDue c = true → exec .lullReport s = .next (s.putAway c)) ∧
        (s.awayDue c = false → x.lull = false → exec .lullReport s = .next (s.reportLull c))) ∧
      (x.held = true → x.fatal = false → x.resident = true → s.cannotResume c = false →
        (x.preBox.isSome = true ∧ x.limit = none ∨ (s.toMigrate c).isSome = true ∧ ∀ e ∈ s.clusters, s.clusterFree x.owner e.1 = false) →
        s.awayDue c = true) ∧
      (∀ ks, x.tear = none → s.ev.nums = 1 :: ks → x.started = true → s.restoreDue c = true → s.clustersFit c ks = true → s.keepsModules c ks = true →
        exec .lullReport s = .next (s.restoreCtx c ks)) ∧
      (∀ k ks v, x.tear = none → s.ev.nums = 2 :: k :: ks → s.toMigrate c = some v → x.held = true → x.fatal = false → x.resident = true →
        s.restoreDue c = false → s.clusterFree x.owner k = true → exec .lullReport s = .next (s.migrateCtx c v k)))

/-- R429 to R439, R497, R498: a scrub that has done its work leaves its cluster as R20 has it and lifts the quarantine, unless the
cluster is lost; pages are zeroed one by one or together; a stopped scrub begins again; the background scrub corrects and counts a soft error and reports a hard
one; error windows end on the clock; a link fails at the ninth failure of a flit, or when lane lock has been lost for 64 ticks, and the tiles of a context in a
module whose tree has had no route for 1,000,000 ticks are parked as FATAL.
That a scrub of a cluster or a page does its work in one step, the failure that takes a link down, and an event before its time leaving the state as it is
(the end of an error window, the time-out of a tree's route) are the model's (log entries 1, 21, 35). -/
def Obligations.ScrubsErrorsAndLinks : Prop :=
  ∀ (s : State) (o : ScrubOp) (k since : Nat),
    let m := s.ev.m
    let i := s.ev.i
    let md := s.mod m
    let t := s.ev.tile
    let x := s.tile t
    let link := md.link s.ev.th
    let setLink : Link → State := fun l => s.setMod m { md with links := SMap.set md.links s.ev.th l }
    (md.scrubs[i]? = some o → o.stopped = false → s.ctxs = [] → s.ev.nums = [] → o.cluster = some k →
      ∃ v, exec .scrubComplete s = .next v ∧ (v.cluster k).quar = (s.cluster k).lost ∧ (v.cluster k).owner = 0 ∧ (v.cluster k).store = [] ∧
        (v.cluster k).clim = 0 ∧ (v.mod m).scrubs = listDel md.scrubs i ∧ ∀ u ∈ tilesOf k, v.tile u = (s.tile u).wiped) ∧
    (∀ p, md.scrubs[i]? = some o → o.stopped = false → o.cluster = none → s.ev.nums = [p] → o.page ≤ p → p < o.page + o.pages → p ∉ o.done →
      ∃ v, exec .scrubComplete s = .next v ∧ (v.mod m).scrubs = listSet md.scrubs i { o with done := o.done ++ [p] } ∧
        ∀ j, Memory.read (v.mod m).mem j = if 65536 * p ≤ j ∧ j < 65536 * (p + 1) then 0 else Memory.read md.mem j) ∧
    (md.scrubs[i]? = some o → o.stopped = false → s.ctxs = [] → s.ev.nums = [] → o.cluster = none →
      ∃ v, exec .scrubComplete s = .next v ∧ (v.mod m).scrubs = listDel md.scrubs i ∧ ∀ j, Memory.read (v.mod m).mem j =
        if 65536 * o.page ≤ j ∧ j < 65536 * (o.page + o.pages) then 0 else Memory.read md.mem j) ∧
    (md.scrubs[i]? = some o → o.stopped = true → s.scrubReady m o = true →
      exec .scrubRestart s = .next (s.setMod m { md with scrubs := listSet md.scrubs i { o with stopped := false, done := [] } })) ∧
    (let place := scrubPlace s.ev.th i
     s.ev.th ≠ 4 →
      (x.errs.any (fun e => e.loc == place) = false → exec .scrubLine s = .next s) ∧
      (x.errs.any (fun e => e.loc == place && e.hard) = true → exec .scrubLine s = .next (s.scrubFinds t place)) ∧
      (x.errs.any (fun e => e.loc == place && e.hard) = false → x.errs.any (fun e => e.loc == place) = true →
        exec .scrubLine s = .next ((s.setTile t { x with errs := x.errs.filter (fun e => e.loc != place) }).countError t 0x30 place.bank))) ∧
    (let win := x.ewin.toNat % 2 ^ 48
     let now := s.refTick (modOf t)
     (now < x.winAt + win → exec .errorWindowEnd s = .next (s.setTile t x)) ∧
     (0 < win → x.winAt + win ≤ now → ∃ v n, exec .errorWindowEnd s = .next v ∧ (v.tile t).winAt = x.winAt + n * win ∧
       (v.tile t).winAt ≤ now ∧ now < (v.tile t).winAt + win ∧
       (v.tile t).ecnt.toNat = x.ecnt.toNat - x.ecnt.toNat % 2 ^ 16)) ∧
    (link.down = false →
      (s.ev.ok = false → exec .linkCrcFailure s = .next (setLink { link with crc := link.crc + 1, replays := 0 })) ∧
      (s.ev.ok = true → link.replays < 8 → exec .linkCrcFailure s = .next (setLink { link with replays := link.replays + 1 })) ∧
      (s.ev.ok = true → 8 ≤ link.replays → exec .linkCrcFailure s = .next (s.failLink m s.ev.th)) ∧
      (link.unlocked = some since → since + 64 ≤ s.refTick m → exec .linkLockLoss s = .next (s.failLink m s.ev.th))) ∧
    (link.unlocked = none → exec .laneLockLost s = .next (setLink { link with unlocked := some (s.refTick m) })) ∧
    exec .laneLockRegained s = .next ((setLink { link with unlocked := none, down := false }).healCuts s.ev.th) ∧
    (SMap.find (s.ctx i).cut m = some since →
      (s.refTick m < since + 1000000 → exec .treeRouteTimeout s = .next s) ∧
      ((s.ctx i).runs = true → since + 1000000 ≤ s.refTick m → ∃ v, exec .treeRouteTimeout s = .next v ∧ (v.ctx i).fatal = true ∧
        (v.ctx i).running = false ∧ (∀ q, modOf q ≠ m → v.tile q = s.tile q) ∧
        (∀ q ∈ s.ctxTiles i, modOf q = m → (s.ctx i).started = true → ∀ n, ((v.tile q).strand n).st = .park ∨ ((v.tile q).strand n).st = .retired) ∧
        ∀ g ∈ v.net, g ∈ s.net ∧ (match g.edge with | some e => e.1 ≠ i | none => True)))

/-- R480, R493, R499, R524 to R533: module reset and boot, self-test and training, and the islands: throttling, recovery, shutdown and loss, low coolant flow and
its end, ISLCTL, and the end of a transition, which powers an island's clusters or takes their tiles' state.
What the firmware does of itself, what a module reset keeps and clears, and that an event of a temperature below its threshold only keeps the temperature are the
model's (log entries 1, 3, 15, 17). -/
def Obligations.PowerAndBringup : Prop :=
  ∀ (s : State),
    let m := s.ev.m
    let i := s.ev.th
    let md := s.mod m
    let x := md.island i
    let temp := s.ev.value.toNat % 256
    let warm : Island := { x with temp := BitVec.ofNat 8 temp }
    let heat : Island := { warm with hot := true }
    let bound := (if x.busy then x.target else x.op).toNat
    let set_ : Island → State := fun y => s.setMod m { md with islands := SMap.set md.islands i y }
    let stack := s.stackAt m i
    exec .moduleReset s = .next (s.resetModule m (!s.ev.ok)) ∧
    (let r := (s.clearModule m).mod m
     r.phase = 1 ∧ r.mem = md.mem ∧ r.flashA = md.flashA ∧ r.flashB = md.flashB ∧ r.ownerKey = md.ownerKey ∧ r.floor = md.floor ∧ r.keys = [] ∧
       r.threads = [] ∧ r.evt = 0 ∧ r.events = [] ∧ r.mbox = []) ∧
    (x.op ≠ 7 → exec .islandPowerLoss s = .next (s.islandDown m i)) ∧
    (105 ≤ temp → 0 < x.op.toNat → x.op.toNat ≤ bound → bound ≤ 3 →
      ∃ v, exec .thermalThrottle s = .next v ∧ (v.mod m).island i = { heat with target := x.op - 1, busy := true }) ∧
    (105 ≤ temp → x.op.toNat ≤ 3 → (bound < x.op.toNat ∨ bound = 0) → exec .thermalThrottle s = .next (set_ heat)) ∧
    (temp < 105 → exec .thermalThrottle s = .next (set_ warm)) ∧
    (temp < 95 → x.busy = false → x.op.toNat < x.req.toNat → x.req.toNat ≤ 3 → md.lowFlow = false → md.reduced = false →
      exec .thermalRecover s = .next (set_ { warm with target := x.op + 1, busy := true, hot := x.hot && decide (x.op.toNat + 1 < x.req.toNat) })) ∧
    (95 ≤ temp → exec .thermalRecover s = .next (set_ warm)) ∧
    (115 ≤ temp → x.op = 0 → exec .thermalShutdown s = .next ((set_ warm).islandDown m i)) ∧
    (temp < 115 → exec .thermalShutdown s = .next (set_ warm)) ∧
    (∃ v, exec .lowCoolantFlow s = .next v ∧ (v.mod m).lowFlow = true ∧ v.tiles = s.tiles ∧
      (x.target ≠ 7 → x.op ≠ 0 ∨ x.busy = true → (SMap.find md.islands i).isSome = true →
        ((v.mod m).island i).target = 0 ∧ (((v.mod m).island i).busy = (x.busy || x.op != 0)))) ∧
    (md.lowFlow = true → ∃ v, exec .coolantFlowRestored s = .next v ∧ (v.mod m).lowFlow = false ∧
      (x.target ≠ 7 → x.req.toNat ≤ 3 → (SMap.find md.islands i).isSome = true →
        ((v.mod m).island i).target = if md.reduced then 0 else if x.hot ∧ x.level < x.req then x.level else x.req)) ∧
    (let w := s.ev.value
     let j := bitsOf w.toNat 55 48
     let req := BitVec.ofNat 3 (bitsOf w.toNat 34 32)
     let y := md.island j
     let refused : State := s.setMod m { md with islFail := true }
     let put : Island → State := fun z => s.setMod m { md with islSel := BitVec.ofNat 8 j, islFail := false, islands := SMap.set md.islands j z }
     (4 ≤ req.toNat → req ≠ 7 → exec .islctlWrite s = .next refused) ∧
     (req = 7 → exec .islctlWrite s = .next (if s.islandBound m j then refused
       else put { y with req := 7, target := 7, busy := y.busy || y.op != 7 })) ∧
     (req.toNat ≤ 3 → md.lowFlow = false → md.reduced = false → y.hot = false → exec .islctlWrite s =
       .next (put { y with req := req, target := req, busy := y.busy || req != y.op })) ∧
     (req.toNat ≤ 3 → (md.lowFlow = true ∨ md.reduced = true) → exec .islctlWrite s =
       .next (put { y with req := req, target := 0, busy := y.busy || y.op != 0 }))) ∧
    exec .hrefWrite s = .next (s.setMod m { md with href := md.href &&& ~~~(s.ev.value.setWidth 32) }) ∧
    (x.busy = true → ∃ v, exec .islandTransitionDone s = .next v ∧ (v.mod m).island i = { x with op := x.target, busy := false } ∧
      (∀ k ∈ islandClusters m i,
        (x.target ≠ 7 → x.op = 7 → (v.cluster k).powered = true ∧ (v.cluster k).lost = false) ∧
        (x.target = 7 → (v.cluster k).powered = false ∧ (v.cluster k).clim = 0))) ∧
    (s.ev.nums = [] → 3 ≤ md.phase → x.op ≠ 7 → x.busy = false → ∃ v, exec .selfTestComplete s = .next v ∧ ((v.mod m).island i).tested = true ∧
      ∀ k ∈ islandClusters m i, (v.cluster k).released = !(s.cluster k).quar ∧ (v.cluster k).failed = false) ∧
    ((md.phase < 3 ∨ x.op = 7 ∨ x.busy = true) → exec .selfTestComplete s = .next s) ∧
    (i < 32 → stack.trained = false → stack.failed = false →
      ∃ v, exec .stackTrainingDone s = .next v ∧ (v.stackAt m i).trained = s.ev.ok ∧ (v.stackAt m i).failed = !s.ev.ok)

/-- R225, R228, R504 to R518: the debug port of a tile that is not protected: halt, resume and step, reads and writes of a halted tile, waits for a token, and the
writes of its registers; a context's clock stops; RAISED follows its egress queue.
Corners of the accesses are the model's reading (log entry 34). -/
def Obligations.DebugPortSteps : Prop :=
  ∀ (s : State) (dead c : Nat),
    let t := s.ev.tile
    let v := s.ev.value
    let x := s.tile t
    let d := x.dbg
    let setD : Debug → State := fun e => s.setTile t { x with dbg := e }
    let fields : Debug := { d with xin := v.getLsbD 17, xout := v.getLsbD 16, en := v.getLsbD 3 }
    let comm : Word := BitVec.ofNat 64 (v.toNat - bitsOf v.toNat 53 48 * 2 ^ 48 + bitsOf d.dacc.toNat 53 50 * 2 ^ 50)
    let cmd : Debug := { d with dacc := comm }
    (isMgmt t = false → s.hiddenTile t = false →
      (x.stopped = false → ∃ u, exec .dctlHalt s = .next u ∧ (u.tile t).dbg.halted = true ∧ (u.tile t).dbg.hr = 1 ∧
        (∀ n, ((u.tile t).strand n).st = .halt) ∧ (u.tile t).mem = x.mem) ∧
      (d.halted = false → exec .dctlResume s = .next (setD fields)) ∧
      (d.halted = true → d.decision = none → d.withheld = [] →
        ∃ u, exec .dctlResume s = .next u ∧ (u.tile t).dbg.halted = false ∧
          ∀ n, (x.strand n).st = .halt → ((u.tile t).strand n).st = (x.strand n).before.getD .run) ∧
      (d.halted = true → ∀ n : BitVec 2, (x.strand n).st = .halt → (x.strand n).before = some .run →
        bitsOf v.toNat 15 12 = 2 ^ n.toNat →
        ∃ u, exec .dctlStep s = .next u ∧ ((u.tile t).strand n).st = .run ∧ ((u.tile t).strand n).stepping = true ∧
          (u.tile t).dbg.halted = true ∧ ∀ j, j ≠ n → (u.tile t).strand j = x.strand j) ∧
      exec .dropdWrite s = .next (setD { d with skip := d.skip &&& ~~~(BitVec.ofNat 32 (v.toNat / 2 ^ 32)), stale := d.stale &&& ~~~(v.setWidth 32) }) ∧
      (d.btCtl.getLsbD 0 = false → exec .btctlWrite s = .next (setD { d with btCtl := (v.setWidth 8 &&& 0xF3) ||| (d.btCtl &&& 4) })) ∧
      (t % 16384 = 0 → ∃ w : Word, w.toNat % 4 = v.toNat % 2 ∧
        exec .itctlWrite s = .next ((s.setDie (dieOf t) { s.die (dieOf t) with itctl := w, itcount := 0, itcycles := 0, itleft := none }).setCluster
          (tracedCluster (dieOf t) w) { s.cluster (tracedCluster (dieOf t) w) with served := none })) ∧
      (s.ev.i = 576 → exec .registerWrite s = .next (setD fields)) ∧
      (s.ev.i = 578 → exec .registerWrite s = .next (setD { d with ddata := v })) ∧
      (∀ j < 16, s.ev.i = 580 + j → exec .registerWrite s = .next (setD { d with ibp := setAt d.ibp j (v &&& 0x800000000000FFFC) })) ∧
      (d.halted = true → let read := (s.setTile t { x with dbg := cmd }).accessRead t v
        (∀ w, read = some w → exec .daccRead s = .next (setD { cmd.endAccess 0 with ddata := w })) ∧
        (read = none → exec .daccRead s = .next (setD (cmd.endAccess 2)))) ∧
      (d.halted = false → exec .daccRead s = .next (setD (cmd.endAccess 1)) ∧ exec .daccWrite s = .next (setD (cmd.endAccess 1))) ∧
      (d.halted = true → daFile v = 0 → 0 < daIndex v → daIndex v < 64 → ∃ u, exec .daccWrite s = .next u ∧
        (∀ n, (u.tile t).strand n = if n = daStrand v then { x.strand n with s := setAt (x.strand n).s (daIndex v) d.ddata } else x.strand n) ∧
        (u.tile t).mem = x.mem) ∧
      (daIndex v < 16 → s.ev.ok = true →
        let k := (x.strand (daStrand v)).tok (BitVec.ofNat 4 (daIndex v))
        (k.st = .pending → exec .daccWaitToken s = .next (setD { cmd with tokUntil := some (s.refTick (modOf t) + daArg v) })) ∧
        (k.st ≠ .pending → exec .daccWaitToken s = .next (setD { cmd.endAccess 0 with ddata := k.debugWord })))) ∧
    (d.tokUntil = some dead → dead ≤ s.refTick (modOf t) → exec .daccWaitTimeout s =
      .next (setD { d.endAccess (if x.waitedToken.st = .pending then 4 else 0) with ddata := x.waitedToken.debugWord })) ∧
    (∀ q, s.net[s.ev.i]? = some (.haltRequest q c) →
      let u : State := { s with net := listDel s.net s.ev.i }
      exec .haltRequest s = .next (if s.ctxOf q = some c ∧ (s.tile q).dbg.xin ∧ !(s.tile q).dbg.halted then u.haltTile q 6 else u)) ∧
    ((s.die s.ev.i).itleft = some 0 →
      exec .issueTraceStop s = .next (s.setDie s.ev.i { s.die s.ev.i with itctl := (s.die s.ev.i).itctl ||| 2 })) ∧
    (s.ev.i = c → s.hasCtx c = true →
      (s.clockMayRun c = false → exec .contextClockStop s = .next (s.setCtx c { s.ctx c with running := false })) ∧
      (∃ u, exec .egressQueueChange s = .next u ∧
        let held := if s.leaves c s.ev.m then v.toNat else 0
        SMap.get 0 (u.ctx c).egress s.ev.m = held ∧
        ∀ q ∈ s.ctxTiles c, modOf q = s.ev.m → ∀ n,
          ((u.tile q).strand n).raised = decide (held < (s.ctx c).lowWater.toNat * 1024)))

/-- R15, R20: at reset every scalar, vector and descriptor register reads as 0 and every predicate as 0 but p0, every token is CLEAR with status 0,
every byte of local memory reads as 0, every tag is empty and every descriptor 0x0000; R23 gives DT7, R420 TPOL and R236 DLPOL. Every memory has its
canonical form (the model's own, log entry 3). -/
def Obligations.ResetRegistersAndMemories : Prop :=
  State.reset.memoriesWf = true ∧
  ∀ (t : Nat) (n : BitVec 2),
    let s : State := { State.reset with curTile := t, curStrand := n }
    (∀ r, s.getS r = 0) ∧ (∀ v, s.getV v = 0) ∧ (∀ d, s.getD d = 0) ∧ (∀ p, s.getP p = if p = 0 then BitVec.allOnes 64 else 0) ∧
    (∀ k, (s.getTok k).st = .clear ∧ (s.getTok k).status = 0) ∧
    (∀ a, s.here.byte a = 0 ∧ s.here.full a = false ∧ s.here.bandAt a = 0) ∧
    s.me.st = .idle ∧ s.me.dt = #v[0, 0, 0, 0, 0, 0, 0x100000] ∧ s.me.tpol = 0x260 ∧ s.me.dlpol = 16 ∧ s.me.flg = 0 ∧ s.me.tvec = 0

/-- R45, R65, R223, R422: the turn of a strand passes one cycle and, when the strand is in RUN and holds its unit, executes the unit's prefixes and its
instruction (execUnit; afterIssue keeps the ages and the issue trace). Where the words at the pc, with no prefix, decode to i, that is the exec of i. A strand
that is not in RUN does nothing. The turn is the same whether or not the unit's local stores are performed late (R348).
That a turn takes one cycle is the model's choice (log entries 1, 11). -/
def Obligations.StepRunsDecodedUnit : Prop :=
  ∀ (s : State) (t : Nat) (n : BitVec 2) (late : Bool) (rest : List Turn), s.agenda = (if late then .late t n else .strand t n) :: rest →
    let u : State := { ({ s with agenda := rest } : State).advance 1 with curTile := t, curStrand := n, trapped := none, late := late }
    let v := u.setMe { u.me with pfx := [], touched := [], stepAt := u.me.pc }
    let k := u.cluster (clusterOf t)
    let pc := u.me.pc.toNat
    (u.me.st ≠ .run → step s = .next (u.traceCycle none)) ∧
    (u.me.st = .run → u.tileStill t = false → v.unitHeld = true → ∀ ps i,
      let w := v.prefetch.correctStore
      w.nextUnit = .ok (ps, i) → step s = match execUnit ps i w with
        | .next x => .next (w.afterIssue x i)
        | o => o) ∧
    (u.me.st = .run → u.tileStill t = false → u.me.badEntry = none → k.errs = [] → u.here.errs = [] → u.breakpoint = false →
      u.me.blocks.contains (pc / 32) = true → isPrefixWord (k.word pc) = false → pc < k.clim.toNat →
      ((k.word pc).toNat / 2 ^ 30 = 3 → pc % 8 = 0 ∧ pc + 4 < k.clim.toNat) → ∀ i, decodeWords (k.word pc) (k.word (pc + 4)) = .ok i →
      v.prefetch.encodingOf i = none → i.wf = true ∧
        step s = match exec i v.prefetch with
          | .next x => .next (v.prefetch.afterIssue x i)
          | o => o)

/-- Words written out from the encodings of R125, R126, R132, R133, R246, R249, R251, R252, R309, R521 (the spec's own examples, and AMO and the 64-bit pairs LDI, LDIH,
BEXT and AMOCAS) decode to their instructions; a word of an unassigned OP or fn does not decode, and one with a reserved bit set, in it or in its payload, is refused as such. -/
def Obligations.WordsDecodeAsTheSpecGivesThem : Prop :=
  decodeWords 0x4DC00C00 0 = .ok (.setdl 3) ∧ decodeWords 0x4E090000 0 = .ok (.now 9) ∧ decodeWords 0x54145400 0 = .ok (.profrd 20 21) ∧
  decodeWords 0x4E431081 0 = .ok (.cbar 3 4 1 0 1) ∧ decodeWords 0x27945480 0 = .ok (.ldfe 20 21 1) ∧
  decodeWords 0x0AC1FFFF 0 = .ok (.bws 1 0xFFFF) ∧ decodeWords 0x1F000000 0 = .error .unassigned ∧ decodeWords 0x4DC00C01 0 = .error .reserved ∧
  decodeWords 0x07545520 0 = .ok (.amoadd32 20 21 18) ∧ decodeWords 0x0754552E 0 = .ok (.amoswp64 20 21 18) ∧
  decodeWords 0x07545527 0 = .error .unassigned ∧ decodeWords 0xC0030000 0 = .ok (.ldi 3 0) ∧ decodeWords 0xC0430000 1 = .ok (.ldih 3 1) ∧
  decodeWords 0xC0945400 0xC8 = .ok (.bext 20 21 8 3) ∧ decodeWords 0xC1D45520 5 = .ok (.amocas 20 21 18 0 5) ∧
  decodeWords 0xC1D45520 0x45 = .error .payload

/-- R43 to R64, R399, R402: decoding the encoding of a well-formed strand instruction, with either T bit, gives the instruction back, with every operand;
and a word, or a slot of a chunk program, that decodes is the encoding of what it decodes to: no bit of it is dropped. -/
def Obligations.DecodeAndEncodeAgree : Prop :=
  (∀ (t : Bool) (i : Instr), i.wf = true → i.kind ≠ .chunk → i.kind ≠ .event →
    ∃ w r, encode t i = w :: r ∧ r.length = (if i.isPair then 1 else 0) ∧ w.getLsbD 29 = t ∧ ∀ p, decodeWords w (r.headD p) = .ok i) ∧
  (∀ (w p : BitVec 32) (i : Instr), decodeWords w p = .ok i → i.wf = true ∧ encode (w.getLsbD 29) i = if i.isPair then [w, p] else [w]) ∧
  (∀ (w : BitVec 64) (i : Instr), decodeChunk w = .ok i → i.kind = .chunk ∧ encodeChunk (chunkFields w) i = some w)

/-- The canonical form of the memories (log entry 3) is an invariant of every step, whoever moves. -/
def Obligations.StepKeepsMemoryForm : Prop :=
  ∀ s t : State, s.memoriesWf = true → step s = .next t → t.memoriesWf = true

/-- R13, R17, R32: the frame of the instructions that write one scalar register: no other scalar register, no vector, predicate, token, descriptor,
accumulator, flag or control register, no other strand, no byte of any memory, and nothing of the modules, contexts and messages changes. -/
def Obligations.RegisterInstructionsFrame : Prop :=
  ∀ (s t : State) (d a b lo w : BitVec 6) (i : BitVec 10) (j : BitVec 16) (h : BitVec 3) (k : BitVec 32),
    ∀ q ∈ ([.add d a b, .sub d a b, .and d a b, .or d a b, .xor d a b, .andn d a b, .shl d a b, .shr d a b, .sra d a b, .rol d a b, .min d a b,
        .max d a b, .minn d a b, .maxn d a b, .adds d a b, .subs d a b, .mul d a b, .mulh d a b, .mulhn d a b, .clz d a, .ctz d a,
        .popc d a, .brev d a] : List Instr) ++
        ([.seq d a b, .sne d a b, .slt d a b, .sge d a b, .sltn d a b, .sgen d a b, .cmov d a b, .addi d a i, .andi d a i, .ori d a i,
        .xori d a i, .shli d a b, .shri d a b, .srai d a b, .muli d a i, .slti d a i, .sltni d a i, .lea d a b h, .ldk d j, .ldi d k,
        .ldih d k, .bext d a lo w, .bins d a lo w, .addpc d k, .now d, .pcnt 1 d, .pmovTo 2 d] : List Instr),
      s.plain (wordsOf q) = true → exec q s = .next t →
        (∀ r, r ≠ d → t.getS r = s.getS r) ∧ t.getS 0 = 0 ∧ (∀ r, t.getV r = s.getV r) ∧ (∀ r, t.getP r = s.getP r) ∧ (∀ r, t.getD r = s.getD r) ∧
        (∀ r, t.getTok r = s.getTok r) ∧ (∀ r, t.here.accAt r = s.here.accAt r) ∧
        t.me = { s.me with s := t.me.s, pc := BitVec.ofNat 16 (s.own + 4 * wordsOf q), pfx := [], wait := none, stall := none,
                           gread := none, walk := none, vseq := none, early := {} } ∧
        (∀ m, m ≠ s.curStrand → t.here.strand m = s.here.strand m) ∧
        (∀ u x, (t.tile u).byte x = (s.tile u).byte x) ∧ (∀ x, t.here.bandAt x = s.here.bandAt x) ∧ t.here.qcfg = s.here.qcfg ∧
        t.clusters = s.clusters ∧ t.mods = s.mods ∧ t.ctxs = s.ctxs ∧ t.net = s.net ∧ t.dies = s.dies
end

