-- ==== Sys2Proof/Laws/Map.lean ====
section
/-! SUPPORT. What reading after writing gives on the finite maps and the memories of the state, and that every memory operation keeps
the canonical form of a memory. -/
namespace Sys2Proof.Machine

variable {α : Type}

/-! ### Finite maps -/

@[simp] theorem SMap.find_set_self (m : SMap α) (k : Nat) (a : α) : SMap.find (SMap.set m k a) k = some a := by
  induction m with
  | nil => simp [SMap.set, SMap.find]
  | cons e r ih =>
    obtain ⟨j, b⟩ := e
    simp only [SMap.set]
    split
    · simp [SMap.find]
    · split
      · simp [SMap.find]
      · rename_i h; simp [SMap.find, Ne.symm h, ih]

theorem SMap.find_set_ne (m : SMap α) {k l : Nat} (a : α) (h : l ≠ k) : SMap.find (SMap.set m k a) l = SMap.find m l := by
  induction m with
  | nil => simp [SMap.set, SMap.find, Ne.symm h]
  | cons e r ih =>
    obtain ⟨j, b⟩ := e
    simp only [SMap.set]
    split
    · simp [SMap.find, Ne.symm h]
    · split
      · rename_i h'; subst h'; simp [SMap.find, Ne.symm h]
      · simp [SMap.find, ih]

@[simp] theorem SMap.set_set (m : SMap α) (k : Nat) (a b : α) : SMap.set (SMap.set m k a) k b = SMap.set m k b := by
  induction m with
  | nil => simp [SMap.set]
  | cons e r ih =>
    obtain ⟨j, c⟩ := e
    simp only [SMap.set]
    split
    · simp [SMap.set]
    · split
      · simp [SMap.set]
      · rename_i h1 h2; simp [SMap.set, h1, h2, ih]

@[simp] theorem SMap.get_set_self (d : α) (m : SMap α) (k : Nat) (a : α) : SMap.get d (SMap.set m k a) k = a := by
  simp [SMap.get]

theorem SMap.get_set_ne (d : α) (m : SMap α) {k l : Nat} (a : α) (h : l ≠ k) :
    SMap.get d (SMap.set m k a) l = SMap.get d m l := by
  simp [SMap.get, SMap.find_set_ne m a h]

/-! ### Memories: reading -/

theorem Memory.read_append (a b : Memory) (k : Nat) :
    Memory.read (a ++ b) k = if a.any (fun c => c.1 == k) then Memory.read a k else Memory.read b k := by
  induction a with
  | nil => simp
  | cons c r ih =>
    obtain ⟨j, x⟩ := c
    simp only [List.cons_append, Memory.read, List.any_cons]
    by_cases h : j = k
    · simp [h]
    · simp [h, ih]

theorem Memory.read_absent (m : Memory) (k : Nat) (h : m.any (fun c => c.1 == k) = false) : Memory.read m k = 0 := by
  induction m with
  | nil => rfl
  | cons c r ih =>
    obtain ⟨j, x⟩ := c
    simp at h ih
    simp [Memory.read, h.1, ih (fun a b => h.2 a b)]

theorem Memory.read_filter (m : Memory) (p : Nat → Bool) (k : Nat) :
    Memory.read (m.filter (fun c => p c.1)) k = if p k then Memory.read m k else 0 := by
  induction m with
  | nil => simp [Memory.read]
  | cons c r ih =>
    obtain ⟨j, x⟩ := c
    by_cases hj : j = k
    · subst hj
      by_cases hp : p j
      · simp [hp, Memory.read]
      · simp [hp] at ih ⊢; exact ih
    · by_cases hp : p j
      · simp [hp, Memory.read, hj, ih]
      · simp [hp, Memory.read, hj, ih]

theorem Memory.any_filter (m : Memory) (p : Nat → Bool) (k : Nat) :
    (m.filter (fun c => p c.1)).any (fun c => c.1 == k) = (p k && m.any (fun c => c.1 == k)) := by
  induction m with
  | nil => simp
  | cons c r ih =>
    obtain ⟨j, x⟩ := c
    have hk : (j == k) = true → p j = p k := fun h => by rw [eq_of_beq h]
    rw [List.filter_cons]
    by_cases hj : (j == k) = true
    · cases hp : p k <;> rw [hk hj, hp] <;> simp [hj, ih, hp]
    · cases hp : p j <;> simp [hj, ih]

theorem Memory.read_cells (l : List Byte) (a k : Nat) :
    Memory.read (Memory.cells a l) k = if a ≤ k ∧ k < a + l.length then l.getD (k - a) 0 else 0 := by
  induction l generalizing a with
  | nil => simp [Memory.cells, Memory.read]
  | cons b r ih =>
    have hk : (a ≤ k ∧ k < a + (b :: r).length) ↔ (k = a ∨ (a + 1 ≤ k ∧ k < a + 1 + r.length)) := by simp; omega
    rcases Nat.lt_trichotomy k a with h | h | h
    · have : ¬ (a ≤ k) := by omega
      have h2 : ¬ (a + 1 ≤ k) := by omega
      simp only [Memory.cells]; split <;> simp [Memory.read, ih, this, h2]; omega
    · subst h
      simp only [Memory.cells]; split
      · rename_i hb; simp [ih, hb]
      · simp [Memory.read]
    · have h1 : a ≠ k := by omega
      have h2 : k - a = (k - (a + 1)) + 1 := by omega
      have h3 : a ≤ k := by omega
      have h4 : a + 1 ≤ k := by omega
      have h5 : (k < a + 1 + r.length) ↔ k < a + (r.length + 1) := by omega
      simp only [Memory.cells]; split <;> simp [Memory.read, ih, h1, h3, h4, h5, h2]

theorem Memory.any_cells_out (l : List Byte) (a k : Nat) (h : k < a ∨ a + l.length ≤ k) :
    (Memory.cells a l).any (fun c => c.1 == k) = false := by
  induction l generalizing a with
  | nil => simp [Memory.cells]
  | cons b r ih =>
    have h' : k < a + 1 ∨ a + 1 + r.length ≤ k := by simp at h; omega
    have hak : (a == k) = false := by simp at h ⊢; omega
    simp only [Memory.cells]; split
    · exact ih _ h'
    · simp [hak, ih _ h']

/-- Reading after writing a list of bytes: the bytes written, and every other byte as before. -/
theorem Memory.read_writeBytes (m : Memory) (a : Nat) (l : List Byte) (k : Nat) :
    Memory.read (Memory.writeBytes m a l) k = if a ≤ k ∧ k < a + l.length then l.getD (k - a) 0 else Memory.read m k := by
  have hlo : (m.filter (fun c => decide (c.1 < a))).any (fun c => c.1 == k) =
      (decide (k < a) && m.any (fun c => c.1 == k)) := Memory.any_filter m (fun j => decide (j < a)) k
  have rlo : Memory.read (m.filter (fun c => decide (c.1 < a))) k = if decide (k < a) then Memory.read m k else 0 :=
    Memory.read_filter m (fun j => decide (j < a)) k
  have rhi : Memory.read (m.filter (fun c => decide (a + l.length ≤ c.1))) k =
      if decide (a + l.length ≤ k) then Memory.read m k else 0 :=
    Memory.read_filter m (fun j => decide (a + l.length ≤ j)) k
  unfold Memory.writeBytes
  rw [List.append_assoc, Memory.read_append, hlo, rlo, Memory.read_append, rhi, Memory.read_cells]
  by_cases h1 : k < a
  · have h2 : ¬ (a ≤ k) := by omega
    have h3 : ¬ (a + l.length ≤ k) := by omega
    have ho := Memory.any_cells_out l a k (Or.inl h1)
    by_cases hm : m.any (fun c => c.1 == k)
    · simp [h1, h2, hm]
    · have := Memory.read_absent m k (Bool.eq_false_iff.mpr hm)
      simp [h1, h2, h3, hm, ho, this]
  · by_cases h2 : a + l.length ≤ k
    · have ho := Memory.any_cells_out l a k (Or.inr h2)
      have h3 : ¬ (k < a + l.length) := by omega
      simp [h1, h2, h3, ho]
    · have h3 : a ≤ k := by omega
      have h4 : k < a + l.length := by omega
      have hin : (Memory.cells a l).any (fun c => c.1 == k) = false → l.getD (k - a) 0 = 0 := by
        intro hn
        have h5 := Memory.read_absent _ _ hn
        have h6 := Memory.read_cells l a k
        rw [if_pos ⟨h3, h4⟩] at h6
        exact h6.symm.trans h5
      by_cases hc : (Memory.cells a l).any (fun c => c.1 == k)
      · simp [h1, h3, h4, hc]
      · simp [h1, h2, h3, h4, hc]
        have := hin (Bool.eq_false_iff.mpr hc)
        simp [List.getD] at this
        exact this.symm

@[simp] theorem Memory.read_write_self (m : Memory) (a : Nat) (b : Byte) : Memory.read (Memory.write m a b) a = b := by
  simp [Memory.write, Memory.read_writeBytes]

theorem Memory.read_write_ne (m : Memory) {a k : Nat} (b : Byte) (h : k ≠ a) :
    Memory.read (Memory.write m a b) k = Memory.read m k := by
  have h' : ¬ (a ≤ k ∧ k < a + 1) := by omega
  simp [Memory.write, Memory.read_writeBytes]; omega

theorem Memory.read_clear (m : Memory) (a n k : Nat) :
    Memory.read (Memory.clear m a n) k = if a ≤ k ∧ k < a + n then 0 else Memory.read m k := by
  have := Memory.read_filter m (fun j => decide (j < a) || decide (a + n ≤ j)) k
  unfold Memory.clear
  rw [this]
  by_cases h : a ≤ k ∧ k < a + n
  · have : ¬ (k < a) ∧ ¬ (a + n ≤ k) := by omega
    simp [h, this]
  · have : (k < a) ∨ (a + n ≤ k) := by omega
    simp [h, this]

/-! ### Memories: the canonical form -/

theorem Memory.wfFrom_mono {lo hi : Nat} (h : lo ≤ hi) : ∀ (m : Memory), Memory.wfFrom hi m = true → Memory.wfFrom lo m = true
  | [], _ => rfl
  | (j, b) :: r, hm => by
    simp only [Memory.wfFrom, Bool.and_eq_true, decide_eq_true_eq] at hm ⊢
    exact ⟨⟨Nat.le_trans h hm.1.1, hm.1.2⟩, hm.2⟩

theorem Memory.wfFrom_filter (p : Host.Cell → Bool) : ∀ (m : Memory) (lo : Nat), Memory.wfFrom lo m = true →
    Memory.wfFrom lo (m.filter p) = true
  | [], _, _ => rfl
  | (j, b) :: r, lo, hm => by
    simp only [Memory.wfFrom, Bool.and_eq_true, decide_eq_true_eq] at hm
    have ih := Memory.wfFrom_filter p r (j + 1) hm.2
    simp only [List.filter]
    split
    · simp only [Memory.wfFrom, Bool.and_eq_true, decide_eq_true_eq]; exact ⟨hm.1, ih⟩
    · exact Memory.wfFrom_mono (by omega) _ ih

theorem Memory.wfFrom_append : ∀ (a : Memory) (lo mid : Nat) (b : Memory), Memory.wfFrom lo a = true →
    (∀ c ∈ a, c.1 < mid) → lo ≤ mid → Memory.wfFrom mid b = true → Memory.wfFrom lo (a ++ b) = true
  | [], _, _, b, _, _, hl, hb => Memory.wfFrom_mono hl b hb
  | (j, x) :: r, lo, mid, b, ha, hlt, _, hb => by
    simp only [Memory.wfFrom, Bool.and_eq_true, decide_eq_true_eq] at ha
    have hj : j < mid := hlt (j, x) (List.mem_cons_self ..)
    have ih := Memory.wfFrom_append r (j + 1) mid b ha.2 (fun c hc => hlt c (List.mem_cons_of_mem _ hc)) hj hb
    simp only [List.cons_append, Memory.wfFrom, Bool.and_eq_true, decide_eq_true_eq]
    exact ⟨ha.1, ih⟩

theorem Memory.wfFrom_cells : ∀ (l : List Byte) (a : Nat), Memory.wfFrom a (Memory.cells a l) = true
  | [], _ => rfl
  | b :: r, a => by
    have ih := Memory.wfFrom_cells r (a + 1)
    simp only [Memory.cells]
    split
    · exact Memory.wfFrom_mono (by omega) _ ih
    · rename_i h; simp [Memory.wfFrom, ih, show b ≠ 0#8 from h]

theorem Memory.cells_lt : ∀ (l : List Byte) (a : Nat) (c : Host.Cell), c ∈ Memory.cells a l → c.1 < a + l.length
  | [], _, c, h => by simp [Memory.cells] at h
  | b :: r, a, c, h => by
    have ih := Memory.cells_lt r (a + 1) c
    simp only [Memory.cells] at h
    split at h
    · have := ih h; simp; omega
    · rcases List.mem_cons.mp h with h | h
      · subst h; simp
      · have := ih h; simp; omega

theorem Memory.wfFrom_ge : ∀ (m : Memory) (lo hi : Nat), Memory.wfFrom lo m = true → (∀ c ∈ m, hi ≤ c.1) →
    Memory.wfFrom hi m = true
  | [], _, _, _, _ => rfl
  | (j, b) :: r, lo, hi, hm, hg => by
    simp only [Memory.wfFrom, Bool.and_eq_true, decide_eq_true_eq] at hm ⊢
    exact ⟨⟨hg (j, b) (List.mem_cons_self ..), hm.1.2⟩, hm.2⟩

/-- Writing bytes keeps the canonical form. -/
theorem Memory.wf_writeBytes (m : Memory) (a : Nat) (l : List Byte) (h : Memory.wf m = true) :
    Memory.wf (Memory.writeBytes m a l) = true := by
  unfold Memory.wf Memory.writeBytes at *
  rw [List.append_assoc]
  refine Memory.wfFrom_append _ 0 a _ (Memory.wfFrom_filter _ m 0 h) ?_ (by omega) ?_
  · intro c hc; simpa using (List.mem_filter.mp hc).2
  · refine Memory.wfFrom_append _ a (a + l.length) _ (Memory.wfFrom_cells l a) (fun c hc => Memory.cells_lt l a c hc) (by omega) ?_
    exact Memory.wfFrom_ge _ 0 _ (Memory.wfFrom_filter _ m 0 h) (fun c hc => by simpa using (List.mem_filter.mp hc).2)

/-- Writing one byte keeps the canonical form. -/
theorem Memory.wf_write (m : Memory) (a : Nat) (b : Byte) (h : Memory.wf m = true) : Memory.wf (Memory.write m a b) = true :=
  Memory.wf_writeBytes m a [b] h

/-- Writing a number keeps the canonical form. -/
theorem Memory.wf_setNum (m : Memory) (a n x : Nat) (h : Memory.wf m = true) : Memory.wf (Memory.setNum m a n x) = true :=
  Memory.wf_writeBytes m a _ h

/-- Clearing a span keeps the canonical form. -/
theorem Memory.wf_clear (m : Memory) (a n : Nat) (h : Memory.wf m = true) : Memory.wf (Memory.clear m a n) = true :=
  Memory.wfFrom_filter _ m 0 h

theorem Memory.wfFrom_shiftUp (d : Nat) : ∀ (m : Memory) (lo : Nat), Memory.wfFrom lo m = true →
    Memory.wfFrom (d + lo) (m.map (fun c => (d + c.1, c.2))) = true
  | [], _, _ => rfl
  | (j, b) :: r, lo, hm => by
    simp only [Memory.wfFrom, Bool.and_eq_true, decide_eq_true_eq] at hm
    have ih := Memory.wfFrom_shiftUp d r (j + 1) hm.2
    simp only [List.map, Memory.wfFrom, Bool.and_eq_true, decide_eq_true_eq]
    exact ⟨⟨by omega, hm.1.2⟩, by rw [show d + j + 1 = d + (j + 1) from by omega]; exact ih⟩

theorem Memory.wfFrom_shiftDown (d : Nat) : ∀ (m : Memory) (lo : Nat), Memory.wfFrom lo m = true → d ≤ lo →
    Memory.wfFrom (lo - d) (m.map (fun c => (c.1 - d, c.2))) = true
  | [], _, _, _ => rfl
  | (j, b) :: r, lo, hm, hd => by
    simp only [Memory.wfFrom, Bool.and_eq_true, decide_eq_true_eq] at hm
    have ih := Memory.wfFrom_shiftDown d r (j + 1) hm.2 (by omega)
    simp only [List.map, Memory.wfFrom, Bool.and_eq_true, decide_eq_true_eq]
    exact ⟨⟨by omega, hm.1.2⟩, by rw [show j - d + 1 = j + 1 - d from by omega]; exact ih⟩

/-- A slice of a memory has the canonical form. -/
theorem Memory.wf_slice (m : Memory) (a n : Nat) (h : Memory.wf m = true) : Memory.wf (Memory.slice m a n) = true := by
  have hw : Memory.wfFrom a (m.filter (fun c => decide (a ≤ c.1) && decide (c.1 < a + n))) = true :=
    Memory.wfFrom_ge _ 0 _ (Memory.wfFrom_filter _ m 0 h) (fun c hc => by
      have := (List.mem_filter.mp hc).2; simp at this; exact this.1)
  have := Memory.wfFrom_shiftDown a _ a hw (Nat.le_refl a)
  rwa [Nat.sub_self] at this

/-- Replacing a span by another memory's cells keeps the canonical form. -/
theorem Memory.wf_blit (m : Memory) (a n : Nat) (c : Memory) (h : Memory.wf m = true) (hc : Memory.wf c = true) :
    Memory.wf (Memory.blit m a n c) = true := by
  unfold Memory.wf Memory.blit at *
  rw [List.append_assoc]
  refine Memory.wfFrom_append _ 0 a _ (Memory.wfFrom_filter _ m 0 h) ?_ (by omega) ?_
  · intro e he; simpa using (List.mem_filter.mp he).2
  · refine Memory.wfFrom_append _ a (a + n) _ (Memory.wfFrom_shiftUp a _ 0 (Memory.wfFrom_filter _ c 0 hc)) ?_ (by omega) ?_
    · intro e he
      obtain ⟨f, hf, rfl⟩ := List.mem_map.mp he
      have := (List.mem_filter.mp hf).2; simp at this ⊢; omega
    · exact Memory.wfFrom_ge _ 0 _ (Memory.wfFrom_filter _ m 0 h) (fun e he => by simpa using (List.mem_filter.mp he).2)

end Sys2Proof.Machine
end

