-- ==== Sys2Proof/Laws/State.lean ====
section
/-! SUPPORT. What each named update of the state leaves in each field of it, and what the accessors of tiles, strands, clusters,
modules and contexts read after an update. -/
namespace Sys2Proof.Machine

/-! ### Fields after an update -/

@[simp] theorem State.setTile_agenda (s : State) (t : Nat) (x : Tile) : (s.setTile t x).agenda = s.agenda := rfl
@[simp] theorem State.setTile_cycle (s : State) (t : Nat) (x : Tile) : (s.setTile t x).cycle = s.cycle := rfl
@[simp] theorem State.setTile_free (s : State) (t : Nat) (x : Tile) : (s.setTile t x).free = s.free := rfl
@[simp] theorem State.setTile_curTile (s : State) (t : Nat) (x : Tile) : (s.setTile t x).curTile = s.curTile := rfl
@[simp] theorem State.setTile_curStrand (s : State) (t : Nat) (x : Tile) : (s.setTile t x).curStrand = s.curStrand := rfl
@[simp] theorem State.setTile_curModule (s : State) (t : Nat) (x : Tile) : (s.setTile t x).curModule = s.curModule := rfl
@[simp] theorem State.setTile_curThread (s : State) (t : Nat) (x : Tile) : (s.setTile t x).curThread = s.curThread := rfl
@[simp] theorem State.setTile_trapped (s : State) (t : Nat) (x : Tile) : (s.setTile t x).trapped = s.trapped := rfl
@[simp] theorem State.setTile_late (s : State) (t : Nat) (x : Tile) : (s.setTile t x).late = s.late := rfl
@[simp] theorem State.setTile_present (s : State) (t : Nat) (x : Tile) : (s.setTile t x).present = s.present := rfl
@[simp] theorem State.setTile_ev (s : State) (t : Nat) (x : Tile) : (s.setTile t x).ev = s.ev := rfl
@[simp] theorem State.setTile_tiles (s : State) (t : Nat) (x : Tile) : (s.setTile t x).tiles = SMap.set s.tiles t x := rfl
@[simp] theorem State.setTile_clusters (s : State) (t : Nat) (x : Tile) : (s.setTile t x).clusters = s.clusters := rfl
@[simp] theorem State.setTile_dies (s : State) (t : Nat) (x : Tile) : (s.setTile t x).dies = s.dies := rfl
@[simp] theorem State.setTile_mods (s : State) (t : Nat) (x : Tile) : (s.setTile t x).mods = s.mods := rfl
@[simp] theorem State.setTile_ctxs (s : State) (t : Nat) (x : Tile) : (s.setTile t x).ctxs = s.ctxs := rfl
@[simp] theorem State.setTile_net (s : State) (t : Nat) (x : Tile) : (s.setTile t x).net = s.net := rfl
@[simp] theorem State.setTile_insts (s : State) (t : Nat) (x : Tile) : (s.setTile t x).insts = s.insts := rfl
@[simp] theorem State.setTile_walks (s : State) (t : Nat) (x : Tile) : (s.setTile t x).walks = s.walks := rfl

@[simp] theorem State.setCluster_agenda (s : State) (k : Nat) (x : Cluster) : (s.setCluster k x).agenda = s.agenda := rfl
@[simp] theorem State.setCluster_cycle (s : State) (k : Nat) (x : Cluster) : (s.setCluster k x).cycle = s.cycle := rfl
@[simp] theorem State.setCluster_free (s : State) (k : Nat) (x : Cluster) : (s.setCluster k x).free = s.free := rfl
@[simp] theorem State.setCluster_curTile (s : State) (k : Nat) (x : Cluster) : (s.setCluster k x).curTile = s.curTile := rfl
@[simp] theorem State.setCluster_curStrand (s : State) (k : Nat) (x : Cluster) : (s.setCluster k x).curStrand = s.curStrand := rfl
@[simp] theorem State.setCluster_curModule (s : State) (k : Nat) (x : Cluster) : (s.setCluster k x).curModule = s.curModule := rfl
@[simp] theorem State.setCluster_curThread (s : State) (k : Nat) (x : Cluster) : (s.setCluster k x).curThread = s.curThread := rfl
@[simp] theorem State.setCluster_trapped (s : State) (k : Nat) (x : Cluster) : (s.setCluster k x).trapped = s.trapped := rfl
@[simp] theorem State.setCluster_late (s : State) (k : Nat) (x : Cluster) : (s.setCluster k x).late = s.late := rfl
@[simp] theorem State.setCluster_present (s : State) (k : Nat) (x : Cluster) : (s.setCluster k x).present = s.present := rfl
@[simp] theorem State.setCluster_ev (s : State) (k : Nat) (x : Cluster) : (s.setCluster k x).ev = s.ev := rfl
@[simp] theorem State.setCluster_tiles (s : State) (k : Nat) (x : Cluster) : (s.setCluster k x).tiles = s.tiles := rfl
@[simp] theorem State.setCluster_clusters (s : State) (k : Nat) (x : Cluster) : (s.setCluster k x).clusters = SMap.set s.clusters k x := rfl
@[simp] theorem State.setCluster_dies (s : State) (k : Nat) (x : Cluster) : (s.setCluster k x).dies = s.dies := rfl
@[simp] theorem State.setCluster_mods (s : State) (k : Nat) (x : Cluster) : (s.setCluster k x).mods = s.mods := rfl
@[simp] theorem State.setCluster_ctxs (s : State) (k : Nat) (x : Cluster) : (s.setCluster k x).ctxs = s.ctxs := rfl
@[simp] theorem State.setCluster_net (s : State) (k : Nat) (x : Cluster) : (s.setCluster k x).net = s.net := rfl
@[simp] theorem State.setCluster_insts (s : State) (k : Nat) (x : Cluster) : (s.setCluster k x).insts = s.insts := rfl
@[simp] theorem State.setCluster_walks (s : State) (k : Nat) (x : Cluster) : (s.setCluster k x).walks = s.walks := rfl

@[simp] theorem State.setDie_agenda (s : State) (d : Nat) (x : Die) : (s.setDie d x).agenda = s.agenda := rfl
@[simp] theorem State.setDie_cycle (s : State) (d : Nat) (x : Die) : (s.setDie d x).cycle = s.cycle := rfl
@[simp] theorem State.setDie_free (s : State) (d : Nat) (x : Die) : (s.setDie d x).free = s.free := rfl
@[simp] theorem State.setDie_curTile (s : State) (d : Nat) (x : Die) : (s.setDie d x).curTile = s.curTile := rfl
@[simp] theorem State.setDie_curStrand (s : State) (d : Nat) (x : Die) : (s.setDie d x).curStrand = s.curStrand := rfl
@[simp] theorem State.setDie_curModule (s : State) (d : Nat) (x : Die) : (s.setDie d x).curModule = s.curModule := rfl
@[simp] theorem State.setDie_curThread (s : State) (d : Nat) (x : Die) : (s.setDie d x).curThread = s.curThread := rfl
@[simp] theorem State.setDie_trapped (s : State) (d : Nat) (x : Die) : (s.setDie d x).trapped = s.trapped := rfl
@[simp] theorem State.setDie_late (s : State) (d : Nat) (x : Die) : (s.setDie d x).late = s.late := rfl
@[simp] theorem State.setDie_present (s : State) (d : Nat) (x : Die) : (s.setDie d x).present = s.present := rfl
@[simp] theorem State.setDie_ev (s : State) (d : Nat) (x : Die) : (s.setDie d x).ev = s.ev := rfl
@[simp] theorem State.setDie_tiles (s : State) (d : Nat) (x : Die) : (s.setDie d x).tiles = s.tiles := rfl
@[simp] theorem State.setDie_clusters (s : State) (d : Nat) (x : Die) : (s.setDie d x).clusters = s.clusters := rfl
@[simp] theorem State.setDie_dies (s : State) (d : Nat) (x : Die) : (s.setDie d x).dies = SMap.set s.dies d x := rfl
@[simp] theorem State.setDie_mods (s : State) (d : Nat) (x : Die) : (s.setDie d x).mods = s.mods := rfl
@[simp] theorem State.setDie_ctxs (s : State) (d : Nat) (x : Die) : (s.setDie d x).ctxs = s.ctxs := rfl
@[simp] theorem State.setDie_net (s : State) (d : Nat) (x : Die) : (s.setDie d x).net = s.net := rfl
@[simp] theorem State.setDie_insts (s : State) (d : Nat) (x : Die) : (s.setDie d x).insts = s.insts := rfl
@[simp] theorem State.setDie_walks (s : State) (d : Nat) (x : Die) : (s.setDie d x).walks = s.walks := rfl

@[simp] theorem State.setMod_agenda (s : State) (m : Nat) (x : Module) : (s.setMod m x).agenda = s.agenda := rfl
@[simp] theorem State.setMod_cycle (s : State) (m : Nat) (x : Module) : (s.setMod m x).cycle = s.cycle := rfl
@[simp] theorem State.setMod_free (s : State) (m : Nat) (x : Module) : (s.setMod m x).free = s.free := rfl
@[simp] theorem State.setMod_curTile (s : State) (m : Nat) (x : Module) : (s.setMod m x).curTile = s.curTile := rfl
@[simp] theorem State.setMod_curStrand (s : State) (m : Nat) (x : Module) : (s.setMod m x).curStrand = s.curStrand := rfl
@[simp] theorem State.setMod_curModule (s : State) (m : Nat) (x : Module) : (s.setMod m x).curModule = s.curModule := rfl
@[simp] theorem State.setMod_curThread (s : State) (m : Nat) (x : Module) : (s.setMod m x).curThread = s.curThread := rfl
@[simp] theorem State.setMod_trapped (s : State) (m : Nat) (x : Module) : (s.setMod m x).trapped = s.trapped := rfl
@[simp] theorem State.setMod_late (s : State) (m : Nat) (x : Module) : (s.setMod m x).late = s.late := rfl
@[simp] theorem State.setMod_present (s : State) (m : Nat) (x : Module) : (s.setMod m x).present = s.present := rfl
@[simp] theorem State.setMod_ev (s : State) (m : Nat) (x : Module) : (s.setMod m x).ev = s.ev := rfl
@[simp] theorem State.setMod_tiles (s : State) (m : Nat) (x : Module) : (s.setMod m x).tiles = s.tiles := rfl
@[simp] theorem State.setMod_clusters (s : State) (m : Nat) (x : Module) : (s.setMod m x).clusters = s.clusters := rfl
@[simp] theorem State.setMod_dies (s : State) (m : Nat) (x : Module) : (s.setMod m x).dies = s.dies := rfl
@[simp] theorem State.setMod_mods (s : State) (m : Nat) (x : Module) : (s.setMod m x).mods = SMap.set s.mods m x := rfl
@[simp] theorem State.setMod_ctxs (s : State) (m : Nat) (x : Module) : (s.setMod m x).ctxs = s.ctxs := rfl
@[simp] theorem State.setMod_net (s : State) (m : Nat) (x : Module) : (s.setMod m x).net = s.net := rfl
@[simp] theorem State.setMod_insts (s : State) (m : Nat) (x : Module) : (s.setMod m x).insts = s.insts := rfl
@[simp] theorem State.setMod_walks (s : State) (m : Nat) (x : Module) : (s.setMod m x).walks = s.walks := rfl

@[simp] theorem State.setCtx_agenda (s : State) (c : Nat) (x : Ctx) : (s.setCtx c x).agenda = s.agenda := rfl
@[simp] theorem State.setCtx_cycle (s : State) (c : Nat) (x : Ctx) : (s.setCtx c x).cycle = s.cycle := rfl
@[simp] theorem State.setCtx_free (s : State) (c : Nat) (x : Ctx) : (s.setCtx c x).free = s.free := rfl
@[simp] theorem State.setCtx_curTile (s : State) (c : Nat) (x : Ctx) : (s.setCtx c x).curTile = s.curTile := rfl
@[simp] theorem State.setCtx_curStrand (s : State) (c : Nat) (x : Ctx) : (s.setCtx c x).curStrand = s.curStrand := rfl
@[simp] theorem State.setCtx_curModule (s : State) (c : Nat) (x : Ctx) : (s.setCtx c x).curModule = s.curModule := rfl
@[simp] theorem State.setCtx_curThread (s : State) (c : Nat) (x : Ctx) : (s.setCtx c x).curThread = s.curThread := rfl
@[simp] theorem State.setCtx_trapped (s : State) (c : Nat) (x : Ctx) : (s.setCtx c x).trapped = s.trapped := rfl
@[simp] theorem State.setCtx_late (s : State) (c : Nat) (x : Ctx) : (s.setCtx c x).late = s.late := rfl
@[simp] theorem State.setCtx_present (s : State) (c : Nat) (x : Ctx) : (s.setCtx c x).present = s.present := rfl
@[simp] theorem State.setCtx_ev (s : State) (c : Nat) (x : Ctx) : (s.setCtx c x).ev = s.ev := rfl
@[simp] theorem State.setCtx_tiles (s : State) (c : Nat) (x : Ctx) : (s.setCtx c x).tiles = s.tiles := rfl
@[simp] theorem State.setCtx_clusters (s : State) (c : Nat) (x : Ctx) : (s.setCtx c x).clusters = s.clusters := rfl
@[simp] theorem State.setCtx_dies (s : State) (c : Nat) (x : Ctx) : (s.setCtx c x).dies = s.dies := rfl
@[simp] theorem State.setCtx_mods (s : State) (c : Nat) (x : Ctx) : (s.setCtx c x).mods = s.mods := rfl
@[simp] theorem State.setCtx_ctxs (s : State) (c : Nat) (x : Ctx) : (s.setCtx c x).ctxs = SMap.set s.ctxs c x := rfl
@[simp] theorem State.setCtx_net (s : State) (c : Nat) (x : Ctx) : (s.setCtx c x).net = s.net := rfl
@[simp] theorem State.setCtx_insts (s : State) (c : Nat) (x : Ctx) : (s.setCtx c x).insts = s.insts := rfl
@[simp] theorem State.setCtx_walks (s : State) (c : Nat) (x : Ctx) : (s.setCtx c x).walks = s.walks := rfl

@[simp] theorem State.setHere_agenda (s : State) (x : Tile) : (s.setHere x).agenda = s.agenda := rfl
@[simp] theorem State.setHere_cycle (s : State) (x : Tile) : (s.setHere x).cycle = s.cycle := rfl
@[simp] theorem State.setHere_free (s : State) (x : Tile) : (s.setHere x).free = s.free := rfl
@[simp] theorem State.setHere_curTile (s : State) (x : Tile) : (s.setHere x).curTile = s.curTile := rfl
@[simp] theorem State.setHere_curStrand (s : State) (x : Tile) : (s.setHere x).curStrand = s.curStrand := rfl
@[simp] theorem State.setHere_curModule (s : State) (x : Tile) : (s.setHere x).curModule = s.curModule := rfl
@[simp] theorem State.setHere_curThread (s : State) (x : Tile) : (s.setHere x).curThread = s.curThread := rfl
@[simp] theorem State.setHere_trapped (s : State) (x : Tile) : (s.setHere x).trapped = s.trapped := rfl
@[simp] theorem State.setHere_late (s : State) (x : Tile) : (s.setHere x).late = s.late := rfl
@[simp] theorem State.setHere_present (s : State) (x : Tile) : (s.setHere x).present = s.present := rfl
@[simp] theorem State.setHere_ev (s : State) (x : Tile) : (s.setHere x).ev = s.ev := rfl
@[simp] theorem State.setHere_tiles (s : State) (x : Tile) : (s.setHere x).tiles = SMap.set s.tiles s.curTile x := rfl
@[simp] theorem State.setHere_clusters (s : State) (x : Tile) : (s.setHere x).clusters = s.clusters := rfl
@[simp] theorem State.setHere_dies (s : State) (x : Tile) : (s.setHere x).dies = s.dies := rfl
@[simp] theorem State.setHere_mods (s : State) (x : Tile) : (s.setHere x).mods = s.mods := rfl
@[simp] theorem State.setHere_ctxs (s : State) (x : Tile) : (s.setHere x).ctxs = s.ctxs := rfl
@[simp] theorem State.setHere_net (s : State) (x : Tile) : (s.setHere x).net = s.net := rfl
@[simp] theorem State.setHere_insts (s : State) (x : Tile) : (s.setHere x).insts = s.insts := rfl
@[simp] theorem State.setHere_walks (s : State) (x : Tile) : (s.setHere x).walks = s.walks := rfl

@[simp] theorem State.setMe_agenda (s : State) (r : Strand) : (s.setMe r).agenda = s.agenda := rfl
@[simp] theorem State.setMe_cycle (s : State) (r : Strand) : (s.setMe r).cycle = s.cycle := rfl
@[simp] theorem State.setMe_free (s : State) (r : Strand) : (s.setMe r).free = s.free := rfl
@[simp] theorem State.setMe_curTile (s : State) (r : Strand) : (s.setMe r).curTile = s.curTile := rfl
@[simp] theorem State.setMe_curStrand (s : State) (r : Strand) : (s.setMe r).curStrand = s.curStrand := rfl
@[simp] theorem State.setMe_curModule (s : State) (r : Strand) : (s.setMe r).curModule = s.curModule := rfl
@[simp] theorem State.setMe_curThread (s : State) (r : Strand) : (s.setMe r).curThread = s.curThread := rfl
@[simp] theorem State.setMe_trapped (s : State) (r : Strand) : (s.setMe r).trapped = s.trapped := rfl
@[simp] theorem State.setMe_late (s : State) (r : Strand) : (s.setMe r).late = s.late := rfl
@[simp] theorem State.setMe_present (s : State) (r : Strand) : (s.setMe r).present = s.present := rfl
@[simp] theorem State.setMe_ev (s : State) (r : Strand) : (s.setMe r).ev = s.ev := rfl
@[simp] theorem State.setMe_tiles (s : State) (r : Strand) : (s.setMe r).tiles = SMap.set s.tiles s.curTile (s.here.setStrand s.curStrand r) := rfl
@[simp] theorem State.setMe_clusters (s : State) (r : Strand) : (s.setMe r).clusters = s.clusters := rfl
@[simp] theorem State.setMe_dies (s : State) (r : Strand) : (s.setMe r).dies = s.dies := rfl
@[simp] theorem State.setMe_mods (s : State) (r : Strand) : (s.setMe r).mods = s.mods := rfl
@[simp] theorem State.setMe_ctxs (s : State) (r : Strand) : (s.setMe r).ctxs = s.ctxs := rfl
@[simp] theorem State.setMe_net (s : State) (r : Strand) : (s.setMe r).net = s.net := rfl
@[simp] theorem State.setMe_insts (s : State) (r : Strand) : (s.setMe r).insts = s.insts := rfl
@[simp] theorem State.setMe_walks (s : State) (r : Strand) : (s.setMe r).walks = s.walks := rfl

@[simp] theorem State.setStrand_agenda (s : State) (t : Nat) (n : BitVec 2) (r : Strand) : (s.setStrand t n r).agenda = s.agenda := rfl
@[simp] theorem State.setStrand_cycle (s : State) (t : Nat) (n : BitVec 2) (r : Strand) : (s.setStrand t n r).cycle = s.cycle := rfl
@[simp] theorem State.setStrand_free (s : State) (t : Nat) (n : BitVec 2) (r : Strand) : (s.setStrand t n r).free = s.free := rfl
@[simp] theorem State.setStrand_curTile (s : State) (t : Nat) (n : BitVec 2) (r : Strand) : (s.setStrand t n r).curTile = s.curTile := rfl
@[simp] theorem State.setStrand_curStrand (s : State) (t : Nat) (n : BitVec 2) (r : Strand) : (s.setStrand t n r).curStrand = s.curStrand := rfl
@[simp] theorem State.setStrand_curModule (s : State) (t : Nat) (n : BitVec 2) (r : Strand) : (s.setStrand t n r).curModule = s.curModule := rfl
@[simp] theorem State.setStrand_curThread (s : State) (t : Nat) (n : BitVec 2) (r : Strand) : (s.setStrand t n r).curThread = s.curThread := rfl
@[simp] theorem State.setStrand_trapped (s : State) (t : Nat) (n : BitVec 2) (r : Strand) : (s.setStrand t n r).trapped = s.trapped := rfl
@[simp] theorem State.setStrand_late (s : State) (t : Nat) (n : BitVec 2) (r : Strand) : (s.setStrand t n r).late = s.late := rfl
@[simp] theorem State.setStrand_present (s : State) (t : Nat) (n : BitVec 2) (r : Strand) : (s.setStrand t n r).present = s.present := rfl
@[simp] theorem State.setStrand_ev (s : State) (t : Nat) (n : BitVec 2) (r : Strand) : (s.setStrand t n r).ev = s.ev := rfl
@[simp] theorem State.setStrand_tiles (s : State) (t : Nat) (n : BitVec 2) (r : Strand) : (s.setStrand t n r).tiles = SMap.set s.tiles t ((s.tile t).setStrand n r) := rfl
@[simp] theorem State.setStrand_clusters (s : State) (t : Nat) (n : BitVec 2) (r : Strand) : (s.setStrand t n r).clusters = s.clusters := rfl
@[simp] theorem State.setStrand_dies (s : State) (t : Nat) (n : BitVec 2) (r : Strand) : (s.setStrand t n r).dies = s.dies := rfl
@[simp] theorem State.setStrand_mods (s : State) (t : Nat) (n : BitVec 2) (r : Strand) : (s.setStrand t n r).mods = s.mods := rfl
@[simp] theorem State.setStrand_ctxs (s : State) (t : Nat) (n : BitVec 2) (r : Strand) : (s.setStrand t n r).ctxs = s.ctxs := rfl
@[simp] theorem State.setStrand_net (s : State) (t : Nat) (n : BitVec 2) (r : Strand) : (s.setStrand t n r).net = s.net := rfl
@[simp] theorem State.setStrand_insts (s : State) (t : Nat) (n : BitVec 2) (r : Strand) : (s.setStrand t n r).insts = s.insts := rfl
@[simp] theorem State.setStrand_walks (s : State) (t : Nat) (n : BitVec 2) (r : Strand) : (s.setStrand t n r).walks = s.walks := rfl

@[simp] theorem State.send_agenda (s : State) (m : Msg) : (s.send m).agenda = s.agenda := rfl
@[simp] theorem State.send_cycle (s : State) (m : Msg) : (s.send m).cycle = s.cycle := rfl
@[simp] theorem State.send_free (s : State) (m : Msg) : (s.send m).free = s.free := rfl
@[simp] theorem State.send_curTile (s : State) (m : Msg) : (s.send m).curTile = s.curTile := rfl
@[simp] theorem State.send_curStrand (s : State) (m : Msg) : (s.send m).curStrand = s.curStrand := rfl
@[simp] theorem State.send_curModule (s : State) (m : Msg) : (s.send m).curModule = s.curModule := rfl
@[simp] theorem State.send_curThread (s : State) (m : Msg) : (s.send m).curThread = s.curThread := rfl
@[simp] theorem State.send_trapped (s : State) (m : Msg) : (s.send m).trapped = s.trapped := rfl
@[simp] theorem State.send_late (s : State) (m : Msg) : (s.send m).late = s.late := rfl
@[simp] theorem State.send_present (s : State) (m : Msg) : (s.send m).present = s.present := rfl
@[simp] theorem State.send_ev (s : State) (m : Msg) : (s.send m).ev = s.ev := rfl
@[simp] theorem State.send_tiles (s : State) (m : Msg) : (s.send m).tiles = s.tiles := rfl
@[simp] theorem State.send_clusters (s : State) (m : Msg) : (s.send m).clusters = s.clusters := rfl
@[simp] theorem State.send_dies (s : State) (m : Msg) : (s.send m).dies = s.dies := rfl
@[simp] theorem State.send_mods (s : State) (m : Msg) : (s.send m).mods = s.mods := rfl
@[simp] theorem State.send_ctxs (s : State) (m : Msg) : (s.send m).ctxs = s.ctxs := rfl
@[simp] theorem State.send_net (s : State) (m : Msg) : (s.send m).net = s.net ++ [m] := rfl
@[simp] theorem State.send_insts (s : State) (m : Msg) : (s.send m).insts = s.insts := rfl
@[simp] theorem State.send_walks (s : State) (m : Msg) : (s.send m).walks = s.walks := rfl

/-! ### Accessors after an update -/

@[simp] theorem State.setTile_tile_self (s : State) (k : Nat) (x : Tile) : (s.setTile k x).tile k = x := by
  simp [State.tile]
theorem State.setTile_tile_ne (s : State) {k j : Nat} (x : Tile) (h : j ≠ k) : (s.setTile k x).tile j = s.tile j := by
  simp [State.tile, SMap.get_set_ne _ _ x h]
@[simp] theorem State.setTile_setTile (s : State) (k : Nat) (x y : Tile) : (s.setTile k x).setTile k y = s.setTile k y := by
  simp [State.setTile]
@[simp] theorem State.setTile_cluster (s : State) (k : Nat) (x : Tile) (j : Nat) : (s.setTile k x).cluster j = s.cluster j := rfl
@[simp] theorem State.setTile_die (s : State) (k : Nat) (x : Tile) (j : Nat) : (s.setTile k x).die j = s.die j := rfl
@[simp] theorem State.setTile_mod (s : State) (k : Nat) (x : Tile) (j : Nat) : (s.setTile k x).mod j = s.mod j := rfl
@[simp] theorem State.setTile_ctx (s : State) (k : Nat) (x : Tile) (j : Nat) : (s.setTile k x).ctx j = s.ctx j := rfl

@[simp] theorem State.setCluster_tile (s : State) (k : Nat) (x : Cluster) (j : Nat) : (s.setCluster k x).tile j = s.tile j := rfl
@[simp] theorem State.setCluster_cluster_self (s : State) (k : Nat) (x : Cluster) : (s.setCluster k x).cluster k = x := by
  simp [State.cluster]
theorem State.setCluster_cluster_ne (s : State) {k j : Nat} (x : Cluster) (h : j ≠ k) : (s.setCluster k x).cluster j = s.cluster j := by
  simp [State.cluster, SMap.get_set_ne _ _ x h]
@[simp] theorem State.setCluster_setCluster (s : State) (k : Nat) (x y : Cluster) : (s.setCluster k x).setCluster k y = s.setCluster k y := by
  simp [State.setCluster]
@[simp] theorem State.setCluster_die (s : State) (k : Nat) (x : Cluster) (j : Nat) : (s.setCluster k x).die j = s.die j := rfl
@[simp] theorem State.setCluster_mod (s : State) (k : Nat) (x : Cluster) (j : Nat) : (s.setCluster k x).mod j = s.mod j := rfl
@[simp] theorem State.setCluster_ctx (s : State) (k : Nat) (x : Cluster) (j : Nat) : (s.setCluster k x).ctx j = s.ctx j := rfl

@[simp] theorem State.setDie_tile (s : State) (k : Nat) (x : Die) (j : Nat) : (s.setDie k x).tile j = s.tile j := rfl
@[simp] theorem State.setDie_cluster (s : State) (k : Nat) (x : Die) (j : Nat) : (s.setDie k x).cluster j = s.cluster j := rfl
@[simp] theorem State.setDie_die_self (s : State) (k : Nat) (x : Die) : (s.setDie k x).die k = x := by
  simp [State.die]
theorem State.setDie_die_ne (s : State) {k j : Nat} (x : Die) (h : j ≠ k) : (s.setDie k x).die j = s.die j := by
  simp [State.die, SMap.get_set_ne _ _ x h]
@[simp] theorem State.setDie_setDie (s : State) (k : Nat) (x y : Die) : (s.setDie k x).setDie k y = s.setDie k y := by
  simp [State.setDie]
@[simp] theorem State.setDie_mod (s : State) (k : Nat) (x : Die) (j : Nat) : (s.setDie k x).mod j = s.mod j := rfl
@[simp] theorem State.setDie_ctx (s : State) (k : Nat) (x : Die) (j : Nat) : (s.setDie k x).ctx j = s.ctx j := rfl

@[simp] theorem State.setMod_tile (s : State) (k : Nat) (x : Module) (j : Nat) : (s.setMod k x).tile j = s.tile j := rfl
@[simp] theorem State.setMod_cluster (s : State) (k : Nat) (x : Module) (j : Nat) : (s.setMod k x).cluster j = s.cluster j := rfl
@[simp] theorem State.setMod_die (s : State) (k : Nat) (x : Module) (j : Nat) : (s.setMod k x).die j = s.die j := rfl
@[simp] theorem State.setMod_mod_self (s : State) (k : Nat) (x : Module) : (s.setMod k x).mod k = x := by
  simp [State.mod]
theorem State.setMod_mod_ne (s : State) {k j : Nat} (x : Module) (h : j ≠ k) : (s.setMod k x).mod j = s.mod j := by
  simp [State.mod, SMap.get_set_ne _ _ x h]
@[simp] theorem State.setMod_setMod (s : State) (k : Nat) (x y : Module) : (s.setMod k x).setMod k y = s.setMod k y := by
  simp [State.setMod]
@[simp] theorem State.setMod_ctx (s : State) (k : Nat) (x : Module) (j : Nat) : (s.setMod k x).ctx j = s.ctx j := rfl

@[simp] theorem State.setCtx_tile (s : State) (k : Nat) (x : Ctx) (j : Nat) : (s.setCtx k x).tile j = s.tile j := rfl
@[simp] theorem State.setCtx_cluster (s : State) (k : Nat) (x : Ctx) (j : Nat) : (s.setCtx k x).cluster j = s.cluster j := rfl
@[simp] theorem State.setCtx_die (s : State) (k : Nat) (x : Ctx) (j : Nat) : (s.setCtx k x).die j = s.die j := rfl
@[simp] theorem State.setCtx_mod (s : State) (k : Nat) (x : Ctx) (j : Nat) : (s.setCtx k x).mod j = s.mod j := rfl
@[simp] theorem State.setCtx_ctx_self (s : State) (k : Nat) (x : Ctx) : (s.setCtx k x).ctx k = x := by
  simp [State.ctx]
theorem State.setCtx_ctx_ne (s : State) {k j : Nat} (x : Ctx) (h : j ≠ k) : (s.setCtx k x).ctx j = s.ctx j := by
  simp [State.ctx, SMap.get_set_ne _ _ x h]
@[simp] theorem State.setCtx_setCtx (s : State) (k : Nat) (x y : Ctx) : (s.setCtx k x).setCtx k y = s.setCtx k y := by
  simp [State.setCtx]

@[simp] theorem State.setHere_cluster (s : State) (x : Tile) (j : Nat) : (s.setHere x).cluster j = s.cluster j := rfl
@[simp] theorem State.setHere_die (s : State) (x : Tile) (j : Nat) : (s.setHere x).die j = s.die j := rfl
@[simp] theorem State.setHere_mod (s : State) (x : Tile) (j : Nat) : (s.setHere x).mod j = s.mod j := rfl
@[simp] theorem State.setHere_ctx (s : State) (x : Tile) (j : Nat) : (s.setHere x).ctx j = s.ctx j := rfl
@[simp] theorem State.setHere_ctxOf (s : State) (x : Tile) (j : Nat) : (s.setHere x).ctxOf j = s.ctxOf j := rfl
@[simp] theorem State.setHere_supervisor (s : State) (x : Tile) : (s.setHere x).supervisor = s.supervisor := rfl
@[simp] theorem State.setHere_clim (s : State) (x : Tile) : (s.setHere x).clim = s.clim := rfl
@[simp] theorem State.setHere_tick (s : State) (x : Tile) (t : Nat) : (s.setHere x).tick t = s.tick t := rfl
@[simp] theorem State.setHere_clockRuns (s : State) (x : Tile) (t : Nat) : (s.setHere x).clockRuns t = s.clockRuns t := rfl
@[simp] theorem State.setHere_expired (s : State) (x : Tile) (t : Nat) (d : BitVec 48) : (s.setHere x).expired t d = s.expired t d := rfl
@[simp] theorem State.setMe_cluster (s : State) (r : Strand) (j : Nat) : (s.setMe r).cluster j = s.cluster j := rfl
@[simp] theorem State.setMe_die (s : State) (r : Strand) (j : Nat) : (s.setMe r).die j = s.die j := rfl
@[simp] theorem State.setMe_mod (s : State) (r : Strand) (j : Nat) : (s.setMe r).mod j = s.mod j := rfl
@[simp] theorem State.setMe_ctx (s : State) (r : Strand) (j : Nat) : (s.setMe r).ctx j = s.ctx j := rfl
@[simp] theorem State.setMe_ctxOf (s : State) (r : Strand) (j : Nat) : (s.setMe r).ctxOf j = s.ctxOf j := rfl
@[simp] theorem State.setMe_supervisor (s : State) (r : Strand) : (s.setMe r).supervisor = s.supervisor := rfl
@[simp] theorem State.setMe_clim (s : State) (r : Strand) : (s.setMe r).clim = s.clim := rfl
@[simp] theorem State.setMe_tick (s : State) (r : Strand) (t : Nat) : (s.setMe r).tick t = s.tick t := rfl
@[simp] theorem State.setMe_clockRuns (s : State) (r : Strand) (t : Nat) : (s.setMe r).clockRuns t = s.clockRuns t := rfl
@[simp] theorem State.setMe_expired (s : State) (r : Strand) (t : Nat) (d : BitVec 48) : (s.setMe r).expired t d = s.expired t d := rfl
@[simp] theorem State.send_cluster (s : State) (m : Msg) (j : Nat) : (s.send m).cluster j = s.cluster j := rfl
@[simp] theorem State.send_die (s : State) (m : Msg) (j : Nat) : (s.send m).die j = s.die j := rfl
@[simp] theorem State.send_mod (s : State) (m : Msg) (j : Nat) : (s.send m).mod j = s.mod j := rfl
@[simp] theorem State.send_ctx (s : State) (m : Msg) (j : Nat) : (s.send m).ctx j = s.ctx j := rfl
@[simp] theorem State.send_tile (s : State) (m : Msg) (j : Nat) : (s.send m).tile j = s.tile j := rfl
@[simp] theorem State.send_here (s : State) (m : Msg) : (s.send m).here = s.here := rfl
@[simp] theorem State.send_me (s : State) (m : Msg) : (s.send m).me = s.me := rfl

/-! ### Tiles and strands -/

@[simp] theorem Tile.strand_setStrand_self (x : Tile) (n : BitVec 2) (r : Strand) : (x.setStrand n r).strand n = r := by
  simp [Tile.strand, Tile.setStrand]

theorem Tile.strand_setStrand_ne (x : Tile) {n k : BitVec 2} (r : Strand) (h : k ≠ n) : (x.setStrand n r).strand k = x.strand k := by
  have h' : n.toNat ≠ k.toNat := fun e => h (BitVec.eq_of_toNat_eq e.symm)
  simp only [Tile.strand, Tile.setStrand]
  exact Vector.getElem_set_ne _ _ h'

@[simp] theorem Tile.setStrand_setStrand (x : Tile) (n : BitVec 2) (r q : Strand) : (x.setStrand n r).setStrand n q = x.setStrand n q := by
  simp [Tile.setStrand]

@[simp] theorem State.here_setHere (s : State) (x : Tile) : (s.setHere x).here = x := by
  simp [State.here, State.setHere]

@[simp] theorem State.setHere_setHere (s : State) (x y : Tile) : (s.setHere x).setHere y = s.setHere y := by
  simp [State.setHere]

@[simp] theorem State.me_setMe (s : State) (r : Strand) : (s.setMe r).me = r := by
  simp [State.me, State.setMe]

@[simp] theorem State.here_setMe (s : State) (r : Strand) : (s.setMe r).here = s.here.setStrand s.curStrand r := by
  simp [State.setMe]

@[simp] theorem State.setMe_setMe (s : State) (r q : Strand) : (s.setMe r).setMe q = s.setMe q := by
  simp [State.setMe]

@[simp] theorem State.me_setHere (s : State) (x : Tile) : (s.setHere x).me = x.strand s.curStrand := by
  simp [State.me]

/-- A strand's update after an update of its tile is one update of the tile. -/
theorem State.setMe_setHere (s : State) (x : Tile) (r : Strand) : (s.setHere x).setMe r = s.setHere (x.setStrand s.curStrand r) := by
  simp [State.setMe]

/-- An update of the tile after one of the strand. -/
@[simp] theorem State.setHere_setMe (s : State) (r : Strand) (x : Tile) : (s.setMe r).setHere x = s.setHere x := by
  simp [State.setMe]

theorem State.tile_setMe_ne (s : State) (r : Strand) {t : Nat} (h : t ≠ s.curTile) : (s.setMe r).tile t = s.tile t := by
  simp only [State.setMe, State.setHere]; exact State.setTile_tile_ne s _ h

theorem State.tile_setHere_ne (s : State) (x : Tile) {t : Nat} (h : t ≠ s.curTile) : (s.setHere x).tile t = s.tile t :=
  State.setTile_tile_ne s _ h

@[simp] theorem State.tile_setMe_self (s : State) (r : Strand) : (s.setMe r).tile s.curTile = s.here.setStrand s.curStrand r :=
  State.here_setMe s r

@[simp] theorem State.tile_setHere_self (s : State) (x : Tile) : (s.setHere x).tile s.curTile = x := State.here_setHere s x

/-! ### The tile around a strand -/

@[simp] theorem Tile.setStrand_mem (x : Tile) (n : BitVec 2) (r : Strand) : (x.setStrand n r).mem = x.mem := rfl
@[simp] theorem Tile.setStrand_sbuf (x : Tile) (n : BitVec 2) (r : Strand) : (x.setStrand n r).sbuf = x.sbuf := rfl
@[simp] theorem Tile.setStrand_undef (x : Tile) (n : BitVec 2) (r : Strand) : (x.setStrand n r).undef = x.undef := rfl
@[simp] theorem Tile.setStrand_loose (x : Tile) (n : BitVec 2) (r : Strand) : (x.setStrand n r).loose = x.loose := rfl
@[simp] theorem Tile.setStrand_band (x : Tile) (n : BitVec 2) (r : Strand) : (x.setStrand n r).band = x.band := rfl
@[simp] theorem Tile.setStrand_acc (x : Tile) (n : BitVec 2) (r : Strand) : (x.setStrand n r).acc = x.acc := rfl
@[simp] theorem Tile.setStrand_cb (x : Tile) (n : BitVec 2) (r : Strand) : (x.setStrand n r).cb = x.cb := rfl
@[simp] theorem Tile.setStrand_ta (x : Tile) (n : BitVec 2) (r : Strand) : (x.setStrand n r).ta = x.ta := rfl
@[simp] theorem Tile.setStrand_tb (x : Tile) (n : BitVec 2) (r : Strand) : (x.setStrand n r).tb = x.tb := rfl
@[simp] theorem Tile.setStrand_mmaq (x : Tile) (n : BitVec 2) (r : Strand) : (x.setStrand n r).mmaq = x.mmaq := rfl
@[simp] theorem Tile.setStrand_locks (x : Tile) (n : BitVec 2) (r : Strand) : (x.setStrand n r).locks = x.locks := rfl
@[simp] theorem Tile.setStrand_eng (x : Tile) (n : BitVec 2) (r : Strand) : (x.setStrand n r).eng = x.eng := rfl
@[simp] theorem Tile.setStrand_landed (x : Tile) (n : BitVec 2) (r : Strand) : (x.setStrand n r).landed = x.landed := rfl
@[simp] theorem Tile.setStrand_posts (x : Tile) (n : BitVec 2) (r : Strand) : (x.setStrand n r).posts = x.posts := rfl
@[simp] theorem Tile.setStrand_rega0 (x : Tile) (n : BitVec 2) (r : Strand) : (x.setStrand n r).rega0 = x.rega0 := rfl
@[simp] theorem Tile.setStrand_rega1 (x : Tile) (n : BitVec 2) (r : Strand) : (x.setStrand n r).rega1 = x.rega1 := rfl
@[simp] theorem Tile.setStrand_qcfg (x : Tile) (n : BitVec 2) (r : Strand) : (x.setStrand n r).qcfg = x.qcfg := rfl
@[simp] theorem Tile.setStrand_chead (x : Tile) (n : BitVec 2) (r : Strand) : (x.setStrand n r).chead = x.chead := rfl
@[simp] theorem Tile.setStrand_overflow (x : Tile) (n : BitVec 2) (r : Strand) : (x.setStrand n r).overflow = x.overflow := rfl
@[simp] theorem Tile.setStrand_grpm (x : Tile) (n : BitVec 2) (r : Strand) : (x.setStrand n r).grpm = x.grpm := rfl
@[simp] theorem Tile.setStrand_ewin (x : Tile) (n : BitVec 2) (r : Strand) : (x.setStrand n r).ewin = x.ewin := rfl
@[simp] theorem Tile.setStrand_ethr (x : Tile) (n : BitVec 2) (r : Strand) : (x.setStrand n r).ethr = x.ethr := rfl
@[simp] theorem Tile.setStrand_ecnt (x : Tile) (n : BitVec 2) (r : Strand) : (x.setStrand n r).ecnt = x.ecnt := rfl
@[simp] theorem Tile.setStrand_winAt (x : Tile) (n : BitVec 2) (r : Strand) : (x.setStrand n r).winAt = x.winAt := rfl
@[simp] theorem Tile.setStrand_latacc (x : Tile) (n : BitVec 2) (r : Strand) : (x.setStrand n r).latacc = x.latacc := rfl
@[simp] theorem Tile.setStrand_orphans (x : Tile) (n : BitVec 2) (r : Strand) : (x.setStrand n r).orphans = x.orphans := rfl
@[simp] theorem Tile.setStrand_irv (x : Tile) (n : BitVec 2) (r : Strand) : (x.setStrand n r).irv = x.irv := rfl
@[simp] theorem Tile.setStrand_pre (x : Tile) (n : BitVec 2) (r : Strand) : (x.setStrand n r).pre = x.pre := rfl
@[simp] theorem Tile.setStrand_accPre (x : Tile) (n : BitVec 2) (r : Strand) : (x.setStrand n r).accPre = x.accPre := rfl
@[simp] theorem Tile.setStrand_num (x : Tile) (n : BitVec 2) (r : Strand) : (x.setStrand n r).num = x.num := rfl
@[simp] theorem Tile.setStrand_att (x : Tile) (n : BitVec 2) (r : Strand) : (x.setStrand n r).att = x.att := rfl
@[simp] theorem Tile.setStrand_iseq (x : Tile) (n : BitVec 2) (r : Strand) : (x.setStrand n r).iseq = x.iseq := rfl
@[simp] theorem Tile.setStrand_snap (x : Tile) (n : BitVec 2) (r : Strand) : (x.setStrand n r).snap = x.snap := rfl
@[simp] theorem Tile.setStrand_snapRega0 (x : Tile) (n : BitVec 2) (r : Strand) : (x.setStrand n r).snapRega0 = x.snapRega0 := rfl
@[simp] theorem Tile.setStrand_snapRega1 (x : Tile) (n : BitVec 2) (r : Strand) : (x.setStrand n r).snapRega1 = x.snapRega1 := rfl
@[simp] theorem Tile.setStrand_inbox (x : Tile) (n : BitVec 2) (r : Strand) : (x.setStrand n r).inbox = x.inbox := rfl
@[simp] theorem Tile.setStrand_vote (x : Tile) (n : BitVec 2) (r : Strand) : (x.setStrand n r).vote = x.vote := rfl
@[simp] theorem Tile.setStrand_code (x : Tile) (n : BitVec 2) (r : Strand) : (x.setStrand n r).code = x.code := rfl
@[simp] theorem Tile.setStrand_lost (x : Tile) (n : BitVec 2) (r : Strand) : (x.setStrand n r).lost = x.lost := rfl
@[simp] theorem Tile.setStrand_hold (x : Tile) (n : BitVec 2) (r : Strand) : (x.setStrand n r).hold = x.hold := rfl
@[simp] theorem Tile.setStrand_donePart (x : Tile) (n : BitVec 2) (r : Strand) : (x.setStrand n r).donePart = x.donePart := rfl
@[simp] theorem Tile.setStrand_bar (x : Tile) (n : BitVec 2) (r : Strand) : (x.setStrand n r).bar = x.bar := rfl
@[simp] theorem Tile.setStrand_aflags (x : Tile) (n : BitVec 2) (r : Strand) : (x.setStrand n r).aflags = x.aflags := rfl
@[simp] theorem Tile.setStrand_refusedQ (x : Tile) (n : BitVec 2) (r : Strand) : (x.setStrand n r).refusedQ = x.refusedQ := rfl
@[simp] theorem Tile.setStrand_refusedN (x : Tile) (n : BitVec 2) (r : Strand) : (x.setStrand n r).refusedN = x.refusedN := rfl
@[simp] theorem Tile.setStrand_vtid (x : Tile) (n : BitVec 2) (r : Strand) : (x.setStrand n r).vtid = x.vtid := rfl
@[simp] theorem Tile.setStrand_lastScalar (x : Tile) (n : BitVec 2) (r : Strand) : (x.setStrand n r).lastScalar = x.lastScalar := rfl
@[simp] theorem Tile.setStrand_lastVector (x : Tile) (n : BitVec 2) (r : Strand) : (x.setStrand n r).lastVector = x.lastVector := rfl
@[simp] theorem Tile.setStrand_errs (x : Tile) (n : BitVec 2) (r : Strand) : (x.setStrand n r).errs = x.errs := rfl
@[simp] theorem Tile.setStrand_capture (x : Tile) (n : BitVec 2) (r : Strand) : (x.setStrand n r).capture = x.capture := rfl
@[simp] theorem Tile.setStrand_dbg (x : Tile) (n : BitVec 2) (r : Strand) : (x.setStrand n r).dbg = x.dbg := rfl

end Sys2Proof.Machine
end

