-- ==== Sys2Proof/Laws/Ops.lean ====
section
/-! SUPPORT. What each shared operation over a strand can do, said once. -/
namespace Sys2Proof.Machine

/-! ### Going on at an address -/

@[simp] theorem State.arriveAt_me (s : State) (a : Nat) : (s.arriveAt a).me =
    { s.me with pc := BitVec.ofNat 16 a, pfx := [], wait := none, stall := none, gread := none, walk := none, vseq := none, early := {} } := by
  simp [State.arriveAt]

/-- Whatever stands in the fields of the strand that arriveAt sets, only the others count. -/
theorem State.arriveAt_setMe (s : State) (r : Strand) (a : Nat) : (s.setMe r).arriveAt a = s.setMe
    { r with pc := BitVec.ofNat 16 a, pfx := [], wait := none, stall := none, gread := none, walk := none, vseq := none, early := {} } := by
  simp [State.arriveAt]

@[simp] theorem State.arriveAt_setMe_me (s : State) (a : Nat) : (s.setMe s.me).arriveAt a = s.arriveAt a := by
  rw [State.arriveAt_setMe, State.arriveAt]

theorem State.arriveAt_here (s : State) (a : Nat) : (s.arriveAt a).here = s.here.setStrand s.curStrand
    { s.me with pc := BitVec.ofNat 16 a, pfx := [], wait := none, stall := none, gread := none, walk := none, vseq := none, early := {} } := by
  simp [State.arriveAt]

/-! ### The plain retirement -/

theorem State.plain_iff (s : State) (w : Nat) : s.plain w = true ↔
    s.me.st = .run ∧ innermost s.me.lstk = none ∧ s.own + 4 * w ≠ 0x10000 ∧ s.me.stepping = false ∧ s.me.touched = [] ∧
      s.here.unwatched = true := by
  simp [State.plain, and_assoc]

theorem watchMatch_unwatched (x : Tile) (h : x.unwatched = true) (l : List (Bool × Bool × Nat × Nat)) :
    watchMatch x.dbg l = none := by
  simp [Tile.unwatched, span] at h
  simp [watchMatch, span, h]

/-- A unit that has neither accessed anything nor steps retires with nothing more. -/
theorem State.afterRetire_quiet (s : State) (h1 : s.me.touched = []) (h2 : s.me.stepping = false) : s.afterRetire = s := by
  simp [State.afterRetire, State.stepHalt, h1, h2]

/-- With no watchpoint enabled and no step, retirement forgets the accesses of the unit. -/
theorem State.afterRetire_unwatched (s : State) (hst : s.me.st = .run) (h2 : s.me.stepping = false)
    (h3 : s.here.unwatched = true) (h1 : s.me.touched ≠ []) : s.afterRetire = s.setMe { s.me with touched := [] } := by
  have hw : watchMatch (s.here.setStrand s.curStrand { s.me with touched := [] }).dbg s.me.touched = none :=
    watchMatch_unwatched s.here h3 _
  simp [State.afterRetire, State.stepHalt, h1, h2, hst]
  rw [show s.here.dbg = (s.here.setStrand s.curStrand { s.me with touched := [] }).dbg from rfl, hw]
  simp

/-- A plain retirement, before the watchpoints and the single step. -/
theorem State.retireSeq_arrive {s t : State} {w : Nat} (h : s.plain w = true) (hst : t.me.st = .run)
    (hl : innermost t.me.lstk = none) : s.retireSeq t w = (t.arriveAt (s.own + 4 * w)).afterRetire := by
  obtain ⟨-, -, h3, -, -, -⟩ := (State.plain_iff s w).mp h
  have hc : completeLoops s.me.pc.toNat (s.own + 4 * w) t.me.lstk = (t.me.lstk, .at (s.own + 4 * w)) := by
    simp [completeLoops, hl]
  have hp : ¬ (t.me.st = .park ∧ t.me.park.isSome = true) := by rw [hst]; simp
  unfold State.retireSeq
  simp only [hc]
  rw [if_neg (by simpa using h3), if_neg hp]
  exact congrArg State.afterRetire (State.arriveAt_setMe_me t _)

theorem Strand.untouched (r : Strand) (h : r.touched = []) : ({ r with touched := [] } : Strand) = r := by
  cases r; simp only at h; subst h; rfl

/-- What retiring a unit in a plain state does: the effect, and the strand at the next sequential address. -/
theorem State.retireSeq_plain {s t : State} {w : Nat} (h : s.plain w = true) (hst : t.me.st = .run)
    (hl : innermost t.me.lstk = none) (hs : t.me.stepping = false) (hw : t.here.unwatched = true) :
    s.retireSeq t w = (t.setMe { t.me with touched := [] }).arriveAt (s.own + 4 * w) := by
  rw [State.retireSeq_arrive h hst hl]
  by_cases ht : t.me.touched = []
  · rw [State.afterRetire_quiet _ (by simp [ht]) (by simp [hs]), Strand.untouched _ ht,
      State.arriveAt_setMe_me]
  · rw [State.afterRetire_unwatched _ (by simp [hst]) (by simp [hs]) (by rw [State.arriveAt_here]; exact hw) (by simp [ht])]
    simp [State.arriveAt]

/-- The same for an effect that notes no access. -/
theorem State.retireSeq_quiet {s t : State} {w : Nat} (h : s.plain w = true) (hst : t.me.st = .run)
    (hl : innermost t.me.lstk = none) (hs : t.me.stepping = false) (ht : t.me.touched = []) :
    s.retireSeq t w = t.arriveAt (s.own + 4 * w) := by
  rw [State.retireSeq_arrive h hst hl, State.afterRetire_quiet _ (by simp [ht]) (by simp [hs])]

/-- An instruction whose effect changes registers of its own strand only, none of those that retirement reads. -/
theorem State.finishSeq_setMe {s : State} {i : Instr} (h : s.plain (wordsOf i) = true) (r : Strand) (hst : r.st = .run)
    (hl : innermost r.lstk = none) (hs : r.stepping = false) (ht : r.touched = []) :
    s.finishSeq i (.ok (s.setMe r)) = .next ((s.setMe r).arriveAt (s.own + 4 * wordsOf i)) := by
  show Host.Outcome.next (s.retireSeq (s.setMe r) (wordsOf i)) = _
  rw [State.retireSeq_quiet h (by simp [hst]) (by simp [hl]) (by simp [hs]) (by simp [ht])]

/-- An instruction whose whole effect is done (no register of the strand changes before its retirement). -/
theorem State.finishSeq_same {s : State} {i : Instr} (h : s.plain (wordsOf i) = true) :
    s.finishSeq i (.ok s) = .next (s.arriveAt (s.own + 4 * wordsOf i)) := by
  obtain ⟨h1, h2, -, h4, h5, -⟩ := (State.plain_iff s _).mp h
  show Host.Outcome.next (s.retireSeq s (wordsOf i)) = _
  rw [State.retireSeq_quiet h h1 h2 h4 h5]

theorem State.finishSeq_setS {s : State} {i : Instr} (h : s.plain (wordsOf i) = true) (d : BitVec 6) (v : Word) :
    s.finishSeq i (.ok (s.setS d v)) = .next ((s.setS d v).arriveAt (s.own + 4 * wordsOf i)) := by
  obtain ⟨h1, h2, -, h4, h5, -⟩ := (State.plain_iff s _).mp h
  unfold State.setS
  split
  · exact State.finishSeq_same h
  · exact State.finishSeq_setMe h _ h1 h2 h4 h5

theorem State.putS_plain {s : State} {i : Instr} (h : s.plain (wordsOf i) = true) (d : BitVec 6) (v : Word) :
    s.putS i d v = .next ((s.setS d v).arriveAt (s.own + 4 * wordsOf i)) := State.finishSeq_setS h d v

/-! ### Completions -/

/-- An instruction completes with the effect t when its meaning ends in t and t leaves the strand as retirement finds it plain. -/
theorem Completes.of_quiet {s t : State} {i : Instr} (h : s.plain (wordsOf i) = true) (he : exec i s = s.finishSeq i (.ok t))
    (hst : t.me.st = .run) (hl : innermost t.me.lstk = none) (hs : t.me.stepping = false) (ht : t.me.touched = []) :
    Completes i s t := by
  unfold Completes; rw [he]
  show Host.Outcome.next (s.retireSeq t (wordsOf i)) = _
  rw [State.retireSeq_quiet h hst hl hs ht]

/-- The same for an effect with noted accesses, which retirement forgets. -/
theorem Completes.of_noted {s t u : State} {i : Instr} (h : s.plain (wordsOf i) = true) (he : exec i s = s.finishSeq i (.ok t))
    (hst : t.me.st = .run) (hl : innermost t.me.lstk = none) (hs : t.me.stepping = false) (hw : t.here.unwatched = true)
    (hu : ∀ a, (t.setMe { t.me with touched := [] }).arriveAt a = u.arriveAt a) : Completes i s u := by
  unfold Completes; rw [he]
  show Host.Outcome.next (s.retireSeq t (wordsOf i)) = _
  rw [State.retireSeq_plain h hst hl hs hw, hu]

/-- An instruction whose whole effect is to write a scalar register. -/
theorem Completes.of_putS {s : State} {i : Instr} {d : BitVec 6} {v w : Word} (h : s.plain (wordsOf i) = true)
    (he : exec i s = s.putS i d v) (hv : v = w) : Completes i s (s.setS d w) := by
  subst hv; unfold Completes; rw [he]; exact State.putS_plain h d _

/-- An instruction whose whole effect changes registers of its own strand, none of those that retirement reads. -/
theorem Completes.of_setMe {s : State} {i : Instr} {r : Strand} (h : s.plain (wordsOf i) = true)
    (he : exec i s = s.finishSeq i (.ok (s.setMe r))) (hst : r.st = s.me.st) (hl : r.lstk = s.me.lstk)
    (hs : r.stepping = s.me.stepping) (ht : r.touched = s.me.touched) : Completes i s (s.setMe r) := by
  obtain ⟨h1, h2, -, h4, h5, -⟩ := (State.plain_iff s _).mp h
  exact Completes.of_quiet h he (by simp [hst, h1]) (by simp [hl, h2]) (by simp [hs, h4]) (by simp [ht, h5])

/-- An instruction that has no effect but to go on. -/
theorem Completes.of_same {s : State} {i : Instr} (h : s.plain (wordsOf i) = true) (he : exec i s = s.finishSeq i (.ok s)) :
    Completes i s s := by
  unfold Completes; rw [he]; exact State.finishSeq_same h

/-! ### Reads of global memory -/

/-- A read of memory none of whose stacks has failed or lost anything meets no poison (R324, R326). -/
theorem State.readSpan_clean (s : State) (m a n : Nat) (hs : (s.mod m).stk = []) (hp : (s.mod m).parts = []) : (s.readSpan m a n).2.2 = false := by
  have hx : ∀ k, s.stackAt m k = {} := by intro k; simp [State.stackAt, Module.stackAt, hs]; rfl
  have hq : ∀ pa, s.poisoned m pa = false := by intro pa; simp [State.poisoned, hx]
  have hb : ∀ pa, s.readBlock m pa none = (s, false) := by
    intro pa
    simp [State.readBlock, hq, State.rebuildBlock, State.spoilt, hx, State.stackFailed, Module.stackOut, hp]
  have hr : ∀ pa k, s.readPhys m pa k none none 0 = (s, s.physNum m pa k 0, false) := by
    intro pa k; simp [State.readPhys, hb, hq]
  have key : ∀ (l : List Nat) (bs : List Byte), ((l.foldl (fun (r : State × List Byte × Bool) k =>
      let lo := max a (64 * k)
      let hi := min (a + n) (64 * k + 64)
      let q := r.1.readPhys m lo (hi - lo) none none 0
      (q.1, r.2.1 ++ toBytes (hi - lo) q.2.1, r.2.2 || q.2.2)) (s, bs, false))).2.2 = false := by
    intro l
    induction l with
    | nil => intro bs; rfl
    | cons k l ih => intro bs; simp only [List.foldl_cons, hr]; exact ih _
  exact key _ []

end Sys2Proof.Machine
end

