-- ==== Sys2Proof/Laws/LocalMem.lean ====
section
/-! SUPPORT. What a byte of local memory reads after each operation that writes local memory, and what those operations leave of the
rest of the tile. -/
namespace Sys2Proof.Machine

/-! ### Undetermined spans -/

/-- The first span that covers an address, as the number of its free value there. -/
def Undef.at? (us : List Undef) (k : Nat) : Option Nat :=
  (us.find? (fun u => decide (u.lo ≤ k) && decide (k < u.lo + u.len))).map (fun u => u.base + (k - u.lo))

theorem Undef.at?_append (a b : List Undef) (k : Nat) : Undef.at? (a ++ b) k = (Undef.at? a k).or (Undef.at? b k) := by
  simp only [Undef.at?, List.find?_append]
  cases List.find? (fun u => decide (u.lo ≤ k) && decide (k < u.lo + u.len)) a <;> simp

theorem Undef.at?_cons (u : Undef) (r : List Undef) (k : Nat) : Undef.at? (u :: r) k =
    if u.lo ≤ k ∧ k < u.lo + u.len then some (u.base + (k - u.lo)) else Undef.at? r k := by
  simp only [Undef.at?, List.find?_cons]
  by_cases h : u.lo ≤ k ∧ k < u.lo + u.len
  · simp [h]
  · have : (decide (u.lo ≤ k) && decide (k < u.lo + u.len)) = false := by simp; omega
    simp [h, this]

@[simp] theorem Undef.at?_nil (k : Nat) : Undef.at? [] k = none := rfl

/-- The part of a span below the one dropped. -/
theorem Undef.at?_below (u : Undef) (lo k : Nat) :
    Undef.at? (if u.lo < lo then [{ u with len := min u.len (lo - u.lo) }] else []) k =
      if u.lo ≤ k ∧ k < u.lo + u.len ∧ k < lo then some (u.base + (k - u.lo)) else none := by
  split
  · rw [Undef.at?_cons, Undef.at?_nil]
    exact if_congr (by show (u.lo ≤ k ∧ k < u.lo + min u.len (lo - u.lo)) ↔ _; omega) rfl rfl
  · rw [Undef.at?_nil, if_neg (by omega)]

/-- The part of a span above the one dropped. -/
theorem Undef.at?_above (u : Undef) (hi k : Nat) :
    Undef.at? (if hi < u.lo + u.len then
        [({ lo := max u.lo hi, len := u.lo + u.len - max u.lo hi, base := u.base + (max u.lo hi - u.lo) } : Undef)] else []) k =
      if u.lo ≤ k ∧ k < u.lo + u.len ∧ hi ≤ k then some (u.base + (k - u.lo)) else none := by
  split
  · rw [Undef.at?_cons, Undef.at?_nil]
    by_cases h : u.lo ≤ k ∧ k < u.lo + u.len ∧ hi ≤ k
    · rw [if_pos h, if_pos (by show max u.lo hi ≤ k ∧ k < max u.lo hi + (u.lo + u.len - max u.lo hi); omega)]
      show some (u.base + (max u.lo hi - u.lo) + (k - max u.lo hi)) = _
      congr 1; omega
    · rw [if_neg h, if_neg (by show ¬ (max u.lo hi ≤ k ∧ k < max u.lo hi + (u.lo + u.len - max u.lo hi)); omega)]
  · rw [Undef.at?_nil, if_neg (by omega)]

/-- A span is dropped: it has no undetermined byte left, and every other byte is as before. -/
theorem Undef.at?_drop (us : List Undef) (lo n k : Nat) :
    Undef.at? (dropUndef us lo n) k = if lo ≤ k ∧ k < lo + n then none else Undef.at? us k := by
  induction us with
  | nil => simp [dropUndef]
  | cons u r ih =>
    have hcons : dropUndef (u :: r) lo n =
        ((if u.lo < lo then [{ u with len := min u.len (lo - u.lo) }] else []) ++
          (if lo + n < u.lo + u.len then
            [{ lo := max u.lo (lo + n), len := u.lo + u.len - max u.lo (lo + n), base := u.base + (max u.lo (lo + n) - u.lo) }]
            else [])) ++ dropUndef r lo n := rfl
    rw [hcons, Undef.at?_append, ih, Undef.at?_append, Undef.at?_below, Undef.at?_above, Undef.at?_cons]
    by_cases hk : lo ≤ k ∧ k < lo + n
    · rw [if_neg (by omega), if_neg (by omega), if_pos hk, if_pos hk]; rfl
    · rw [if_neg hk, if_neg hk]
      by_cases hc : u.lo ≤ k ∧ k < u.lo + u.len
      · rw [if_pos hc]
        by_cases hl : k < lo
        · rw [if_pos (by omega)]; rfl
        · rw [if_neg (by omega), if_pos (by omega)]; rfl
      · rw [if_neg hc, if_neg (by omega), if_neg (by omega)]; rfl

theorem Tile.byte_eq (x : Tile) (k : Nat) : x.byte k =
    match Undef.at? x.undef k with | some j => Config.freeByte j | none => Memory.read x.mem k := by
  simp only [Tile.byte, Undef.at?]
  cases List.find? (fun u => decide (u.lo ≤ k) && decide (k < u.lo + u.len)) x.undef <;> rfl

/-! ### Writing bytes -/

/-- What local memory reads after bytes are written: those bytes in their span, every other byte as before. -/
theorem Tile.byte_writeBytes (x : Tile) (a : Nat) (l : List Byte) (k : Nat) :
    (x.writeBytes a l).byte k = if a ≤ k ∧ k < a + l.length then l.getD (k - a) 0 else x.byte k := by
  have hu : Undef.at? (x.writeBytes a l).undef k = if a ≤ k ∧ k < a + l.length then none else Undef.at? x.undef k := by
    unfold Tile.writeBytes
    by_cases h : x.undef = []
    · simp [h]
    · simp only [h, if_false]; exact Undef.at?_drop _ _ _ _
  rw [Tile.byte_eq, hu, Tile.byte_eq x]
  have hm : (x.writeBytes a l).mem = Memory.writeBytes x.mem a l := rfl
  rw [hm, Memory.read_writeBytes]
  by_cases h : a ≤ k ∧ k < a + l.length
  · rw [if_pos h, if_pos h, if_pos h]
  · rw [if_neg h, if_neg h, if_neg h]

/-- Taking a pre-image changes no byte. -/
@[simp] theorem Tile.byte_touch (x : Tile) (mgmt : Bool) (line : Nat) (mask : BitVec 64) (k : Nat) :
    (x.touch mgmt line mask).byte k = x.byte k := by
  unfold Tile.touch
  split
  · rfl
  · split <;> rfl

theorem Tile.byte_touches (mgmt : Bool) (mask : Nat → BitVec 64) (k : Nat) : ∀ (ls : List Nat) (x : Tile),
    (ls.foldl (fun y j => y.touch mgmt j (mask j)) x).byte k = x.byte k
  | [], _ => rfl
  | j :: r, x => by rw [List.foldl_cons, Tile.byte_touches mgmt mask k r, Tile.byte_touch]

/-- A strand's store: the bytes stored, and every other byte as before. -/
theorem Tile.byte_storeBytes (x : Tile) (mgmt : Bool) (a : Nat) (l : List Byte) (k : Nat) :
    (x.storeBytes mgmt a l).byte k = if a ≤ k ∧ k < a + l.length then l.getD (k - a) 0 else x.byte k := by
  unfold Tile.storeBytes
  rw [Tile.byte_writeBytes, Tile.byte_touches mgmt (fun j => lineMask j a l.length)]

/-! ### The rest of the tile -/

theorem Tile.touch_strands (x : Tile) (mgmt : Bool) (line : Nat) (mask : BitVec 64) :
    (x.touch mgmt line mask).strands = x.strands ∧ (x.touch mgmt line mask).dbg = x.dbg ∧
      (x.touch mgmt line mask).errs = x.errs ∧ (x.touch mgmt line mask).locks = x.locks ∧
      (x.touch mgmt line mask).band = x.band := by
  unfold Tile.touch; split
  · exact ⟨rfl, rfl, rfl, rfl, rfl⟩
  · split <;> exact ⟨rfl, rfl, rfl, rfl, rfl⟩

theorem Tile.touches_strands (mgmt : Bool) (mask : Nat → BitVec 64) : ∀ (ls : List Nat) (x : Tile),
    let y := ls.foldl (fun y j => y.touch mgmt j (mask j)) x
    y.strands = x.strands ∧ y.dbg = x.dbg ∧ y.errs = x.errs ∧ y.locks = x.locks ∧ y.band = x.band
  | [], _ => ⟨rfl, rfl, rfl, rfl, rfl⟩
  | j :: r, x => by
    have h := Tile.touches_strands mgmt mask r (x.touch mgmt j (mask j))
    obtain ⟨a, b, c, d, e⟩ := Tile.touch_strands x mgmt j (mask j)
    simp only [List.foldl_cons] at h ⊢
    exact ⟨h.1.trans a, h.2.1.trans b, h.2.2.1.trans c, h.2.2.2.1.trans d, h.2.2.2.2.trans e⟩

/-- A strand's store leaves the strands, the debug registers, the error marks, the locks and the side band. -/
theorem Tile.storeBytes_rest (x : Tile) (mgmt : Bool) (a : Nat) (l : List Byte) :
    (x.storeBytes mgmt a l).strands = x.strands ∧ (x.storeBytes mgmt a l).dbg = x.dbg ∧
      (x.storeBytes mgmt a l).errs = x.errs ∧ (x.storeBytes mgmt a l).locks = x.locks ∧
      (x.storeBytes mgmt a l).band = x.band :=
  Tile.touches_strands mgmt (fun j => lineMask j a l.length) (linesOf a l.length) x

@[simp] theorem Tile.storeBytes_strand (x : Tile) (mgmt : Bool) (a : Nat) (l : List Byte) (n : BitVec 2) :
    (x.storeBytes mgmt a l).strand n = x.strand n := by
  simp only [Tile.strand, (Tile.storeBytes_rest x mgmt a l).1]

theorem Tile.unwatched_congr {x y : Tile} (h : x.dbg = y.dbg) (hy : y.unwatched = true) : x.unwatched = true := by
  simp only [Tile.unwatched, h] at *; exact hy

/-! ### Notes of accesses -/

/-- A noted access is the only change. -/
theorem State.note_forget (s : State) (g w : Bool) (a n : Nat) (h : s.me.touched = []) :
    (s.note g w a n).setMe { (s.note g w a n).me with touched := [] } = s.setMe s.me := by
  unfold State.note; split
  · rw [Strand.untouched _ h]
  · simp only [State.me_setMe, State.setMe_setMe]; rw [Strand.untouched _ h]

/-- Fields of the strand that a noted access leaves. -/
theorem State.note_me (s : State) (g w : Bool) (a n : Nat) :
    (s.note g w a n).me = { s.me with touched := (s.note g w a n).me.touched } := by
  unfold State.note; split
  · rfl
  · simp

/-- A noted access, then a scalar register written, then the notes forgotten: the register alone is written. -/
theorem State.note_setS (s : State) (g w : Bool) (a n : Nat) (d : BitVec 6) (v : Word) (h : s.me.touched = []) (x : Nat) :
    (((s.note g w a n).setS d v).setMe { ((s.note g w a n).setS d v).me with touched := [] }).arriveAt x =
      (s.setS d v).arriveAt x := by
  unfold State.setS
  by_cases hd : d = 0
  · simp only [hd, if_true]; rw [State.note_forget s g w a n h, State.arriveAt_setMe_me]
  · simp only [hd, if_false]
    unfold State.note
    by_cases hn : n = 0
    · simp only [hn, if_true, State.me_setMe, State.setMe_setMe]
      refine congrArg (fun q => (s.setMe q).arriveAt x) ?_
      exact Strand.untouched { s.me with s := s.me.s.set d.toNat v d.isLt } h
    · simp only [hn, if_false, State.me_setMe, State.setMe_setMe]
      refine congrArg (fun q => (s.setMe q).arriveAt x) ?_
      exact Strand.untouched { s.me with s := s.me.s.set d.toNat v d.isLt } h

/-! ### Reads without errors -/

@[simp] theorem State.readMark_none (s : State) (h : s.here.errs = []) (loc : ErrAt) (sub : BitVec 8) (tval : Word) (lost : Bool) :
    s.readMark loc sub tval lost = .ok s := by simp [State.readMark, h]

@[simp] theorem State.keepSoft_same {α : Type} (s : State) (x : Except Stop α) : s.keepSoft s x = x := by
  cases x <;> simp [State.keepSoft]

@[simp] theorem State.andThen_same {α : Type} (s : State) (f : State → Except Stop α) : s.andThen (.ok s) f = f s := by
  simp [State.andThen]

@[simp] theorem State.readLines_none (s : State) (h : s.here.errs = []) (tval : Word) : ∀ l, s.readLines tval l = .ok s
  | [] => rfl
  | k :: r => by simp only [State.readLines, State.readMark_none s h, State.andThen_same, State.readLines_none s h tval r]

@[simp] theorem State.readSide_none (s : State) (h : s.here.errs = []) (line : Nat) (tval : Word) : s.readSide line tval = .ok s := by
  simp [State.readSide, h]

/-! ### Completions with accesses -/

/-- A read of local memory that a scalar register takes. -/
theorem Completes.of_load {s : State} {i : Instr} {d : BitVec 6} {a n : Nat} {v w : Word} (h : s.plain (wordsOf i) = true)
    (he : exec i s = s.finishSeq i (.ok ((s.note false false a n).setS d v))) (hv : v = w) : Completes i s (s.setS d w) := by
  subst hv
  obtain ⟨h1, h2, -, h4, h5, h6⟩ := (State.plain_iff s _).mp h
  have hme : ((s.note false false a n).setS d v).me =
      { (s.setS d v).me with touched := ((s.note false false a n).setS d v).me.touched } := by
    unfold State.setS; split
    · exact State.note_me ..
    · simp only [State.me_setMe]; rw [State.note_me]
  have hs : (s.setS d v).me.st = s.me.st ∧ (s.setS d v).me.lstk = s.me.lstk ∧ (s.setS d v).me.stepping = s.me.stepping := by
    unfold State.setS; split <;> simp
  have hdbg : ((s.note false false a n).setS d v).here.dbg = s.here.dbg := by
    unfold State.setS State.note; split <;> split <;> simp
  exact Completes.of_noted h he (by rw [hme]; exact hs.1.trans h1) (by rw [hme]; exact (congrArg _ hs.2.1).trans h2)
    (by rw [hme]; exact hs.2.2.trans h4) (Tile.unwatched_congr hdbg h6) (fun x => State.note_setS s _ _ a n d v h5 x)

/-- A write of local memory, its access noted. -/
theorem Completes.of_store {s : State} {i : Instr} {x : Tile} {a n : Nat} (h : s.plain (wordsOf i) = true)
    (he : exec i s = s.finishSeq i (.ok ((s.setHere x).note false true a n))) (hx : x.strand s.curStrand = s.me)
    (hd : x.dbg = s.here.dbg) : Completes i s (s.setHere x) := by
  obtain ⟨h1, h2, -, h4, h5, h6⟩ := (State.plain_iff s _).mp h
  have hm : (s.setHere x).me = s.me := by rw [State.me_setHere, hx]
  have hme := State.note_me (s.setHere x) false true a n
  rw [hm] at hme
  refine Completes.of_noted h he (by rw [hme]; exact h1) (by rw [hme]; exact h2) (by rw [hme]; exact h4) ?_ (fun y => ?_)
  · refine Tile.unwatched_congr ?_ h6
    unfold State.note; split <;> simp [hd]
  · rw [State.note_forget _ _ _ _ _ (by rw [hm]; exact h5), State.arriveAt_setMe_me]

end Sys2Proof.Machine
end

