-- ==== Sys2Proof/Laws/PerInstr.lean ====
section
/-! SUPPORT. Per instruction: how many words a unit's instruction takes (R43, R44). The words the encoder lays out are as many as the
program counter moves past, and what is no instruction of a unit (the instructions of the chunk engine, the events) has no words. -/
namespace Sys2Proof.Laws.UnitWords

/-- The encoder lays out the words that the program counter moves past, or none where the instruction stands in no unit. -/
def Statement (i : Instr) : Prop :=
  ∀ t, (encode t i).length = if i.kind = .chunk ∨ i.kind = .event then 0 else Machine.wordsOf i

theorem ill : ∀ a, Statement (.ill a) := fun _ _ => rfl
theorem add : ∀ a b c, Statement (.add a b c) := fun _ _ _ _ => rfl
theorem sub : ∀ a b c, Statement (.sub a b c) := fun _ _ _ _ => rfl
theorem and : ∀ a b c, Statement (.and a b c) := fun _ _ _ _ => rfl
theorem or : ∀ a b c, Statement (.or a b c) := fun _ _ _ _ => rfl
theorem xor : ∀ a b c, Statement (.xor a b c) := fun _ _ _ _ => rfl
theorem andn : ∀ a b c, Statement (.andn a b c) := fun _ _ _ _ => rfl
theorem shl : ∀ a b c, Statement (.shl a b c) := fun _ _ _ _ => rfl
theorem shr : ∀ a b c, Statement (.shr a b c) := fun _ _ _ _ => rfl
theorem sra : ∀ a b c, Statement (.sra a b c) := fun _ _ _ _ => rfl
theorem rol : ∀ a b c, Statement (.rol a b c) := fun _ _ _ _ => rfl
theorem min : ∀ a b c, Statement (.min a b c) := fun _ _ _ _ => rfl
theorem max : ∀ a b c, Statement (.max a b c) := fun _ _ _ _ => rfl
theorem minn : ∀ a b c, Statement (.minn a b c) := fun _ _ _ _ => rfl
theorem maxn : ∀ a b c, Statement (.maxn a b c) := fun _ _ _ _ => rfl
theorem adds : ∀ a b c, Statement (.adds a b c) := fun _ _ _ _ => rfl
theorem subs : ∀ a b c, Statement (.subs a b c) := fun _ _ _ _ => rfl
theorem mul : ∀ a b c, Statement (.mul a b c) := fun _ _ _ _ => rfl
theorem mulh : ∀ a b c, Statement (.mulh a b c) := fun _ _ _ _ => rfl
theorem mulhn : ∀ a b c, Statement (.mulhn a b c) := fun _ _ _ _ => rfl
theorem div : ∀ a b c, Statement (.div a b c) := fun _ _ _ _ => rfl
theorem divn : ∀ a b c, Statement (.divn a b c) := fun _ _ _ _ => rfl
theorem rem : ∀ a b c, Statement (.rem a b c) := fun _ _ _ _ => rfl
theorem remn : ∀ a b c, Statement (.remn a b c) := fun _ _ _ _ => rfl
theorem clz : ∀ a b, Statement (.clz a b) := fun _ _ _ => rfl
theorem ctz : ∀ a b, Statement (.ctz a b) := fun _ _ _ => rfl
theorem popc : ∀ a b, Statement (.popc a b) := fun _ _ _ => rfl
theorem brev : ∀ a b, Statement (.brev a b) := fun _ _ _ => rfl
theorem seq : ∀ a b c, Statement (.seq a b c) := fun _ _ _ _ => rfl
theorem sne : ∀ a b c, Statement (.sne a b c) := fun _ _ _ _ => rfl
theorem slt : ∀ a b c, Statement (.slt a b c) := fun _ _ _ _ => rfl
theorem sge : ∀ a b c, Statement (.sge a b c) := fun _ _ _ _ => rfl
theorem sltn : ∀ a b c, Statement (.sltn a b c) := fun _ _ _ _ => rfl
theorem sgen : ∀ a b c, Statement (.sgen a b c) := fun _ _ _ _ => rfl
theorem cmov : ∀ a b c, Statement (.cmov a b c) := fun _ _ _ _ => rfl
theorem addi : ∀ a b c, Statement (.addi a b c) := fun _ _ _ _ => rfl
theorem andi : ∀ a b c, Statement (.andi a b c) := fun _ _ _ _ => rfl
theorem ori : ∀ a b c, Statement (.ori a b c) := fun _ _ _ _ => rfl
theorem xori : ∀ a b c, Statement (.xori a b c) := fun _ _ _ _ => rfl
theorem shli : ∀ a b c, Statement (.shli a b c) := fun _ _ _ _ => rfl
theorem shri : ∀ a b c, Statement (.shri a b c) := fun _ _ _ _ => rfl
theorem srai : ∀ a b c, Statement (.srai a b c) := fun _ _ _ _ => rfl
theorem muli : ∀ a b c, Statement (.muli a b c) := fun _ _ _ _ => rfl
theorem slti : ∀ a b c, Statement (.slti a b c) := fun _ _ _ _ => rfl
theorem sltni : ∀ a b c, Statement (.sltni a b c) := fun _ _ _ _ => rfl
theorem lea : ∀ a b c d, Statement (.lea a b c d) := fun _ _ _ _ _ => rfl
theorem ldk : ∀ a b, Statement (.ldk a b) := fun _ _ _ => rfl
theorem ldi : ∀ a b, Statement (.ldi a b) := fun _ _ _ => rfl
theorem ldih : ∀ a b, Statement (.ldih a b) := fun _ _ _ => rfl
theorem bext : ∀ a b c d, Statement (.bext a b c d) := fun _ _ _ _ _ => rfl
theorem bins : ∀ a b c d, Statement (.bins a b c d) := fun _ _ _ _ _ => rfl
theorem addpc : ∀ a b, Statement (.addpc a b) := fun _ _ _ => rfl
theorem ldI8 : ∀ a b c, Statement (.ldI8 a b c) := fun _ _ _ _ => rfl
theorem ldI16 : ∀ a b c, Statement (.ldI16 a b c) := fun _ _ _ _ => rfl
theorem ldI32 : ∀ a b c, Statement (.ldI32 a b c) := fun _ _ _ _ => rfl
theorem ldI64 : ∀ a b c, Statement (.ldI64 a b c) := fun _ _ _ _ => rfl
theorem ldN8 : ∀ a b c, Statement (.ldN8 a b c) := fun _ _ _ _ => rfl
theorem ldN16 : ∀ a b c, Statement (.ldN16 a b c) := fun _ _ _ _ => rfl
theorem ldN32 : ∀ a b c, Statement (.ldN32 a b c) := fun _ _ _ _ => rfl
theorem st8 : ∀ a b c, Statement (.st8 a b c) := fun _ _ _ _ => rfl
theorem st16 : ∀ a b c, Statement (.st16 a b c) := fun _ _ _ _ => rfl
theorem st32 : ∀ a b c, Statement (.st32 a b c) := fun _ _ _ _ => rfl
theorem st64 : ∀ a b c, Statement (.st64 a b c) := fun _ _ _ _ => rfl
theorem ldbits : ∀ a b c, Statement (.ldbits a b c) := fun _ _ _ _ => rfl
theorem stbits : ∀ a b c, Statement (.stbits a b c) := fun _ _ _ _ => rfl
theorem amoadd32 : ∀ a b c, Statement (.amoadd32 a b c) := fun _ _ _ _ => rfl
theorem amoand32 : ∀ a b c, Statement (.amoand32 a b c) := fun _ _ _ _ => rfl
theorem amoor32 : ∀ a b c, Statement (.amoor32 a b c) := fun _ _ _ _ => rfl
theorem amoxor32 : ∀ a b c, Statement (.amoxor32 a b c) := fun _ _ _ _ => rfl
theorem amomin32 : ∀ a b c, Statement (.amomin32 a b c) := fun _ _ _ _ => rfl
theorem amomax32 : ∀ a b c, Statement (.amomax32 a b c) := fun _ _ _ _ => rfl
theorem amoswp32 : ∀ a b c, Statement (.amoswp32 a b c) := fun _ _ _ _ => rfl
theorem amoadd64 : ∀ a b c, Statement (.amoadd64 a b c) := fun _ _ _ _ => rfl
theorem amoand64 : ∀ a b c, Statement (.amoand64 a b c) := fun _ _ _ _ => rfl
theorem amoor64 : ∀ a b c, Statement (.amoor64 a b c) := fun _ _ _ _ => rfl
theorem amoxor64 : ∀ a b c, Statement (.amoxor64 a b c) := fun _ _ _ _ => rfl
theorem amomin64 : ∀ a b c, Statement (.amomin64 a b c) := fun _ _ _ _ => rfl
theorem amomax64 : ∀ a b c, Statement (.amomax64 a b c) := fun _ _ _ _ => rfl
theorem amoswp64 : ∀ a b c, Statement (.amoswp64 a b c) := fun _ _ _ _ => rfl
theorem amocas : ∀ a b c d e, Statement (.amocas a b c d e) := fun _ _ _ _ _ _ => rfl
theorem ldfe : ∀ a b c, Statement (.ldfe a b c) := fun _ _ _ _ => rfl
theorem ldfeKeep : ∀ a b c, Statement (.ldfeKeep a b c) := fun _ _ _ _ => rfl
theorem stfe : ∀ a b c, Statement (.stfe a b c) := fun _ _ _ _ => rfl
theorem fetagSetf : ∀ a b c, Statement (.fetagSetf a b c) := fun _ _ _ _ => rfl
theorem fetagSete : ∀ a b c, Statement (.fetagSete a b c) := fun _ _ _ _ => rfl
theorem fetagPeek : ∀ a b, Statement (.fetagPeek a b) := fun _ _ _ => rfl
theorem bz : ∀ a b, Statement (.bz a b) := fun _ _ _ => rfl
theorem bnz : ∀ a b, Statement (.bnz a b) := fun _ _ _ => rfl
theorem bltz : ∀ a b, Statement (.bltz a b) := fun _ _ _ => rfl
theorem bgez : ∀ a b, Statement (.bgez a b) := fun _ _ _ => rfl
theorem bgtz : ∀ a b, Statement (.bgtz a b) := fun _ _ _ => rfl
theorem blez : ∀ a b, Statement (.blez a b) := fun _ _ _ => rfl
theorem bcmp : ∀ a b c d, Statement (.bcmp a b c d) := fun _ _ _ _ _ => rfl
theorem j : ∀ a, Statement (.j a) := fun _ _ => rfl
theorem jal : ∀ a, Statement (.jal a) := fun _ _ => rfl
theorem jr : ∀ a, Statement (.jr a) := fun _ _ => rfl
theorem jalr : ∀ a b, Statement (.jalr a b) := fun _ _ _ => rfl
theorem bws : ∀ a b, Statement (.bws a b) := fun _ _ _ => rfl
theorem bp : ∀ a b c, Statement (.bp a b c) := fun _ _ _ _ => rfl
theorem loop : ∀ a b, Statement (.loop a b) := fun _ _ _ => rfl
theorem loopi : ∀ a b, Statement (.loopi a b) := fun _ _ _ => rfl
theorem loops : ∀ a b c, Statement (.loops a b c) := fun _ _ _ _ => rfl
theorem lbrk : Statement .lbrk := fun _ => rfl
theorem mfs : ∀ a b, Statement (.mfs a b) := fun _ _ _ => rfl
theorem mts : ∀ a b, Statement (.mts a b) := fun _ _ _ => rfl
theorem trap : ∀ a, Statement (.trap a) := fun _ _ => rfl
theorem svc : ∀ a, Statement (.svc a) := fun _ _ => rfl
theorem rtt : Statement .rtt := fun _ => rfl
theorem nop : Statement .nop := fun _ => rfl
theorem brk : Statement .brk := fun _ => rfl
theorem tmark : ∀ a, Statement (.tmark a) := fun _ _ => rfl
theorem retire : Statement .retire := fun _ => rfl
theorem prnd : ∀ a b, Statement (.prnd a b) := fun _ _ _ => rfl
theorem pext : ∀ a, Statement (.pext a) := fun _ _ => rfl
theorem pone : Statement .pone := fun _ => rfl
theorem poneRecordArrival : Statement .poneRecordArrival := fun _ => rfl
theorem vadd : ∀ a b c d e, Statement (.vadd a b c d e) := fun _ _ _ _ _ _ => rfl
theorem vsub : ∀ a b c d e, Statement (.vsub a b c d e) := fun _ _ _ _ _ _ => rfl
theorem vmul : ∀ a b c d e, Statement (.vmul a b c d e) := fun _ _ _ _ _ _ => rfl
theorem vfma : ∀ a b c d e, Statement (.vfma a b c d e) := fun _ _ _ _ _ _ => rfl
theorem vfms : ∀ a b c d e, Statement (.vfms a b c d e) := fun _ _ _ _ _ _ => rfl
theorem vfnma : ∀ a b c d e, Statement (.vfnma a b c d e) := fun _ _ _ _ _ _ => rfl
theorem vmin : ∀ a b c d e, Statement (.vmin a b c d e) := fun _ _ _ _ _ _ => rfl
theorem vmax : ∀ a b c d e, Statement (.vmax a b c d e) := fun _ _ _ _ _ _ => rfl
theorem vabs : ∀ a b c d, Statement (.vabs a b c d) := fun _ _ _ _ _ => rfl
theorem vneg : ∀ a b c d, Statement (.vneg a b c d) := fun _ _ _ _ _ => rfl
theorem vdiv : ∀ a b c d e, Statement (.vdiv a b c d e) := fun _ _ _ _ _ _ => rfl
theorem vsqrt : ∀ a b c d, Statement (.vsqrt a b c d) := fun _ _ _ _ _ => rfl
theorem vand : ∀ a b c d, Statement (.vand a b c d) := fun _ _ _ _ _ => rfl
theorem vor : ∀ a b c d, Statement (.vor a b c d) := fun _ _ _ _ _ => rfl
theorem vxor : ∀ a b c d, Statement (.vxor a b c d) := fun _ _ _ _ _ => rfl
theorem vandn : ∀ a b c d, Statement (.vandn a b c d) := fun _ _ _ _ _ => rfl
theorem vshl : ∀ a b c d e, Statement (.vshl a b c d e) := fun _ _ _ _ _ _ => rfl
theorem vshr : ∀ a b c d e, Statement (.vshr a b c d e) := fun _ _ _ _ _ _ => rfl
theorem vsra : ∀ a b c d e, Statement (.vsra a b c d e) := fun _ _ _ _ _ _ => rfl
theorem vops : ∀ a b c d e f, Statement (.vops a b c d e f) := fun _ _ _ _ _ _ _ => rfl
theorem vcmp : ∀ a b c d e, Statement (.vcmp a b c d e) := fun _ _ _ _ _ _ => rfl
theorem vsel : ∀ a b c d, Statement (.vsel a b c d) := fun _ _ _ _ _ => rfl
theorem vcvt : ∀ a b c d e, Statement (.vcvt a b c d e) := fun _ _ _ _ _ _ => rfl
theorem vbcast : ∀ a b c d, Statement (.vbcast a b c d) := fun _ _ _ _ _ => rfl
theorem vext : ∀ a b c d, Statement (.vext a b c d) := fun _ _ _ _ _ => rfl
theorem vins : ∀ a b c d, Statement (.vins a b c d) := fun _ _ _ _ _ => rfl
theorem vperm : ∀ a b c d e, Statement (.vperm a b c d e) := fun _ _ _ _ _ _ => rfl
theorem vredsum : ∀ a b c d, Statement (.vredsum a b c d) := fun _ _ _ _ _ => rfl
theorem vredmax : ∀ a b c d, Statement (.vredmax a b c d) := fun _ _ _ _ _ => rfl
theorem vredmin : ∀ a b c d, Statement (.vredmin a b c d) := fun _ _ _ _ _ => rfl
theorem vld : ∀ a b c d, Statement (.vld a b c d) := fun _ _ _ _ _ => rfl
theorem vst : ∀ a b c d, Statement (.vst a b c d) := fun _ _ _ _ _ => rfl
theorem vldb : ∀ a b c d e f, Statement (.vldb a b c d e f) := fun _ _ _ _ _ _ _ => rfl
theorem vstb : ∀ a b c d e, Statement (.vstb a b c d e) := fun _ _ _ _ _ _ => rfl
theorem vgath : ∀ a b c d e, Statement (.vgath a b c d e) := fun _ _ _ _ _ _ => rfl
theorem vscat : ∀ a b c d e, Statement (.vscat a b c d e) := fun _ _ _ _ _ _ => rfl
theorem vldd : ∀ a b c d, Statement (.vldd a b c d) := fun _ _ _ _ _ => rfl
theorem vstd : ∀ a b c d, Statement (.vstd a b c d) := fun _ _ _ _ _ => rfl
theorem plogAnd : ∀ a b c, Statement (.plogAnd a b c) := fun _ _ _ _ => rfl
theorem plogOr : ∀ a b c, Statement (.plogOr a b c) := fun _ _ _ _ => rfl
theorem plogXor : ∀ a b c, Statement (.plogXor a b c) := fun _ _ _ _ => rfl
theorem plogAndn : ∀ a b c, Statement (.plogAndn a b c) := fun _ _ _ _ => rfl
theorem plogNot : ∀ a b, Statement (.plogNot a b) := fun _ _ _ => rfl
theorem pmov : ∀ a b, Statement (.pmov a b) := fun _ _ _ => rfl
theorem pmovFrom : ∀ a b, Statement (.pmovFrom a b) := fun _ _ _ => rfl
theorem pmovTo : ∀ a b, Statement (.pmovTo a b) := fun _ _ _ => rfl
theorem pcnt : ∀ a b, Statement (.pcnt a b) := fun _ _ _ => rfl
theorem zacc : ∀ a b, Statement (.zacc a b) := fun _ _ _ => rfl
theorem mma : ∀ a b c d, Statement (.mma a b c d) := fun _ _ _ _ _ => rfl
theorem mmaKblock : Statement .mmaKblock := fun _ => rfl
theorem accrd : ∀ a b c d, Statement (.accrd a b c d) := fun _ _ _ _ _ => rfl
theorem accst : ∀ a b c d e f, Statement (.accst a b c d e f) := fun _ _ _ _ _ _ _ => rfl
theorem accld : ∀ a b, Statement (.accld a b) := fun _ _ _ => rfl
theorem accsv : ∀ a b c, Statement (.accsv a b c) := fun _ _ _ _ => rfl
theorem accadd : ∀ a b, Statement (.accadd a b) := fun _ _ _ => rfl
theorem accanch : ∀ a b, Statement (.accanch a b) := fun _ _ _ => rfl
theorem cbld : ∀ a b c d, Statement (.cbld a b c d) := fun _ _ _ _ _ => rfl
theorem ldd : ∀ a b c, Statement (.ldd a b c) := fun _ _ _ _ => rfl
theorem setd : ∀ a b c, Statement (.setd a b c) := fun _ _ _ _ => rfl
theorem kwait : ∀ a b c, Statement (.kwait a b c) := fun _ _ _ _ => rfl
theorem kwany : ∀ a b c, Statement (.kwany a b c) := fun _ _ _ _ => rfl
theorem waitc : ∀ a b c d e, Statement (.waitc a b c d e) := fun _ _ _ _ _ _ => rfl
theorem fence : ∀ a b c, Statement (.fence a b c) := fun _ _ _ _ => rfl
theorem realign : ∀ a b c, Statement (.realign a b c) := fun _ _ _ _ => rfl
theorem setdl : ∀ a, Statement (.setdl a) := fun _ _ => rfl
theorem now : ∀ a, Statement (.now a) := fun _ _ => rfl
theorem cbar : ∀ a b c d e, Statement (.cbar a b c d e) := fun _ _ _ _ _ _ => rfl
theorem abortv : ∀ a, Statement (.abortv a) := fun _ _ => rfl
theorem irrev : Statement .irrev := fun _ => rfl
theorem rst : ∀ a b c, Statement (.rst a b c) := fun _ _ _ _ => rfl
theorem vrst : ∀ a b c d, Statement (.vrst a b c d) := fun _ _ _ _ _ => rfl
theorem rred : ∀ a b c, Statement (.rred a b c) := fun _ _ _ _ => rfl
theorem vrred : ∀ a b c d e, Statement (.vrred a b c d e) := fun _ _ _ _ _ _ => rfl
theorem msend : ∀ a b c d, Statement (.msend a b c d) := fun _ _ _ _ _ => rfl
theorem msendEos : ∀ a b, Statement (.msendEos a b) := fun _ _ _ => rfl
theorem msendg : ∀ a b c d, Statement (.msendg a b c d) := fun _ _ _ _ _ => rfl
theorem msendgEos : ∀ a b, Statement (.msendgEos a b) := fun _ _ _ => rfl
theorem mrecv : ∀ a b c, Statement (.mrecv a b c) := fun _ _ _ _ => rfl
theorem ldg : ∀ a b c d, Statement (.ldg a b c d) := fun _ _ _ _ _ => rfl
theorem stg : ∀ a b c, Statement (.stg a b c) := fun _ _ _ _ => rfl
theorem redg : ∀ a b c, Statement (.redg a b c) := fun _ _ _ _ => rfl
theorem vldg : ∀ a b c, Statement (.vldg a b c) := fun _ _ _ _ => rfl
theorem vstg : ∀ a b c d, Statement (.vstg a b c d) := fun _ _ _ _ _ => rfl
theorem vredg : ∀ a b c d, Statement (.vredg a b c d) := fun _ _ _ _ _ => rfl
theorem fetchl : ∀ a b c, Statement (.fetchl a b c) := fun _ _ _ _ => rfl
theorem fetchlNext : ∀ a b c, Statement (.fetchlNext a b c) := fun _ _ _ _ => rfl
theorem wbl : ∀ a b, Statement (.wbl a b) := fun _ _ _ => rfl
theorem copy : ∀ a b c, Statement (.copy a b c) := fun _ _ _ _ => rfl
theorem copyG : ∀ a b c, Statement (.copyG a b c) := fun _ _ _ _ => rfl
theorem coll : ∀ a b, Statement (.coll a b) := fun _ _ _ => rfl
theorem rlstatLock : ∀ a b, Statement (.rlstatLock a b) := fun _ _ _ => rfl
theorem rlstatProg : ∀ a b, Statement (.rlstatProg a b) := fun _ _ _ => rfl
theorem rlstatFaddr : ∀ a b, Statement (.rlstatFaddr a b) := fun _ _ _ => rfl
theorem nextt : ∀ a, Statement (.nextt a) := fun _ _ => rfl
theorem prio : ∀ a b, Statement (.prio a b) := fun _ _ _ => rfl
theorem profrd : ∀ a b, Statement (.profrd a b) := fun _ _ _ => rfl
theorem profrdClr : ∀ a b, Statement (.profrdClr a b) := fun _ _ _ => rfl
theorem launch : ∀ a b c d, Statement (.launch a b c d) := fun _ _ _ _ _ => rfl
theorem bindBind : ∀ a b c d, Statement (.bindBind a b c d) := fun _ _ _ _ _ => rfl
theorem bindUnbind : ∀ a b c, Statement (.bindUnbind a b c) := fun _ _ _ _ => rfl
theorem bindFence : ∀ a b c, Statement (.bindFence a b c) := fun _ _ _ _ => rfl
theorem bindUnfence : ∀ a b c, Statement (.bindUnfence a b c) := fun _ _ _ _ => rfl
theorem tmapMap : ∀ a b c d, Statement (.tmapMap a b c d) := fun _ _ _ _ _ => rfl
theorem tmapInval : ∀ a b c d, Statement (.tmapInval a b c d) := fun _ _ _ _ _ => rfl
theorem tmapGroup : ∀ a b c d, Statement (.tmapGroup a b c d) := fun _ _ _ _ _ => rfl
theorem codestCode : ∀ a b c d, Statement (.codestCode a b c d) := fun _ _ _ _ _ => rfl
theorem codestLocal : ∀ a b c d, Statement (.codestLocal a b c d) := fun _ _ _ _ _ => rfl
theorem codestReg : ∀ a b c d, Statement (.codestReg a b c d) := fun _ _ _ _ _ => rfl
theorem codestChunk : ∀ a b c d, Statement (.codestChunk a b c d) := fun _ _ _ _ _ => rfl
theorem codestPtab : ∀ a b c d, Statement (.codestPtab a b c d) := fun _ _ _ _ _ => rfl
theorem startLaunch : ∀ a b c, Statement (.startLaunch a b c) := fun _ _ _ _ => rfl
theorem startResume : ∀ a b c d, Statement (.startResume a b c d) := fun _ _ _ _ _ => rfl
theorem startStrand : ∀ a b c d, Statement (.startStrand a b c d) := fun _ _ _ _ _ => rfl
theorem quiesceRequest : ∀ a b c, Statement (.quiesceRequest a b c) := fun _ _ _ _ => rfl
theorem quiesceCkpt : ∀ a b c, Statement (.quiesceCkpt a b c) := fun _ _ _ _ => rfl
theorem quiesceCancel : ∀ a b c, Statement (.quiesceCancel a b c) := fun _ _ _ _ => rfl
theorem quiescePark : ∀ a b c, Statement (.quiescePark a b c) := fun _ _ _ _ => rfl
theorem imgmvSave : ∀ a b c d, Statement (.imgmvSave a b c d) := fun _ _ _ _ _ => rfl
theorem imgmvRestore : ∀ a b c d, Statement (.imgmvRestore a b c d) := fun _ _ _ _ _ => rfl
theorem imgmvMove : ∀ a b c d, Statement (.imgmvMove a b c d) := fun _ _ _ _ _ => rfl
theorem keyld : ∀ a b c d, Statement (.keyld a b c d) := fun _ _ _ _ _ => rfl
theorem keyz : ∀ a b c, Statement (.keyz a b c) := fun _ _ _ _ => rfl
theorem scrubCluster : ∀ a b c, Statement (.scrubCluster a b c) := fun _ _ _ _ => rfl
theorem scrubPages : ∀ a b c d, Statement (.scrubPages a b c d) := fun _ _ _ _ _ => rfl
theorem forceab : ∀ a b c, Statement (.forceab a b c) := fun _ _ _ _ => rfl
theorem dumpLog : ∀ a b c d, Statement (.dumpLog a b c d) := fun _ _ _ _ _ => rfl
theorem dumpCtx : ∀ a b c d, Statement (.dumpCtx a b c d) := fun _ _ _ _ _ => rfl
theorem dumpTrace : ∀ a b c d, Statement (.dumpTrace a b c d) := fun _ _ _ _ _ => rfl
theorem supervisorOpComplete : Statement .supervisorOpComplete := fun _ => rfl
theorem chunkNop : Statement .chunkNop := fun _ => rfl
theorem send : Statement .send := fun _ => rfl
theorem recv : Statement .recv := fun _ => rfl
theorem reduce : Statement .reduce := fun _ => rfl
theorem chunkCopy : Statement .chunkCopy := fun _ => rfl
theorem waitSig : Statement .waitSig := fun _ => rfl
theorem waitArm : Statement .waitArm := fun _ => rfl
theorem gather : Statement .gather := fun _ => rfl
theorem deliver : Statement .deliver := fun _ => rfl
theorem armred : Statement .armred := fun _ => rfl
theorem mcast : Statement .mcast := fun _ => rfl
theorem setg : Statement .setg := fun _ => rfl
theorem setgh : Statement .setgh := fun _ => rfl
theorem movg : Statement .movg := fun _ => rfl
theorem addg : Statement .addg := fun _ => rfl
theorem addgr : Statement .addgr := fun _ => rfl
theorem subgr : Statement .subgr := fun _ => rfl
theorem mulgr : Statement .mulgr := fun _ => rfl
theorem remgr : Statement .remgr := fun _ => rfl
theorem bnzg : Statement .bnzg := fun _ => rfl
theorem loopg : Statement .loopg := fun _ => rfl
theorem signal : Statement .signal := fun _ => rfl
theorem halt : Statement .halt := fun _ => rfl
theorem abortc : Statement .abortc := fun _ => rfl
theorem fencec : Statement .fencec := fun _ => rfl
theorem chunkWaitMet : Statement .chunkWaitMet := fun _ => rfl
theorem chunkWaitExpiry : Statement .chunkWaitExpiry := fun _ => rfl
theorem chunkBoundExpiry : Statement .chunkBoundExpiry := fun _ => rfl
theorem chunkTransferComplete : Statement .chunkTransferComplete := fun _ => rfl
theorem signalApply : Statement .signalApply := fun _ => rfl
theorem threadStart : Statement .threadStart := fun _ => rfl
theorem collRequestArrival : Statement .collRequestArrival := fun _ => rfl
theorem pushDeltaArrival : Statement .pushDeltaArrival := fun _ => rfl
theorem abortToken : Statement .abortToken := fun _ => rfl
theorem waitMet : Statement .waitMet := fun _ => rfl
theorem waitTimeout : Statement .waitTimeout := fun _ => rfl
theorem implicitDeadline : Statement .implicitDeadline := fun _ => rfl
theorem fetchBlockServed : Statement .fetchBlockServed := fun _ => rfl
theorem cbarDeadlineExpiry : Statement .cbarDeadlineExpiry := fun _ => rfl
theorem treeArrive : Statement .treeArrive := fun _ => rfl
theorem treeWithdraw : Statement .treeWithdraw := fun _ => rfl
theorem treeWconf : Statement .treeWconf := fun _ => rfl
theorem treeDecide : Statement .treeDecide := fun _ => rfl
theorem deltaArrival : Statement .deltaArrival := fun _ => rfl
theorem globalDeltaArrival : Statement .globalDeltaArrival := fun _ => rfl
theorem deltaAcknowledgement : Statement .deltaAcknowledgement := fun _ => rfl
theorem deltaRefusal : Statement .deltaRefusal := fun _ => rfl
theorem baseDieCommit : Statement .baseDieCommit := fun _ => rfl
theorem arrayAcknowledgement : Statement .arrayAcknowledgement := fun _ => rfl
theorem checkpointCaptureDone : Statement .checkpointCaptureDone := fun _ => rfl
theorem pageWalkComplete : Statement .pageWalkComplete := fun _ => rfl
theorem globalReadResponse : Statement .globalReadResponse := fun _ => rfl
theorem engineLineArrival : Statement .engineLineArrival := fun _ => rfl
theorem engineLocalLine : Statement .engineLocalLine := fun _ => rfl
theorem refetchReport : Statement .refetchReport := fun _ => rfl
theorem hostRead : Statement .hostRead := fun _ => rfl
theorem hostWrite : Statement .hostWrite := fun _ => rfl
theorem launchRequest : Statement .launchRequest := fun _ => rfl
theorem hostSync : Statement .hostSync := fun _ => rfl
theorem record : Statement .record := fun _ => rfl
theorem preempt : Statement .preempt := fun _ => rfl
theorem resumeRequest : Statement .resumeRequest := fun _ => rfl
theorem teardown : Statement .teardown := fun _ => rfl
theorem attest : Statement .attest := fun _ => rfl
theorem keys : Statement .keys := fun _ => rfl
theorem recover : Statement .recover := fun _ => rfl
theorem writeSlot : Statement .writeSlot := fun _ => rfl
theorem reboot : Statement .reboot := fun _ => rfl
theorem eventDelivery : Statement .eventDelivery := fun _ => rfl
theorem plimExpiry : Statement .plimExpiry := fun _ => rfl
theorem lullReport : Statement .lullReport := fun _ => rfl
theorem scrubComplete : Statement .scrubComplete := fun _ => rfl
theorem scrubRestart : Statement .scrubRestart := fun _ => rfl
theorem scrubLine : Statement .scrubLine := fun _ => rfl
theorem errorWindowEnd : Statement .errorWindowEnd := fun _ => rfl
theorem linkCrcFailure : Statement .linkCrcFailure := fun _ => rfl
theorem linkLockLoss : Statement .linkLockLoss := fun _ => rfl
theorem treeRouteTimeout : Statement .treeRouteTimeout := fun _ => rfl
theorem islandPowerLoss : Statement .islandPowerLoss := fun _ => rfl
theorem thermalThrottle : Statement .thermalThrottle := fun _ => rfl
theorem thermalRecover : Statement .thermalRecover := fun _ => rfl
theorem thermalShutdown : Statement .thermalShutdown := fun _ => rfl
theorem lowCoolantFlow : Statement .lowCoolantFlow := fun _ => rfl
theorem moduleReset : Statement .moduleReset := fun _ => rfl
theorem stackTrainingDone : Statement .stackTrainingDone := fun _ => rfl
theorem islctlWrite : Statement .islctlWrite := fun _ => rfl
theorem islandTransitionDone : Statement .islandTransitionDone := fun _ => rfl
theorem hrefWrite : Statement .hrefWrite := fun _ => rfl
theorem dropdWrite : Statement .dropdWrite := fun _ => rfl
theorem dctlHalt : Statement .dctlHalt := fun _ => rfl
theorem dctlResume : Statement .dctlResume := fun _ => rfl
theorem dctlStep : Statement .dctlStep := fun _ => rfl
theorem haltRequest : Statement .haltRequest := fun _ => rfl
theorem daccRead : Statement .daccRead := fun _ => rfl
theorem daccWrite : Statement .daccWrite := fun _ => rfl
theorem daccWaitToken : Statement .daccWaitToken := fun _ => rfl
theorem daccWaitTimeout : Statement .daccWaitTimeout := fun _ => rfl
theorem itctlWrite : Statement .itctlWrite := fun _ => rfl
theorem issueTraceStop : Statement .issueTraceStop := fun _ => rfl
theorem registerWrite : Statement .registerWrite := fun _ => rfl
theorem egressQueueChange : Statement .egressQueueChange := fun _ => rfl
theorem contextClockStop : Statement .contextClockStop := fun _ => rfl
theorem laneLockLost : Statement .laneLockLost := fun _ => rfl
theorem laneLockRegained : Statement .laneLockRegained := fun _ => rfl
theorem btctlWrite : Statement .btctlWrite := fun _ => rfl
theorem selfTestComplete : Statement .selfTestComplete := fun _ => rfl
theorem coolantFlowRestored : Statement .coolantFlowRestored := fun _ => rfl

end Sys2Proof.Laws.UnitWords
end

