-- ==== Sys2Proof/Tests/Slice0.lean ====
section
/-! SUPPORT. Tests of the model on fixed values: words written out from the encodings of the spec, terms that the well-formedness check
refuses, single steps whose results the spec gives, and for every statement a state and operands that meet its hypotheses. -/
namespace Sys2Proof.Machine.Tests
-- one theorem after another: many theorems waiting on the kernel at once would hold too many threads
set_option Elab.async false

/-- Words of the listings of the spec (R40, R54, R89, R220, R249, R273, R386). -/
theorem decode_listing_1 : ([(0x0D400000, 0x0), (0x04C51001, 0x0), (0x03C20003, 0x0), (0x67420800, 0x0), (0x80000001, 0x0), (0x40841008, 0x0), (0x40063081, 0x0), (0x47842000, 0x0), (0x01010440, 0x0), (0x0885FFFE, 0x0), (0x0E000000, 0x0), (0x00000000, 0x0), (0x80400003, 0x0), (0x00420950, 0x0), (0x0683F800, 0x0), (0x0B410001, 0x0)] : List (BitVec 32 × BitVec 32)).map (fun e => decodeWords e.1 e.2) =
    [.ok .nop, .ok (.ldI64 5 4 1), .ok (.ldk 2 3), .ok (.vld 1 1 0 0), .ok (.prnd 0 1), .ok (.vmul 2 1 0 0 8), .ok (.vadd 3 3 1 0 1), .ok (.vst 2 4 0 0), .ok (.addi 1 1 64), .ok (.bnz 5 0xfffe), .ok .retire, .ok (.ill 0), .ok (.pext 3), .ok (.add 2 2 21), .ok (.st64 3 62 0), .ok (.loop 1 1)] := by rfl

/-- Words of the listings of the spec (R40, R54, R89, R220, R249, R273, R386). -/
theorem decode_listing_2 : ([(0x0605001F, 0x0), (0x05C60040, 0x0), (0x06C7200B, 0x0), (0x4C443002, 0x0), (0x4A100005, 0x0), (0x4A526000, 0x0), (0x4A904000, 0x0), (0x4AD09602, 0x0), (0x27945480, 0x0), (0x0AC1FFFF, 0x0), (0x73940000, 0x0), (0x09FFFFFC, 0x0), (0x0C01001D, 0x0), (0x03490402, 0x0), (0x08490025, 0x0), (0x02071C12, 0x0)] : List (BitVec 32 × BitVec 32)).map (fun e => decodeWords e.1 e.2) =
    [.ok (.st16 5 0 31), .ok (.st8 6 0 64), .ok (.ldbits 7 8 11), .ok (.ldd 2 6 2), .ok (.zacc 2 5), .ok (.mma 2 2 3 0), .ok (.accrd 2 1 0 0), .ok (.accst 2 4 11 0 1 0), .ok (.ldfe 20 21 1), .ok (.bws 1 0xffff), .ok (.nextt 20), .ok (.j 0x3ffffc), .ok (.mfs 1 29), .ok (.sltni 9 1 2), .ok (.bz 9 37), .ok (.shli 7 7 18)] := by rfl

/-- Words of the listings of the spec (R40, R54, R89, R220, R249, R273, R386). -/
theorem decode_listing_3 : ([(0x0A00001C, 0x0), (0x05975804, 0x0), (0x50081C60, 0x0), (0x70001C04, 0x0), (0x6E431181, 0x0), (0x2B820003, 0x0), (0x50940000, 0x0), (0x27D41500, 0x0), (0x0A40FC00, 0x0), (0x52400000, 0x0), (0x52800000, 0x0), (0x52C00000, 0x0), (0x4CD40101, 0x0), (0x52420201, 0x0), (0x4C815801, 0x0), (0x53020600, 0x0)] : List (BitVec 32 × BitVec 32)).map (fun e => decodeWords e.1 e.2) =
    [.ok (.jal 28), .ok (.ldN32 23 22 4), .ok (.msend 8 7 6 0), .ok (.msendEos 7 0), .ok (.cbar 3 4 3 0 1), .ok (.loops 0 1 3), .ok (.mrecv 20 0 0), .ok (.stfe 20 5 2), .ok (.jr 63), .ok (.fetchl 0 0 0), .ok (.wbl 0 0), .ok (.copy 0 0 0), .ok (.kwait 20 2 1), .ok (.fetchlNext 2 1 0), .ok (.setd 1 22 1), .ok (.coll 2 3)] := by rfl

/-- Words of the listings of the spec (R40, R54, R89, R220, R249, R273, R386). -/
theorem decode_listing_4 : ([(0x6B414000, 0x0), (0x4F942C01, 0x0), (0xC0010000, 0x2000), (0xC1000801, 0xFFFFFFF6), (0xC0430000, 0x1), (0xC1400002, 0x3)] : List (BitVec 32 × BitVec 32)).map (fun e => decodeWords e.1 e.2) =
    [.ok (.accsv 0 10 0), .ok (.rred 20 11 1), .ok (.ldi 1 0x2000), .ok (.bcmp 2 0 1 0xFFFFFFF6), .ok (.ldih 3 1), .ok (.loopi 2 3)] := by rfl

/-- Words built field by field from the encodings of spec/opcode_table.json: integer. -/
theorem decode_integer_1 : ([(0x205A6CD1, 0x0), (0x205A6CD2, 0x0), (0x205A6CD3, 0x0), (0x205A6CD4, 0x0), (0x205A6CD5, 0x0), (0x205A6CD6, 0x0), (0x205A6CD7, 0x0), (0x205A6CD8, 0x0), (0x205A6CD9, 0x0), (0x205A6CDA, 0x0), (0x205A6CDB, 0x0), (0x205A6CDC, 0x0), (0x205A6CDD, 0x0), (0x205A6CDE, 0x0), (0x205A6CDF, 0x0), (0x209A6CD0, 0x0)] : List (BitVec 32 × BitVec 32)).map (fun e => decodeWords e.1 e.2) =
    [.ok (.sub 26 27 13), .ok (.and 26 27 13), .ok (.or 26 27 13), .ok (.xor 26 27 13), .ok (.andn 26 27 13), .ok (.shl 26 27 13), .ok (.shr 26 27 13), .ok (.sra 26 27 13), .ok (.rol 26 27 13), .ok (.min 26 27 13), .ok (.max 26 27 13), .ok (.minn 26 27 13), .ok (.maxn 26 27 13), .ok (.adds 26 27 13), .ok (.subs 26 27 13), .ok (.mul 26 27 13)] := by rfl

/-- Words built field by field from the encodings of spec/opcode_table.json: integer. -/
theorem decode_integer_2 : ([(0x209A6CD1, 0x0), (0x209A6CD2, 0x0), (0x209A6CD3, 0x0), (0x209A6CD4, 0x0), (0x209A6CD5, 0x0), (0x209A6CD6, 0x0), (0x009A6C07, 0x0), (0x009A6C08, 0x0), (0x009A6C09, 0x0), (0x009A6C0A, 0x0), (0x20DA6CD0, 0x0), (0x20DA6CD1, 0x0), (0x20DA6CD2, 0x0), (0x20DA6CD3, 0x0), (0x20DA6CD4, 0x0), (0x20DA6CD5, 0x0)] : List (BitVec 32 × BitVec 32)).map (fun e => decodeWords e.1 e.2) =
    [.ok (.mulh 26 27 13), .ok (.mulhn 26 27 13), .ok (.div 26 27 13), .ok (.divn 26 27 13), .ok (.rem 26 27 13), .ok (.remn 26 27 13), .ok (.clz 26 27), .ok (.ctz 26 27), .ok (.popc 26 27), .ok (.brev 26 27), .ok (.seq 26 27 13), .ok (.sne 26 27 13), .ok (.slt 26 27 13), .ok (.sge 26 27 13), .ok (.sltn 26 27 13), .ok (.sgen 26 27 13)] := by rfl

/-- Words built field by field from the encodings of spec/opcode_table.json: integer. -/
theorem decode_integer_3 : ([(0x20DA6CD6, 0x0), (0x215A6ECD, 0x0), (0x219A6ECD, 0x0), (0x21DA6ECD, 0x0), (0x225A6C0D, 0x0), (0x229A6C0D, 0x0), (0x22DA6ECD, 0x0), (0x231A6ECD, 0x0), (0x039A6CD3, 0x0)] : List (BitVec 32 × BitVec 32)).map (fun e => decodeWords e.1 e.2) =
    [.ok (.cmov 26 27 13), .ok (.andi 26 27 717), .ok (.ori 26 27 717), .ok (.xori 26 27 717), .ok (.shri 26 27 13), .ok (.srai 26 27 13), .ok (.muli 26 27 717), .ok (.slti 26 27 717), .ok (.lea 26 27 13 3)] := by rfl

/-- Words built field by field from the encodings of spec/opcode_table.json: memory. -/
theorem decode_memory_1 : ([(0x241A6ECD, 0x0), (0x245A6ECD, 0x0), (0x249A6ECD, 0x0), (0x251A6ECD, 0x0), (0x255A6ECD, 0x0), (0x265A6ECD, 0x0), (0x271A6C0D, 0x0), (0x275A6CD0, 0x0), (0x275A6CD1, 0x0), (0x275A6CD2, 0x0), (0x275A6CD3, 0x0), (0x275A6CD4, 0x0), (0x275A6CD5, 0x0), (0x275A6CD6, 0x0), (0x275A6CD8, 0x0), (0x275A6CD9, 0x0)] : List (BitVec 32 × BitVec 32)).map (fun e => decodeWords e.1 e.2) =
    [.ok (.ldI8 26 27 717), .ok (.ldI16 26 27 717), .ok (.ldI32 26 27 717), .ok (.ldN8 26 27 717), .ok (.ldN16 26 27 717), .ok (.st32 26 27 717), .ok (.stbits 26 27 13), .ok (.amoadd32 26 27 13), .ok (.amoand32 26 27 13), .ok (.amoor32 26 27 13), .ok (.amoxor32 26 27 13), .ok (.amomin32 26 27 13), .ok (.amomax32 26 27 13), .ok (.amoswp32 26 27 13), .ok (.amoadd64 26 27 13), .ok (.amoand64 26 27 13)] := by rfl

/-- Words built field by field from the encodings of spec/opcode_table.json: memory. -/
theorem decode_memory_2 : ([(0x275A6CDA, 0x0), (0x275A6CDB, 0x0), (0x275A6CDC, 0x0), (0x275A6CDD, 0x0), (0x275A6CDE, 0x0), (0x281A6CD0, 0x0), (0x281A6CD1, 0x0), (0x081A6C02, 0x0)] : List (BitVec 32 × BitVec 32)).map (fun e => decodeWords e.1 e.2) =
    [.ok (.amoor64 26 27 13), .ok (.amoxor64 26 27 13), .ok (.amomin64 26 27 13), .ok (.amomax64 26 27 13), .ok (.amoswp64 26 27 13), .ok (.fetagSetf 26 27 13), .ok (.fetagSete 26 27 13), .ok (.fetagPeek 26 27)] := by rfl

/-- Words built field by field from the encodings of spec/opcode_table.json: waits. -/
theorem decode_waits_1 : ([(0x279A6E81, 0x0), (0x6D1A6E80, 0x0), (0x6D5A0182, 0x0), (0x6D9A6E80, 0x0), (0x6DC06800, 0x0), (0x6E1A0000, 0x0), (0x53C00007, 0x0)] : List (BitVec 32 × BitVec 32)).map (fun e => decodeWords e.1 e.2) =
    [.ok (.ldfeKeep 26 27 5), .ok (.kwany 26 27 5), .ok (.fence 26 3 2), .ok (.realign 26 27 5), .ok (.setdl 26), .ok (.now 26), .ok (.prio 1 3)] := by rfl

/-- Words built field by field from the encodings of spec/opcode_table.json: control. -/
theorem decode_control_1 : ([(0x08DAB1DB, 0x0), (0x091AB1DB, 0x0), (0x095AB1DB, 0x0), (0x099AB1DB, 0x0), (0x0A9A6C00, 0x0), (0x2B1362CD, 0x0), (0x0BC00000, 0x0), (0x0C4069DB, 0x0), (0x2C800055, 0x0), (0x2CC00091, 0x0), (0x0D800000, 0x0), (0x2DD6AD1A, 0x0)] : List (BitVec 32 × BitVec 32)).map (fun e => decodeWords e.1 e.2) =
    [.ok (.bltz 26 0xb1db), .ok (.bgez 26 0xb1db), .ok (.bgtz 26 0xb1db), .ok (.blez 26 0xb1db), .ok (.jalr 26 27), .ok (.bp 2 3 0x62cd), .ok .lbrk, .ok (.mts 26 475), .ok (.trap 85), .ok (.svc 145), .ok .brk, .ok (.tmark 0x16ad1a)] := by rfl

/-- Words built field by field from the encodings of spec/opcode_table.json: traps. -/
theorem decode_traps_1 : ([(0x0D000000, 0x0), (0x80800000, 0x0)] : List (BitVec 32 × BitVec 32)).map (fun e => decodeWords e.1 e.2) =
    [.ok .rtt, .ok .pone] := by rfl

/-- Words built field by field from the encodings of spec/opcode_table.json: vector. -/
theorem decode_vector_1 : ([(0x6075B6BA, 0x0), (0x60F5B6BA, 0x0), (0x6135B6BA, 0x0), (0x6175B6BA, 0x0), (0x61B5B6BA, 0x0), (0x61F5B6BA, 0x0), (0x4235B05A, 0x0), (0x4275B05A, 0x0), (0x62B5B6B9, 0x0), (0x42F5B059, 0x0), (0x4335B6B0, 0x0), (0x4375B6B0, 0x0), (0x43B5B6B0, 0x0), (0x43F5B6B0, 0x0), (0x6435B6B6, 0x0), (0x6475B6B6, 0x0)] : List (BitVec 32 × BitVec 32)).map (fun e => decodeWords e.1 e.2) =
    [.ok (.vsub 26 27 13 3 10), .ok (.vfma 26 27 13 3 10), .ok (.vfms 26 27 13 3 10), .ok (.vfnma 26 27 13 3 10), .ok (.vmin 26 27 13 3 10), .ok (.vmax 26 27 13 3 10), .ok (.vabs 26 27 5 10), .ok (.vneg 26 27 5 10), .ok (.vdiv 26 27 13 3 9), .ok (.vsqrt 26 27 5 9), .ok (.vand 26 27 13 3), .ok (.vor 26 27 13 3), .ok (.vxor 26 27 13 3), .ok (.vandn 26 27 13 3), .ok (.vshl 26 27 13 3 6), .ok (.vshr 26 27 13 3 6)] := by rfl

/-- Words built field by field from the encodings of spec/opcode_table.json: vector. -/
theorem decode_vector_2 : ([(0x64B5B6B6, 0x0), (0x64D1B6BA, 0x0), (0x4535B6B0, 0x0), (0x6575B6BA, 0x0), (0x45B4DDC0, 0x0), (0x45F4D885, 0x0), (0x4634D885, 0x0), (0x6675B6BA, 0x0), (0x46B5B053, 0x0), (0x46F5B053, 0x0), (0x4735B053, 0x0), (0x47F4DDA6, 0x0), (0x6834DD86, 0x0), (0x6874DD89, 0x0), (0x68B4DD89, 0x0), (0x48F4DD53, 0x0)] : List (BitVec 32 × BitVec 32)).map (fun e => decodeWords e.1 e.2) =
    [.ok (.vsra 26 27 13 3 6), .ok (.vcmp 2 27 13 3 10), .ok (.vsel 26 27 13 3), .ok (.vcvt 26 27 13 3 10), .ok (.vbcast 26 27 5 3), .ok (.vext 26 27 2 5), .ok (.vins 26 27 2 5), .ok (.vperm 26 27 13 3 10), .ok (.vredsum 26 27 5 3), .ok (.vredmax 26 27 5 3), .ok (.vredmin 26 27 5 3), .ok (.vldb 26 27 5 2 1 6), .ok (.vstb 26 27 5 2 6), .ok (.vgath 26 27 5 2 9), .ok (.vscat 26 27 5 2 9), .ok (.vldd 26 27 5 83)] := by rfl

/-- Words built field by field from the encodings of spec/opcode_table.json: vector. -/
theorem decode_vector_3 : ([(0x4934DD53, 0x0), (0x6953A000, 0x0), (0x6953A008, 0x0), (0x6953A010, 0x0), (0x6953A018, 0x0), (0x49530020, 0x0), (0x49930000, 0x0), (0x49900D88, 0x0), (0x49820D90, 0x0), (0x49C20D80, 0x0)] : List (BitVec 32 × BitVec 32)).map (fun e => decodeWords e.1 e.2) =
    [.ok (.vstd 26 27 5 83), .ok (.plogAnd 2 3 5), .ok (.plogOr 2 3 5), .ok (.plogXor 2 3 5), .ok (.plogAndn 2 3 5), .ok (.plogNot 2 3), .ok (.pmov 2 3), .ok (.pmovFrom 2 27), .ok (.pmovTo 2 27), .ok (.pcnt 2 27)] := by rfl

/-- Words built field by field from the encodings of spec/opcode_table.json: matrix. -/
theorem decode_matrix_1 : ([(0x4B136000, 0x0), (0x4B930000, 0x0), (0x4BD0001B, 0x0), (0x4C136E00, 0x0)] : List (BitVec 32 × BitVec 32)).map (fun e => decodeWords e.1 e.2) =
    [.ok (.accld 2 27), .ok (.accadd 2 3), .ok (.accanch 2 27), .ok (.cbld 2 27 1 3)] := by rfl

/-- Words built field by field from the encodings of spec/opcode_table.json: barrier_work. -/
theorem decode_barrier_work_1 : ([(0x6E80AD1A, 0x0)] : List (BitVec 32 × BitVec 32)).map (fun e => decodeWords e.1 e.2) =
    [.ok (.abortv 0xad1a)] := by rfl

/-- Words built field by field from the encodings of spec/opcode_table.json: barriers. -/
theorem decode_barriers_1 : ([(0x4EC00000, 0x0), (0x6F1A6C01, 0x0), (0x4F74DD53, 0x0), (0x6FF4DD83, 0x0), (0x505A6CD3, 0x0), (0x50406807, 0x0)] : List (BitVec 32 × BitVec 32)).map (fun e => decodeWords e.1 e.2) =
    [.ok .irrev, .ok (.rst 26 27 1), .ok (.vrst 26 27 5 83), .ok (.vrred 26 27 5 4 3), .ok (.msendg 26 27 13 3), .ok (.msendgEos 26 3)] := by rfl

/-- Words built field by field from the encodings of spec/opcode_table.json: global. -/
theorem decode_global_1 : ([(0x50DA6E85, 0x0), (0x711A6C01, 0x0), (0x715A6C0D, 0x0), (0x719A6E80, 0x0), (0x51ECDDC0, 0x0), (0x522CDD30, 0x0)] : List (BitVec 32 × BitVec 32)).map (fun e => decodeWords e.1 e.2) =
    [.ok (.ldg 26 27 5 5), .ok (.stg 26 27 1), .ok (.redg 26 27 13), .ok (.vldg 26 27 5), .ok (.vstg 22 27 5 3), .ok (.vredg 22 27 5 3)] := by rfl

/-- Words built field by field from the encodings of spec/opcode_table.json: engine. -/
theorem decode_engine_1 : ([(0x72C21603, 0x0), (0x535A6C00, 0x0), (0x535A00B1, 0x0), (0x535A00B2, 0x0)] : List (BitVec 32 × BitVec 32)).map (fun e => decodeWords e.1 e.2) =
    [.ok (.copyG 2 11 1), .ok (.rlstatLock 26 27), .ok (.rlstatProg 26 11), .ok (.rlstatFaddr 26 11)] := by rfl

/-- Words built field by field from the encodings of spec/opcode_table.json: rest. -/
theorem decode_rest_1 : ([(0x541A6C00, 0x0), (0x541A6C01, 0x0)] : List (BitVec 32 × BitVec 32)).map (fun e => decodeWords e.1 e.2) =
    [.ok (.profrd 26 27), .ok (.profrdClr 26 27)] := by rfl

/-- Two-word instructions, OP 0x00 to 0x09 of L = 3 with their payloads (R125, R126, R127, R133, R142, R147, R168, R245). -/
theorem decode_pairs : ([(0xC0210000, 0x89ABCDEF), (0xC0620000, 0x12345678), (0xC0A35400, 0xB91), (0xC0E45800, 0x3F), (0xC1009575, 0xFFFFFFF6), (0xC1408001, 0xABCD), (0xC1800280, 0x1020304), (0xC1E66291, 0x19), (0xC227A058, 0x29B), (0xC2670000, 0x80000000)] : List (BitVec 32 × BitVec 32)).map (fun e => decodeWords e.1 e.2) =
    [.ok (.ldi 33 0x89ABCDEF), .ok (.ldih 34 0x12345678), .ok (.bext 35 21 17 46), .ok (.bins 36 22 63 0), .ok (.bcmp 37 23 5 0xFFFFFFF6), .ok (.loopi 0x8001 0xABCD), .ok (.waitc 5 1 2 3 4), .ok (.amocas 38 24 41 1 25), .ok (.vops 19 26 5 8 0x0A 27), .ok (.addpc 39 0x80000000)] := by rfl

/-- Supervisor instructions (R481, R484): OP in the first word, the form in the payload. -/
theorem decode_supervisor_1 : ([(0xC40AC943, 0x0), (0xC44BC554, 0x0), (0xC44CC005, 0x1), (0xC44DBC06, 0x2), (0xC44EB807, 0x3), (0xC48FB598, 0x0), (0xC490B1A9, 0x1), (0xC491ADBA, 0x2), (0xC4D2A9CB, 0x0), (0xC4D3A5DC, 0x1), (0xC4D4A1ED, 0x2), (0xC4D59DFE, 0x3), (0xC4D69A0F, 0x4), (0xC5179400, 0x0), (0xC5189221, 0x1), (0xC5198E32, 0x2)] : List (BitVec 32 × BitVec 32)).map (fun e => decodeWords e.1 e.2) =
    [.ok (.launch 10 50 20 3), .ok (.bindBind 11 49 21 4), .ok (.bindUnbind 12 48 5), .ok (.bindFence 13 47 6), .ok (.bindUnfence 14 46 7), .ok (.tmapMap 15 45 25 8), .ok (.tmapInval 16 44 26 9), .ok (.tmapGroup 17 43 27 10), .ok (.codestCode 18 42 28 11), .ok (.codestLocal 19 41 29 12), .ok (.codestReg 20 40 30 13), .ok (.codestChunk 21 39 31 14), .ok (.codestPtab 22 38 32 15), .ok (.startLaunch 23 37 0), .ok (.startResume 24 36 34 1), .ok (.startStrand 25 35 35 2)] := by rfl

/-- Supervisor instructions (R481, R484). -/
theorem decode_supervisor_2 : ([(0xC55A8803, 0x0), (0xC55B8404, 0x1), (0xC55C8005, 0x2), (0xC55D7C06, 0x3), (0xC59E7A87, 0x0), (0xC59F7698, 0x1), (0xC5A072A9, 0x2), (0xC5E16EBA, 0x0), (0xC622680B, 0x0), (0xC663640C, 0x0), (0xC66462ED, 0x1), (0xC6A55C0E, 0x0), (0xC6E65B0F, 0x0), (0xC6E75710, 0x1), (0xC6E85321, 0x2)] : List (BitVec 32 × BitVec 32)).map (fun e => decodeWords e.1 e.2) =
    [.ok (.quiesceRequest 26 34 3), .ok (.quiesceCkpt 27 33 4), .ok (.quiesceCancel 28 32 5), .ok (.quiescePark 29 31 6), .ok (.imgmvSave 30 30 40 7), .ok (.imgmvRestore 31 29 41 8), .ok (.imgmvMove 32 28 42 9), .ok (.keyld 33 27 43 10), .ok (.keyz 34 26 11), .ok (.scrubCluster 35 25 12), .ok (.scrubPages 36 24 46 13), .ok (.forceab 37 23 14), .ok (.dumpLog 38 22 48 15), .ok (.dumpCtx 39 21 49 0), .ok (.dumpTrace 40 20 50 1)] := by rfl

/-- Slots of a chunk program (R399, R402): OP 63:58, DL 57:55, A 54:51, B 50:47, C 46:43, FN 42:32, IMM 31:0. -/
theorem decode_chunk : ([0x0000000000000000, 0x051A28F800000000, 0x091A28F800000000, 0x0C1A281A00000000, 0x1009180000000000, 0x1490000000000007, 0x1480000100000007, 0x1891A07F00000000, 0x1C91A07F00000000, 0x200919A500000006, 0x2481A07F00000000, 0x28280000FFFFFFFF, 0x2828000100000001, 0x282B000200000000, 0x2C2B000000000009, 0x2C2B380100000000, 0x2C2B380200000000, 0x2C2B380300000000, 0x2C2B380400000000, 0x30280000FFFFFFFE, 0x34280000FFFFFFFE, 0x3828000000000003, 0x3C00000000000000, 0x400000000000007F, 0x4580000000000000] : List (BitVec 64)).map decodeChunk =
    [.ok .chunkNop, .ok .send, .ok .recv, .ok .reduce, .ok .chunkCopy, .ok .waitSig, .ok .waitArm, .ok .gather, .ok .deliver, .ok .armred, .ok .mcast, .ok .setg, .ok .setgh, .ok .movg, .ok .addg, .ok .addgr, .ok .subgr, .ok .mulgr, .ok .remgr, .ok .bnzg, .ok .loopg, .ok .signal, .ok .halt, .ok .abortc, .ok .fencec] := by rfl

/-- The fields of a slot (R399). -/
theorem decode_chunk_fields : chunkFields 0x2491A5A589ABCDEF = { dl := 1, a := 2, b := 3, c := 4, fn := 0x5A5, imm := 0x89ABCDEF } := by decide

/-- An ill-formed term for each check of the first word (R62, R65 step 4 and the rules of the instructions), just outside the range. -/
theorem wf_refuses_first_word :
    ([.bcmp 1 2 6 0, .bws 8 0, .bp 1 4 0, .loop 1 0, .loopi 1 5, .loops 0 0 0, .trap 0x3F, .svc 0x7F, .prnd 0 5, .setd 0 1 4, .fence 1 0 3,
      .cbar 1 0 0 0 1, .cbar 1 2 1 0 0, .ldg 1 2 0 3, .ldg 1 2 1 7, .vldg 1 2 0, .vstg 3 1 0 0, .vredg 5 1 0 0, .accst 0 1 1 0 0 0,
      .accst 0 1 8 9 7 0] : List Instr).all (fun i => !i.wf) = true := by decide

/-- An ill-formed type, operator or element for each check of the vector instructions (R159, R163, R168, R169, R172, R178, R292). -/
theorem wf_refuses_vector :
    ([.vadd 0 0 0 0 11, .vsub 0 0 0 0 11, .vmul 0 0 0 0 11, .vfma 0 0 0 0 11, .vfms 0 0 0 0 11, .vfnma 0 0 0 0 11, .vmin 0 0 0 0 11,
      .vmax 0 0 0 0 11, .vabs 0 0 0 11, .vneg 0 0 0 11, .vdiv 0 0 0 0 7, .vdiv 0 0 0 0 11, .vsqrt 0 0 0 7, .vshl 0 0 0 0 8, .vshr 0 0 0 0 8,
      .vsra 0 0 0 0 8, .vops 0 0 0 0 0x08 0, .vops 0 0 0 0 0x13 0, .vops 0 0 0 7 0x0A 0, .vops 0 0 0 1 0x0C 0, .vops 0 0 0 8 0x10 0,
      .vcmp 0 0 0 0 11, .vcmp 0 0 0 6 7, .vext 0 0 3 8, .vins 0 0 2 16, .vins 0 0 1 32, .vperm 0 0 0 0 13, .vredsum 0 0 0 11,
      .vredmax 0 0 0 11, .vredmin 0 0 0 11, .vldb 0 0 0 0 0 8, .vstb 0 0 0 1 16, .vrred 0 0 0 2 9, .vrred 0 0 0 0 0,
      .vrred 0 0 0 3 2, .vrred 0 0 0 6 3] : List Instr).all (fun i => !i.wf) = true := by decide

/-- An ill-formed field for each check of a payload (R126, R127, R168). -/
theorem wf_refuses_payload : ([.bext 1 2 1 63, .bins 1 2 63 1, .vops 0 0 0 0 0x0B 0] : List Instr).all (fun i => !i.wf) = true := by decide

/-- The ends of the ranges are accepted. -/
theorem wf_accepts_bounds :
    ([.bcmp 1 2 5 0, .bws 7 0, .bp 1 3 0, .loop 1 1, .loopi 2 5, .loops 0 0 1, .trap 0x40, .svc 0x80, .prnd 1 4, .setd 0 1 3, .fence 1 0 2,
      .cbar 1 0 1 0 0, .cbar 1 2 7 1 7, .ldg 1 2 1 6, .vstg 30 1 0 0, .accst 0 1 8 9 6 0, .vcmp 0 0 0 7 8, .vext 0 0 3 7, .vldb 0 0 0 0 1 7,
      .bext 1 2 1 62, .bins 1 2 0 63, .vops 0 0 0 10 0x0A 0] : List Instr).all (fun i => i.wf) = true := by decide

/-- Strand 0 of tile 0 in RUN at 0x100 with the given scalar registers; its cluster runs code below 0x1000, all NOPs that carry T at 0, 0x200
and 0x300 only. The tile is f of a tile at reset. -/
def user (l : List (BitVec 6 × Word)) (f : Tile → Tile := id) : State :=
  let s := l.foldl (fun s e => s.setS e.1 e.2) (State.reset.setTile 0 (f (({} : Tile).setStrand 0 { st := .run, pc := 0x100, blocks := [8, 9] })))
  s.setCluster 0 { s.cluster 0 with clim := 0x1000, store := [0, 0x200, 0x300].foldl (fun m a => Memory.write m (a + 3) 0x20) [] }

/-- The tile with strand 0 changed. -/
def inStrand (f : Strand → Strand) (x : Tile) : Tile := x.setStrand 0 (f (x.strand 0))

/-- Strand 0 of management tile 0 of module 0 in RUN, at 0x100. -/
def supervisor (l : List (BitVec 6 × Word)) (f : Tile → Tile := id) : State :=
  let t := mgmtTile 0 0
  let s := State.reset.setTile t (f (({} : Tile).setStrand 0 { st := .run, pc := 0x100, blocks := [8, 9] }))
  l.foldl (fun s e => s.setS e.1 e.2) { s with curTile := t }

/-- The state that exec answers, or reset where it answers none. -/
def after (i : Instr) (s : State) : State := match exec i s with | .next t => t | _ => State.reset

/-- exec answers a next state. -/
def runs (i : Instr) (s : State) : Bool := match exec i s with | .next _ => true | _ => false

/-- A tile whose retention log is full (R277). -/
def fullLog (x : Tile) : Tile :=
  { x with accPre := (List.range 25).map (fun i => (i, {})), pre := (List.range 24).map (fun i => (100 + i, { bytes := 0, band := 0 })) }

/-- Queue 0 at 0x1000 holds the records given: their EOS bit and bytes. -/
def withQueue (l : List (Bool × List Byte)) (x : Tile) : Tile :=
  l.foldl (fun y e => y.appendRecord 0 (recordBytes e.2.length (if e.1 then 1 else 0) 1 0 0 0 e.2)) ({ x with rega0 := 0xC }.setQcfg 0 (qPack 0 0 true 0 0x1000))

/-! ### A state and operands for the hypotheses of every statement, at the ends of their ranges -/

theorem witness_AluWritesTableValue : (user [(1, 5), (2, 7)]).plain 1 = true ∧ (15 : Nat) < 16 := by decide +kernel

theorem witness_MultiplyDivideAndCountBits :
    (user [(1, 1 <<< 63), (2, -1)]).plain 1 = true ∧ (user [(2, -1)]).getS 2 ≠ 0 ∧ (user [(2, 0)]).getS 2 = 0 := by decide +kernel

theorem witness_CompareAndImmediateFormsWriteTableValue : (user [(1, 5)]).plain 1 = true := by decide +kernel

theorem witness_ConstantsAndFieldsWriteTableValue :
    (user []).plain 1 = true ∧ (user []).plain 2 = true ∧ (1 : BitVec 6).toNat + (62 : BitVec 6).toNat + 1 ≤ 64 ∧
      64 < (0xFC1 : BitVec 32).toNat % 64 + (0xFC1 : BitVec 32).toNat / 64 + 1 ∧ (0xFC1 : BitVec 32).toNat < 2 ^ 12 := by decide +kernel

theorem witness_LocalLoadsReadBytes :
    let s := user [(1, 0x3FFFF), (2, 0x3FFFE), (3, 0x3FFFC), (4, 0x3FFF8)]
    s.plain 1 = true ∧ s.pone = false ∧ s.here.errs = [] ∧ s.localOk (s.address 1 (0 : BitVec 10) 1) 1 .load = true ∧
      s.localOk (s.address 2 (0 : BitVec 10) 2) 2 .load = true ∧ s.localOk (s.address 3 (0 : BitVec 10) 4) 4 .load = true ∧
      s.localOk (s.address 4 (0 : BitVec 10) 8) 8 .load = true := by decide +kernel

theorem witness_LocalStoresWriteOnlyTheirBytes :
    let s := user [(1, 0x40000), (2, 0)]
    s.plain 1 = true ∧ s.localOk (s.address 1 (-1 : BitVec 10) 1) 1 .store = true ∧ s.localOk (s.address 1 (-1 : BitVec 10) 2) 2 .store = true ∧
      s.localOk (s.address 1 (-1 : BitVec 10) 4) 4 .store = true ∧ s.localOk (s.address 1 (-1 : BitVec 10) 8) 8 .store = true ∧
      s.localOk (s.address 2 (0 : BitVec 10) 8) 8 .store = true := by decide +kernel

theorem witness_LocalAccessRaisesFirstCause :
    let lock : Tile → Tile := fun x => { x with locks := [{ lo := 64, len := 64, kind := .write, use := .span, strand := 1, tok := 0 }] }
    let s := user [(1, 0x40000), (2, 0x3FFFF), (3, 127)] lock
    let u := user [(2, 0x3FFC0)] fullLog
    s.pone = false ∧ 2 ^ 18 ≤ (s.address 1 (0 : BitVec 10) 8).toNat ∧ (s.address 2 (0 : BitVec 10) 8).toNat < 2 ^ 18 ∧
      (s.address 2 (0 : BitVec 10) 8).toNat % 8 ≠ 0 ∧ (s.address 3 (0 : BitVec 10) 1).toNat % 1 = 0 ∧ s.here.locked 127 1 .load = true ∧
      s.here.locked 127 1 .store = true ∧ u.pone = false ∧ u.here.locked 0x3FFC0 8 .store = false ∧
      u.here.retentionOk (isMgmt u.curTile) (linesOf 0x3FFC0 8) = false := by decide +kernel

theorem witness_AtomicsReadModifyWrite :
    let s := user [(1, 0x3FFFC), (2, 0x3FFF8)]
    s.plain 1 = true ∧ s.plain 2 = true ∧ s.here.errs = [] ∧ s.localOk (s.getS 1) 4 .store = true ∧ s.localOk (s.getS 2) 8 .store = true := by
  decide +kernel

theorem witness_BitFieldsReadAndWrite :
    let s := user [(1, 0x1FFFC0)]
    s.plain 1 = true ∧ s.here.errs = [] ∧ (s.getS 1).toNat + 64 ≤ 2 ^ 21 ∧ s.here.locked 0x3FFF8 8 .load = false ∧
      s.here.locked 0x3FFF8 8 .store = false ∧ s.here.retentionOk (isMgmt s.curTile) (linesOf 0x3FFF8 8) = true := by decide +kernel

theorem witness_FullEmptyWordsAndSideBand :
    let s := user [(1, 0x3FFFC), (2, 0), (3, 0x3FFC0)] (fun x => x.setFull 0x3FFFC true)
    s.plain 1 = true ∧ s.here.errs = [] ∧ (∀ n, n ≠ s.curStrand → (s.here.strand n).st ≠ .wait) ∧ s.localOk (s.getS 1) 4 .ldfeKeep = true ∧
      s.localOk (s.getS 1) 4 .ldfe = true ∧ s.here.full 0x3FFFC = true ∧ s.localOk (s.getS 2) 4 .store = true ∧ s.here.full 0 = false ∧
      (s.getS 3).toNat < 2 ^ 18 ∧ (s.getS 3).toNat % 64 = 0 ∧ s.here.locked 0x3FFC0 64 .peek = false ∧
      s.here.locked 0x3FFC0 64 .store = false ∧ s.here.retentionOk (isMgmt s.curTile) [0xFFF] = true := by decide +kernel

theorem witness_TransfersGoToTheirTargets :
    let s := user [(1, 0), (2, 1), (3, 0x300)]
    s.plain (wordsOf (.bz 1 0x40)) = true ∧ s.plain (wordsOf (.bcmp 1 2 0 0x40)) = true ∧ (s.getS 1 == 0) = true ∧ (s.getS 2 == 0) = false ∧
      (s.own : Int) + 4 * s.imm (0x40 : BitVec 16) = 0x200 ∧ s.canGoTo 0x200 = true ∧
      (s.own : Int) + 4 * s.imm (-64 : BitVec 22) = 0 ∧ s.canGoTo 0 = true ∧ s.canGoTo (s.getS 3).toNat = true := by decide +kernel

theorem witness_TransferAndSequenceBounds :
    let s := user [(1, 0x10000), (2, 0x1000), (3, 0xFFE), (4, 0xFFC)]
    let k := s.cluster (clusterOf s.curTile)
    let u := user [] (inStrand (fun r => { r with pc := 0xFFFC }))
    (s.own : Int) + 4 * s.imm (-65 : BitVec 22) < 0 ∧ (s.clim : Int) ≤ s.own + 4 * s.imm (0x3C0 : BitVec 22) ∧
      (s.own : Int) + 4 * s.imm (0x3BF : BitVec 22) = 0xFFC ∧ (0xFFC : Int) < s.clim ∧ k.lands 0xFFC = false ∧ 2 ^ 16 ≤ (s.getS 1).toNat ∧
      s.clim ≤ (s.getS 2).toNat ∧ (s.getS 3).toNat < s.clim ∧ (s.getS 3).toNat % 4 ≠ 0 ∧ (s.getS 4).toNat % 4 = 0 ∧
      u.me.st = .run ∧ innermost u.me.lstk = none ∧ u.own + 4 = 0x10000 := by decide +kernel

theorem witness_CountedLoopsPushSkipAndCount :
    let s := user [(1, 0xFFFFFFFF), (2, 0)]
    let u := fun cnt => user [] (inStrand (fun r => { r with pc := 0xFFF8, lstk := #v[entPack false 0 0xFFF8 cnt, 0, 0, 0] }))
    s.own % 4 = 0 ∧ s.plain 1 = true ∧ s.plain 2 = true ∧ s.own + 4 * (0x3FBF : BitVec 16).toNat ≤ 0xFFFC ∧ (s.getS 1).toNat < 2 ^ 32 ∧
      (s.getS 1).toNat ≠ 0 ∧ s.own + 4 * (0x3FBE : BitVec 16).toNat + 4 < 0x10000 ∧ s.getS 2 = 0 ∧
      (u 2).me.st = .run ∧ (u 2).me.stepping = false ∧ (u 2).me.touched = [] ∧ (u 2).me.pfx = [] ∧
      (u 2).me.lstk = #v[entPack false 0 (u 2).me.pc.toNat 2, 0, 0, 0] ∧ (u 1).me.lstk = #v[entPack false 0 (u 1).me.pc.toNat 1, 0, 0, 0] ∧
      (u 1).me.pc.toNat < 0xFFFC := by decide +kernel

theorem witness_BreakPopsTheInnermostLoop :
    let u := fun fin => user [] (inStrand (fun r => { r with lstk := #v[entPack false 0x80 fin 2, 0, 0, 0] }))
    (u 0xFFF8).me.stepping = false ∧ (u 0xFFF8).me.touched = [] ∧ innermost (u 0xFFF8).me.lstk = some 0 ∧
      entEnd (lstkAt (u 0xFFF8).me.lstk 0) + 4 ≠ 0x10000 ∧ entEnd (lstkAt (u 0xFFFC).me.lstk 0) + 4 = 0x10000 ∧
      innermost (user []).me.lstk = none := by decide +kernel

theorem witness_StreamLoopExaminesQueue :
    let s := user [] (withQueue [(false, [1, 2])])
    let u := user [] (withQueue [(true, [])])
    s.plain 1 = true ∧ s.own % 4 = 0 ∧ s.own + 4 * (0x3FBE : BitVec 16).toNat < 0xFFFC ∧ s.here.ringExists s.supervisor 0 = true ∧
      s.here.headRec 0 = .record false 0 32 ∧ u.here.ringExists u.supervisor 0 = true ∧ u.here.headRec 0 = .record true 0 16 := by decide +kernel

theorem witness_MfsReadsControlRegisters :
    (user []).plain 1 = true ∧ (supervisor []).plain 1 = true ∧ (supervisor []).supervisor = true := by decide +kernel

theorem witness_ControlRegisterWritesAndPrivilege :
    (user [(1, 0x7FFFFFFFFFFFFFFF)]).plain 1 = true ∧ ((user [(1, 0x7FFFFFFFFFFFFFFF)]).getS 1).getLsbD 63 = false ∧ (user []).supervisor = false ∧
      (supervisor []).plain 1 = true ∧ (supervisor []).supervisor = true ∧ 512 ≤ (512 : BitVec 10).toNat ∧ 519 ≤ (519 : BitVec 10).toNat := by
  decide +kernel

theorem witness_ClockScheduleAndProfileInstructions :
    let s := user [(1, 63)] (inStrand (fun r => { r with cur := 3, schcLen := 4 }))
    let u := user [] (inStrand (fun r => { r with cur := 4, schcLen := 4 }))
    s.plain 1 = true ∧ s.supervisor = false ∧ s.me.cur.toNat < s.me.schcLen.toNat ∧ u.plain 1 = true ∧ u.me.schcLen.toNat ≤ u.me.cur.toNat := by
  decide +kernel

theorem witness_TrapsAndReturn :
    let u := user [] (inStrand (fun r => { r with th := true, tpc := 0x203 }))
    (user []).me.stepping = false ∧ (user []).me.touched = [] ∧ 0x40 ≤ (0x40 : BitVec 7).toNat ∧ 0x80 ≤ (0x80 : BitVec 8).toNat ∧
      (user []).me.th = false ∧ u.me.th = true ∧ u.me.stepping = false ∧ u.me.touched = [] := by decide +kernel

theorem witness_TrapEntryFollowsThePolicy :
    let s := user [] (inStrand (fun r => { r with tvec := 0x801 }))
    let u := user [] (inStrand (fun r => { r with tvec := 0x801, th := true }))
    policyOf s.me.tpol 0x09 = 0 ∧ s.me.tvec.getLsbD 0 = true ∧ s.me.th = false ∧ s.here.dbg.en = false ∧ (0x37 : BitVec 8).toNat < 0x38 ∧
      0x3A < (0x3B : BitVec 8).toNat ∧ policyOf s.me.tpol 0x34 = 1 ∧ policyOf s.me.tpol 0x38 = 2 ∧ policyOf u.me.tpol 0x09 = 0 ∧ u.me.th = true ∧
      (user []).me.tvec.getLsbD 0 = false := by decide +kernel

theorem witness_NopAndBreakpoint : (user []).plain 1 = true ∧ (user []).me.pfx = [] := by decide +kernel

theorem witness_MarkersPrefixesAndRetire :
    let s := user []
    s.plain 1 = true ∧ s.here.mmaOf s.curStrand = none ∧ s.me.held = none ∧ (∀ k, (s.me.tok k).st ≠ .pending) ∧ s.me.pfx = [] := by decide +kernel

theorem witness_VectorOperationsByElement :
    let s := user []
    s.here.errs = [] ∧ s.plain (wordsOf (.vadd 1 2 3 0 8)) = true ∧ s.plain (wordsOf (.vops 1 2 3 10 0x0A 5)) = true := by decide +kernel

theorem witness_IntegerElementOperations :
    8 ∈ [8, 16, 32, 64] ∧ 255 < 2 ^ 8 ∧ 64 ∈ [8, 16, 32, 64] ∧ 0xFFFFFFFFFFFFFFFF < 2 ^ 64 := by decide

theorem witness_VectorMovesAndReductions :
    let s := user []
    s.plain 1 = true ∧ s.here.errs = [] ∧ 8 ≤ (tyOf 0).width ∧ (7 : BitVec 6).toNat < 512 / (8 * 2 ^ (3 : BitVec 2).toNat) ∧
      (tyOf 8).isFloat = true ∧ tyOf 3 = .int true (tyOf 3).width := by decide +kernel

theorem witness_PredicateInstructions : (user []).plain 1 = true ∧ 5 ≤ 5 ∧ (1 : BitVec 6) ≠ 0 ∧ (15 : Nat) < 16 := by decide +kernel

theorem witness_VectorMemoryAccesses :
    let s := user [(1, 0x3FFC0), (2, 0x200000 - 64 * 8), (3, 0x3FFFC)] (inStrand (fun r => { r with p := r.p.set 2 0x1234 }))
    let u := user [(3, 0x3FFFC)]
    s.plain 1 = true ∧ s.pone = false ∧ s.here.errs = [] ∧ s.here.locks = [] ∧ (s.address 1 (0 : BitVec 8) 64).toNat < 2 ^ 18 ∧
      (s.address 1 (0 : BitVec 8) 64).toNat % 64 = 0 ∧ s.here.retentionOk (isMgmt s.curTile) [0xFFF] = true ∧
      s.here.locked 0x3FFC0 64 .load = false ∧ s.here.locked 0x3FFC0 64 .store = false ∧
      fmtAssigned ((s.getP 2).toNat % 2 ^ 16 / 256) = true ∧ (s.getS 2).toNat + 64 * 8 ≤ 2 ^ 21 ∧ s.here.retu + 64 * 64 ≤ 65536 ∧
      (∀ j < 16, active (u.getP 0) 32 j = true →
        (u.getS 3 + BitVec.ofNat 64 (lineElem (u.getV 1).toNat 32 j * 4)).toNat < 2 ^ 18 ∧
        (u.getS 3 + BitVec.ofNat 64 (lineElem (u.getV 1).toNat 32 j * 4)).toNat % 4 = 0) ∧
      (∀ i < 16, 15 < i → active (u.getP 0) 32 i = true → u.getS 3 ≠ 0) := by decide +kernel

theorem witness_AccumulatorUpdates :
    let s := user [(1, 0x7FFF)] (fun x => { x with accPre := (List.range 24).map (fun i => (i, {})), acc := x.acc.set 1 { anc := 0x8000 } })
    s.plain 1 = true ∧ s.here.mmaq = [] ∧ s.me.held = none ∧ s.here.errs = [] ∧ s.here.retu + 2560 ≤ 65536 ∧
      (s.here.accAt 0).anc = (s.here.accAt 2).anc ∧ (s.here.accAt 0).anc ≠ (s.here.accAt 1).anc := by decide +kernel

theorem witness_AccumulatorReadOut :
    let s := user [(1, 0x40000 - 64), (2, 0x3F000)] (fun x => { x with acc := x.acc.set 1 { elems := [(255, { sum := 0x80 <<< 79, x := true })] } })
    s.plain 1 = true ∧ s.here.mmaq = [] ∧ s.me.held = none ∧ s.here.errs = [] ∧ s.here.locks = [] ∧ rowOverflows (s.here.accAt 0) 15 = false ∧
      rowOverflows (s.here.accAt 1) 15 = true ∧ (s.getS 1).toNat % 64 = 0 ∧ (s.getS 1).toNat + 64 ≤ 2 ^ 18 ∧ 15 + 0 < 16 ∧
      s.here.retentionOk (isMgmt s.curTile) (linesOf (s.getS 1).toNat 64) = true ∧ (s.getS 2).toNat + 4096 ≤ 2 ^ 18 ∧
      (∀ e < 256, (accQ ((s.here.accAt 0).elem e)).2 = false) ∧ s.here.retentionOk (isMgmt s.curTile) (linesOf (s.getS 2).toNat 4096) = true ∧
      s.here.retu + 2560 ≤ 65536 ∧
      (∀ e < 256, rawValid (s.here.bytes ((s.getS 2).toNat + 16 * e) 16) = true ∧
        ofBytes (((s.here.bytes ((s.getS 2).toNat + 16 * e) 16).drop 12).take 2) =
          ofBytes (((s.here.bytes (s.getS 2).toNat 16).drop 12).take 2)) := by decide +kernel

/-- A descriptor of KLEN rows of k blocks at lo, of class 0 (R189). -/
def mmaDesc (lo k : Nat) : Desc := BitVec.ofNat 256 (lo + 64 * k * 2 ^ 32 + k * 2 ^ 64)

theorem witness_MmaIssues :
    let s := user [] (inStrand (fun r => { r with d := (r.d.set 0 (mmaDesc 0 1)).set 1 (mmaDesc 0x3FC00 1) }))
    let okay : Desc → Desc → Bool := fun da d => d.toNat &&& dNamed == d.toNat && dBase d % 64 == 0 && dStride d % 64 == 0 && decide (0 < dKlen d) &&
      decide (dKlen d ≤ 64) && dKlen d == dKlen da && decide (dClass d ≤ 5) && decide (dBase d + dLen d ≤ 0x40000)
    s.plain 1 = true ∧ s.here.mmaq = [] ∧ s.me.held = none ∧ s.here.retu + 2560 ≤ 65536 ∧ (s.getTok 15).st ≠ .pending ∧
      okay (s.getD 0) (s.getD 0) = true ∧ okay (s.getD 0) (s.getD 1) = true ∧ dBase (s.getD 1) + dLen (s.getD 1) = 0x40000 ∧ s.here.locks = [] := by
  decide +kernel

/-- An MMA of two blocks whose operand lines hold format 0x10 at scale 1, with the blocks of mtm done. -/
def mmaState (mtm : BitVec 64) : State :=
  user [] (fun x => { x with
    band := (List.range 64).map (fun i => (i, 0x10800000)),
    mmaq := [{ strand := 0, own := 0x80, acc := 1, dA := mmaDesc 0 2, dB := mmaDesc 0x800 2, tok := 3, mtm := mtm, before := {} }] })

theorem witness_MmaBlockAccumulates :
    let s := mmaState 1
    let u := mmaState 3
    let m : Mma := { strand := 0, own := 0x80, acc := 1, dA := mmaDesc 0 2, dB := mmaDesc 0x800 2, tok := 3, mtm := 1, before := {} }
    s.ev.nums = [] ∧ (s.tile s.ev.tile).errs = [] ∧ (s.tile s.ev.tile).mmaq = [m] ∧
      (List.range (dKlen m.dA)).find? (fun i => !m.mtm.getLsbD i) = some 1 ∧ ((s.tile 0).mmaView m 1).checkBlock m 1 = none ∧
      (u.tile 0).mmaq = [{ m with mtm := 3 }] ∧ (List.range (dKlen m.dA)).find? (fun i => !(3 : BitVec 64).getLsbD i) = none := by decide +kernel

/-- Products of zeros have the sum 0, which diverges from nothing; a bit turned over far above the bound does (R428). -/
theorem witness_MmaBlockAccumulates_shadow :
    let rows := List.replicate 16 (List.replicate 4 (Ext.fin false 0 0 false))
    let sums := List.replicate 256 ({} : AccElem)
    shadowFails 0 rows rows sums (bend [] sums) = false ∧ shadowFails 0 rows rows sums (bend [255, 2 ^ 60, 0] sums) = true := by decide +kernel

theorem witness_DescriptorAndCodebookLoads :
    let s := user [(1, 0x3FFE0)]
    s.plain 1 = true ∧ s.here.errs = [] ∧ s.here.locks = [] ∧ s.here.mmaq = [] ∧ s.me.held = none ∧ (s.getS 1).toNat + 32 ≤ 2 ^ 18 ∧
      (s.getS 1).toNat % 32 = 0 ∧ (s.getS 1 + BitVec.ofNat 64 (64 * (0 : BitVec 8).toNat)).toNat + 32 ≤ 2 ^ 18 ∧ (3 : BitVec 4).toNat < 4 := by
  decide +kernel

theorem witness_WaitsCompleteWhenMet :
    let pend : Token := { st := .pending, use := .copy }
    let s := user [(1, 0x8001), (2, 0), (3, 0xE0)] (fun x => inStrand (fun r => { r with k := (r.k.set 0 pend).set 15 { st := .set, status := 9 } }) x)
    s.me.held = none ∧ s.plain 1 = true ∧ s.plain 2 = true ∧ (s.getTok 15).st ≠ .pending ∧ (s.getTok 14).st ≠ .pending ∧
      (s.getS 2).toNat % 2 ^ 16 = 0 ∧ ((s.getS 1).toNat % 2 ^ 16).testBit 15 = true ∧
      (∀ j < 15, ((s.getS 1).toNat % 2 ^ 16).testBit j = true → (s.getTok (BitVec.ofNat 4 j)).st = .pending) ∧
      (s.me.k.toList.filter (fun t => t.st == .pending && ([.copy] : List TokUse).contains t.use)).length ≤ (1 : BitVec 8).toNat ∧
      (s.me.k.toList.filter (fun t => t.st == .pending && ([.mma] : List TokUse).contains t.use)).length ≤ (0 : BitVec 8).toNat ∧
      s.me.refusal = false ∧ s.outstanding 2 = 0 ∧
      (∀ b < 64, (s.getS 3).getLsbD b = true → (s.strand (16 * clusterOf s.curTile + b / 4) (BitVec.ofNat 2 (b % 4))).st = .idle) ∧
      (∀ u ∈ tilesOf (clusterOf s.curTile), ∀ n, (u, n) ≠ (s.curTile, s.curStrand) → (s.strand u n).st ≠ .wait) := by decide +kernel

theorem witness_WaitsPollWaitAndEscalate :
    let s := user [] (inStrand (fun r => { r with k := r.k.set 5 { st := .pending, use := .copy }, wtoAddr := 0x100, wtoCount := 15, dla := 9, dt := r.dt.set 0 7 }))
    s.me.held = none ∧ (s.getTok 5).st = .pending ∧ s.me.wait = none ∧ s.plain 1 = true ∧ s.expired s.curTile (s.deadlineOf 1) = false ∧
      s.expired s.curTile (s.deadlineOf 7) = false ∧ 0xFFFC < 65536 ∧ (4 : BitVec 8) ∉ ([1, 2, 3] : List (BitVec 8)) ∧
      (3 : BitVec 8) ∈ ([1, 2, 3] : List (BitVec 8)) ∧ s.me.wtoCount ≠ 0 ∧ s.me.wtoAddr.toNat = 0x100 ∧ s.me.dlpol = 16 := by decide +kernel

theorem witness_ReceiveTakesTheHeadRecord :
    let s := user [] (withQueue [(true, List.replicate 48 1)])
    s.plain 1 = true ∧ s.here.ringExists s.supervisor 0 = true ∧ s.here.headRec 0 = .record true 0 64 := by decide +kernel

/-- Strand 0 of tile 0 in a running context 0 of 32 tiles on clusters 0 and 3, with group 5 of the virtual tiles 1, 4 and 17 (tiles 1, 4, 49).
The cluster's translation cache holds page 0 (read, write) and page 1 (read) of 1 GiB. Its clock stands at 100. -/
def inCtx (l : List (BitVec 6 × Word)) (f : Tile → Tile := id) : State :=
  let s := user l f
  let leaf : Nat → TcEntry := fun i => { ctx := 0, page := i, size := 2 ^ 30, leaf := BitVec.ofNat 64 (3 + 4 + (if i = 0 then 8 else 0) + 0x40000000 * i) }
  let s := s.setCluster 0 { s.cluster 0 with ctx := some 0, vci := some 0, tcache := [leaf 0, leaf 1] }
  let s := s.setCluster 3 { s.cluster 3 with ctx := some 0, vci := some 1 }
  s.setCtx 0 { started := true, resident := true, running := true, owner := 7, tiles := 32, tmap := [(0, 0), (1, 3)], groups := [(5, [1, 4, 17])], num := 1, clock := 100 }

/-- A node of the tree with two children, one of which has arrived when some is true. -/
def node (some : Bool) : TreeNode :=
  { id := .die 0, parent := .some (.module 0), kids := [.cluster 0, .cluster 3], arrived := if some then [(.cluster 3, arriveZero 1)] else [],
    forwarded := false, leaving := [], num := 1 }

/-- The context with that node, and one message in flight. -/
def atNode (n : TreeNode) (g : Msg) (f : Tile → Tile := id) : State :=
  let s := inCtx [] f
  { s.setCtx 0 { s.ctx 0 with nodes := [n] } with net := [g], ev := { i := 0 } }

/-- A decision to commit superstep 1. -/
def commit : Decide :=
  { num := 1, res := .commit, atile := 0, cause := 0, op := 0, value := 0, flags := 0, aflags := 0, nextNum := 2, nextAtt := 0, durable := 0,
    hold := false, ck := false }

/-- An arrival of a strand with a deadline. -/
def arrival : Arrival := { op := 0, value := 0, ck := false, flags := 0, dest := 1, next := 0x104, deadline := some 100 }

theorem witness_BarriersAndTheirMessages :
    let s := user []
    let u := user [] (fun x => { x with irv := true })
    s.curTile = 0 ∧ isMgmt s.curTile = false ∧ s.here.mmaq = [] ∧ s.me.held = none ∧ s.me.refusal = false ∧ s.me.wait = none ∧
      s.own + 4 ≠ 0x10000 ∧ s.cbarBlocked = false ∧ s.plain 1 = true ∧ u.plain 1 = true ∧ u.here.irv = true ∧ s.here.irv = false ∧
      s.here.capture = none := by decide +kernel

theorem witness_BarriersAndTheirMessages_node :
    let s := fun b => atNode (node b) (.arrive 0 (.cluster 0) (.die 0) (arriveZero 1))
    let w := atNode (node true) (.withdraw 0 (.cluster 3) (.die 0) 1)
    let v := atNode { node true with forwarded := true } (.withdraw 0 (.cluster 3) (.die 0) 1)
    let kept : Bool → List (NodeId × Arrive) := fun b => (node b).arrived.filter (fun e => e.1 != .cluster 0) ++ [(.cluster 0, arriveZero 1)]
    let full : Bool → Bool := fun b => (node b).kids.all (fun k => (kept b).any (fun e => e.1 == k))
    (∀ b, (s b).oldest (s b).ev.i = true ∧ ((s b).ctx 0).node (.die 0) = some (node b) ∧ (node b).parent = some (.module 0) ∧
      ({ s b with net := listDel (s b).net (s b).ev.i } : State).overtaken 0 (.cluster 0) (.die 0) = false ∧ (arriveZero 1).num = (node b).num) ∧
      full false = false ∧ full true = true ∧ (node true).forwarded = false ∧ w.oldest w.ev.i = true ∧
      (node true).arrived.any (fun e => e.1 == .cluster 3) = true ∧ v.oldest v.ev.i = true ∧ (v.ctx 0).node (.die 0) = some { node true with forwarded := true } ∧
      (node true).leaving = [] := by decide +kernel

theorem witness_BarriersAndTheirMessages_down :
    let n : TreeNode := { node true with forwarded := true, leaving := [.cluster 3] }
    let s := atNode n (.wconf 0 (.module 0) (.die 0) 1)
    let u := atNode n (.decide 0 (.module 0) (.die 0) commit)
    s.oldest s.ev.i = true ∧ (s.ctx 0).node (.die 0) = some n ∧ n.parent = some (.module 0) ∧ (∀ t, NodeId.die 0 ≠ .tile t) ∧ u.oldest u.ev.i = true := by
  refine ⟨by decide +kernel, by decide +kernel, by decide +kernel, ?_, by decide +kernel⟩
  intro t h
  cases h

theorem witness_BarriersAndTheirMessages_tile :
    let s := atNode (node true) (.wconf 0 (.cluster 0) (.tile 0) 1) (fun x => { x with bar := .withdrawing })
    let u := atNode (node true) (.decide 0 (.cluster 0) (.tile 0) commit)
    let v := atNode (node true) (.decide 0 (.cluster 0) (.tile 0) commit) (inStrand (fun r => { r with st := .halt }))
    let d := atNode (node true) (.decide 0 (.cluster 0) (.tile 0) commit) (fun x => inStrand (fun r => { r with st := .wait, arrival := some arrival }) { x with bar := .sent })
    s.oldest 0 = true ∧ (s.tile 0).bar = .withdrawing ∧ (∀ m, ((s.tile 0).strand m).arrival = none) ∧ u.oldest 0 = true ∧
      (u.cluster (clusterOf 0)).lost = false ∧ (u.tile 0).frozen = false ∧ (v.tile 0).frozen = true ∧ d.ev.tile = 0 ∧ d.ev.n = (0 : BitVec 2).toNat ∧
      d.ctxOf 0 = some 0 ∧ (d.strand 0 0).st = .wait ∧ (d.strand 0 0).arrival = some arrival ∧ arrival.deadline = some 100 ∧ arrival.expired = false ∧
      d.expired 0 100 = true ∧ (d.tile 0).bar = .sent := by decide +kernel

theorem witness_RemoteInstructionsSendDeltas :
    let s := inCtx [(1, 49 * 2 ^ 18), (2, 17 * 2 ^ 18 + 0x3FFF8), (3, 17 * 2 ^ 18), (4, 2048), (5, 0x3F7F0), (6, 17 * 2 ^ 18 + 0x3FFC0),
      (7, 2 ^ 63 + 5 * 2 ^ 55), (8, 2 ^ 63 + 5 * 2 ^ 55)]
    let tile : Word → Nat → Bool := fun adr t => decide (adr.toNat < 2 ^ 45) && decide (adr.toNat / 2 ^ 18 < s.myCtx.tiles) && s.myCtx.tileOf (adr.toNat / 2 ^ 18) == some t
    let group : Word → Nat → List Nat → Bool := fun adr g ms => adr.toNat / 2 ^ 63 == 1 && adr.toNat % 2 ^ 55 / 2 ^ 18 == 0 && bitsOf adr.toNat 62 55 == g &&
      SMap.get [] s.myCtx.groups g == ms && !ms.isEmpty
    s.plain 1 = true ∧ isMgmt s.curTile = false ∧ s.me.oakTile.toNat < 65535 - 1024 ∧ s.me.oakCtx.toNat < 65535 - 1024 ∧
      s.me.oakSys.toNat < 65535 - 1024 ∧ s.here.errs = [] ∧ s.here.locks = [] ∧ tile (s.getS 2) 49 = true ∧
      (s.getS 2).toNat % 2 ^ 18 % 8 = 0 ∧ (s.getS 2).toNat % 2 ^ 18 % redSize 0 = 0 ∧ tile (s.getS 6) 49 = true ∧
      ((s.getS 6).toNat % 2 ^ 18 : Int) + 64 * (0 : BitVec 8).toInt < 2 ^ 18 ∧ (s.getS 6).toNat % 2 ^ 18 % 64 = 0 ∧ s.getP 0 ≠ 0 ∧
      activeMask (s.getP 0) (8 * redSize (vrredOp 0 3)) ≠ 0 ∧ tile (s.getS 3) 49 = true ∧ (s.getS 3).toNat % 2 ^ 18 = 0 ∧
      (s.getS 4).toNat ≤ 2048 ∧ (s.getS 5).toNat % 16 = 0 ∧ (s.getS 5).toNat + (s.getS 4).toNat < 2 ^ 18 ∧ group (s.getS 7) 5 [1, 4, 17] = true ∧
      (s.getS 7).toNat % 2 ^ 18 = 0 ∧ ([1, 4, 17] : List Nat).length ≤ 1024 := by decide +kernel

/-- A delta of context 0 from tile 1 (superstep 1) to dest. -/
def aDelta (dest : DeltaDest) (body : DeltaBody) : Delta :=
  { ctx := 0, srcVt := 1, srcTile := 1, strand := 0, num := 1, att := 0, seq := 0, lane := 0, dest := dest, body := body, cls := .ctx, acct := 0 }

/-- The context in superstep 1 of tiles 0 and 1, with one message in flight. -/
def inFlight (g : Msg) (f : Tile → Tile := id) : State :=
  let s := inCtx [] (fun x => f { x with num := 1 })
  { s.setTile 1 { s.tile 1 with num := 1 } with net := [g], ev := { i := 0 } }

theorem witness_DeltasArriveAndAreAnswered :
    let d := aDelta (.tile 0) (.store 0x3FFF8 0xFF 7)
    let s := inFlight (.delta d)
    let o := inFlight (.delta { d with num := 0 })
    let f := inFlight (.delta d) (fun x => { x with inbox := List.replicate 2731 { aDelta (.tile 0) (.store 0 0 0) with wide := true, spilled := true } })
    let g := aDelta (.memory 0 false) (.store 64 0xFF 7)
    let m := inFlight (.delta g)
    s.net[s.ev.i]? = some (.delta d) ∧ d.dest = .tile 0 ∧ (s.cluster (clusterOf 0)).lost = false ∧ s.ctxOf 0 = some d.ctx ∧
      d.current (s.tile 0).num (s.tile 0).att = true ∧ (s.tile 0).placement d = some { d with spilled := false } ∧
      ({ d with num := 0 } : Delta).current (o.tile 0).num (o.tile 0).att = false ∧ (f.tile 0).placement d = none ∧ (f.tile 0).dbg.halted = false ∧
      m.net[m.ev.i]? = some (.delta g) ∧ isMgmt g.srcTile = false ∧ ((m.ctx g.ctx).fatal || !g.current (m.ctx g.ctx).num (m.ctx g.ctx).att) = false ∧
      m.bufferRoom g 0 false = true ∧ ((m.ctx g.ctx).fatal || !({ g with num := 3 } : Delta).current (m.ctx g.ctx).num (m.ctx g.ctx).att) = true := by
  decide +kernel

theorem witness_DeltasArriveAndAreAnswered_answers :
    let d := aDelta (.tile 0) (.store 0x3FFF8 0xFF 7)
    let s := inFlight (.ack d)
    let r := inFlight (.refusal d)
    let b := inFlight (.baseCommit 0 0 1 1)
    let k := inFlight (.arrayAck 0 0 1 false)
    s.net[s.ev.i]? = some (.ack d) ∧ s.ctxOf d.srcTile = some d.ctx ∧ (s.tile d.srcTile).num = d.num ∧ (s.tile d.srcTile).att = d.att ∧
      r.net[r.ev.i]? = some (.refusal d) ∧ r.ctxOf d.srcTile = some d.ctx ∧ (r.tile d.srcTile).num = d.num ∧ (r.tile d.srcTile).att = d.att ∧
      b.net[b.ev.i]? = some (.baseCommit 0 0 1 1) ∧ b.ev.i = 0 ∧ k.net[k.ev.i]? = some (.arrayAck 0 0 1 false) := by decide +kernel

theorem witness_GlobalAccessesComplete :
    let g : Option GRead → State := fun x => inCtx [(1, 2 ^ 48 - 8), (2, 2 ^ 48 - 64), (3, 2 ^ 30 - 8), (4, 2 ^ 30 - 64)] (inStrand (fun r => { r with gread := x }))
    let s := g (some (.data 0xFFFF false))
    s.plain 1 = true ∧ s.supervisor = false ∧ s.pone = false ∧ s.me.oakCtx.toNat < 60000 ∧ s.me.oakSys.toNat < 60000 ∧
      s.me.gread = some (.data 0xFFFF false) ∧ (3 : BitVec 3).toNat ≤ 6 ∧ (0xFFFF : Line).toNat < 2 ^ 64 ∧ (s.getS 1).toNat < 2 ^ 48 ∧
      (s.getS 1).toNat % 8 = 0 ∧ (s.getS 2).toNat < 2 ^ 48 ∧ (s.getS 2).toNat % 64 = 0 ∧
      s.storeTo (s.getS 3) = .place 0 (2 ^ 30 - 8) 0 false ∧ (s.getS 3).toNat < 2 ^ 47 ∧ (s.getS 3).toNat % 8 = 0 ∧ s.me.vpm = 0 ∧
      (((List.range 8).filter (active (s.getP 0) 64)).all (fun j =>
        let a := (s.getS 4).toNat + lineElem (s.getV (0 + 1)).toNat 64 j * 8
        decide (a < 2 ^ 47) && a % 8 == 0 && match s.storeTo (BitVec.ofNat 64 a) with | .place _ _ _ _ => true | _ => false)) = true := by decide +kernel

theorem witness_GlobalCausesAndCommit :
    let s := inCtx [(1, 1 <<< 48), (2, 2 ^ 48 - 1), (3, 1 <<< 47), (4, 2 ^ 30), (5, 2 ^ 31)]
    s.supervisor = false ∧ s.pone = false ∧ 2 ^ 48 ≤ (s.getS 1).toNat ∧ (s.getS 2).toNat < 2 ^ 48 ∧ (s.getS 2).toNat % 8 ≠ 0 ∧
      2 ^ 47 ≤ (s.getS 3).toNat ∧ (s.getS 3).toNat < 2 ^ 48 ∧ (s.getS 3).toNat % 8 = 0 ∧ (s.getS 4).toNat < 2 ^ 47 ∧
      s.storeTo (s.getS 4) = .bad 0x22 1 ∧ s.storeTo (s.getS 5) = .walk := by decide +kernel

theorem witness_GlobalCausesAndCommit_stripe : 259 ∈ stripeOf 3 ∧ 259 ≠ 3 ∧ 3 ∉ stripeOf 1795 := by decide

theorem witness_GlobalCausesAndCommit_commit :
    let d := aDelta (.memory 0 false) (.store 64 0xFF 7)
    let s := inCtx []
    let k := (placeOf 64).stack
    let t := s.setStack 0 k { s.stackAt 0 k with tbuf := [d] }
    let x := t.stackAt 0 k
    x.tbuf.filter (fun e => e.ctx == 0 && e.num == 1) = [d] ∧ d.body = .store 64 0xFF 7 ∧ d.dest = .memory 0 false ∧ d.desc = none ∧ 64 % 64 = 0 ∧
      x.bad = [] ∧ t.stackFailed 0 k = false ∧ x.poison = [] ∧ x.journal.length < 2 ^ 24 := by decide +kernel

/-- An LDG of s1 by strand 0 that waits for its data. -/
def reading (r : Strand) : Strand :=
  { r with st := .wait, gread := some (.reading 0 64 0 false), wait := some { kind := .named 1 5, instr := .ldg 3 1 1 3, pfx := [], since := 0 } }

/-- An engine operation of strand 0 with descriptor d. -/
def engOp (kind : EngKind) (d : Desc) : EngOp :=
  { kind := kind, next := false, tag := false, glob := false, desc := d, strand := 0, tok := 1, step := 0, seq := 0, ents := [], j := 0, line := 0,
    xlated := false, out := 0, moved := false, again := [], closed := false }

/-- A copy descriptor (R373) and a list descriptor (R370). -/
def copyDesc (src dst len : Nat) : Desc := BitVec.ofNat 256 (src + dst * 2 ^ 64 + len * 2 ^ 96)
def listDesc (at_ n slo span : Nat) : Desc := BitVec.ofNat 256 (at_ + n * 2 ^ 18 + slo * 2 ^ 32 + span * 2 ^ 64)

theorem witness_GlobalAndEngineStepsComplete :
    let w : Walk := { ctx := 0, tile := 0, strand := 0, va := 64, write := true }
    let s : State := { inCtx [] with walks := [w] }
    let u := inCtx [(1, 64)] (inStrand reading)
    let v : State := { u with net := [.baseCommit 0 0 (placeOf 64).stack 1] }
    let a : State := { inCtx [] with net := [.arrayAck 0 0 1 true] }
    let p : Capture := { slot := 0, num := 1, lines := [] }
    let b := inCtx [] (fun x => { x with capture := some p })
    let r : State := { inCtx [] with net := [.refetch 0 64] }
    s.walks[s.ev.i]? = some w ∧ s.walkerHas s.ev.i = true ∧ u.ev.tile = 0 ∧ u.ev.ok = true ∧ (u.strand 0 0).gread = some (.reading 0 64 0 false) ∧ (u.strand 0 0).loadOf = some (64, 8) ∧
      (u.ctxOf 0).any (fun e => u.commitPending e 0 64) = false ∧ (v.ctxOf 0).any (fun e => v.commitPending e 0 64) = true ∧
      (user [(1, 64)] (inStrand reading)).ctxOf 0 = none ∧ a.net[a.ev.i]? = some (.arrayAck 0 0 1 true) ∧ b.ev.tile = 0 ∧
      (b.tile 0).capture = some p ∧ b.ctxOf 0 = some 0 ∧ r.net[r.ev.i]? = some (.refetch 0 64) := by decide +kernel

theorem witness_GlobalAndEngineStepsComplete_engine :
    let c := engOp .copy (copyDesc 0 0x3FFC0 1)
    let f := engOp .fetchl (listDesc 0x3FFF0 1 0 1)
    let s := inCtx [] (fun x => { x with eng := [c] })
    let u := inCtx [] (fun x => { x with eng := [f] })
    s.ev.tile = 0 ∧ (s.tile 0).eng[s.ev.i]? = some c ∧ isMgmt 0 = false ∧ c.kind = .copy ∧ c.glob = false ∧ c.line < cpLen c.desc ∧
      (s.tile 0).errs = [] ∧ (s.tile 0).capture = none ∧ c.tag = false ∧ (s.ctx 0).demand = none ∧ s.ctxOf 0 = some 0 ∧
      (u.tile 0).eng[u.ev.i]? = some f ∧ u.lulled 0 f = false ∧ f.kind = .fetchl ∧ f.ents.length = f.j ∧ f.j < fdNent f.desc ∧ (u.tile 0).errs = [] := by decide +kernel

theorem witness_GlobalAndEngineStepsComplete_lines :
    let n : BitVec 128 := BitVec.ofNat 128 (128 + 0x1000 * 2 ^ 64 + 2 ^ 96 + 2 ^ 104)
    let at1 : Nat → EngLine := fun va => { va := va, leaf := 15, pa := va }
    let f : Nat → Nat → EngOp := fun nent k =>
      { engOp .fetchl (listDesc 0x3FFE0 nent 0 16) with ents := [n], xlated := true, line := k, lines := [at1 128, at1 192] }
    let c : Nat → EngOp := fun k => { engOp .copy (copyDesc 128 0x1000 2) with glob := true, line := k }
    let at_ : EngOp → State := fun e => inCtx [] (fun x => { x with eng := [e] })
    let gives : State → State × LineRead → Nat → Bool := fun s r va => r.2 == .data va (List.replicate 64 0) none && (r.1.ctx 0).demand == none &&
      !s.lulled 0 (c 0) && (s.tile 0).capture.isNone
    let reads : State → Nat → Bool := fun s va => gives s (s.engRead 0 va) va
    let fits : EngOp → Bool := fun e => ((at_ e).tile 0).eng[0]? == some e && e.ents[e.j]? == some n && !e.next &&
      match e.lines[e.position]? with | some l => gives (at_ e) ((at_ e).engReadAt 0 l) (128 + 64 * e.line) | none => false
    fits (f 1 0) = true ∧ fits (f 2 1) = true ∧ fits (f 1 1) = true ∧ enCount n = 2 ∧ (f 1 0).line + 1 ≠ enCount n ∧ (f 2 1).line + 1 = enCount n ∧
      (f 2 1).j + 1 < fdNent (f 2 1).desc ∧ (f 1 1).j + 1 = fdNent (f 1 1).desc ∧ enLocal n 1 / 64 = 65 ∧
      (f 1 0).tag = false ∧ reads (at_ (c 0)) 128 = true ∧ cpSrc (c 0).desc + 64 * (c 0).line = 128 ∧
      cpDst (c 0).desc / 64 + (c 0).line = 64 ∧ (c 0).line + 1 < cpLen (c 0).desc ∧ reads (at_ (c 1)) 192 = true ∧
      cpSrc (c 1).desc + 64 * (c 1).line = 192 ∧ (c 1).line + 1 = cpLen (c 1).desc := by decide +kernel

theorem witness_EngineInstructionsAndProgress :
    let landing : Tile → Tile := fun x => { x with rega0 := 0x5555555555555555, rega1 := 0xAAAAAAAAAAAAAAAA, grpm := 0x100000005 }
    let d : Nat → Desc := fun i => [listDesc 0x3F000 256 0 4096, listDesc 0x3FFF0 1 0x3FFC0 1, copyDesc 0 0x3FFC0 1, copyDesc (2 ^ 47 - 64) 0x3FFC0 1,
      BitVec.ofNat 256 (0x3FF80 + 8 * 2 ^ 64 + 5 * 2 ^ 96 + 2 * 2 ^ 112)].getD i 0
    let s := user [] (fun x => inStrand (fun r => { r with d := #v[d 0, d 1, d 2, d 3, d 4, 0, 0, 0] }) (landing x))
    let x := s.here
    let listOk : Desc → Bool := fun d => d.toNat &&& fdNamed == d.toNat && decide (0 < fdNent d) && decide (fdNent d ≤ 256) && decide (0 < fdSpan d) &&
      decide (fdSpan d ≤ 4096) && fdList d % 16 == 0 && fdSlo d % 64 == 0 && decide (fdList d + 16 * fdNent d ≤ 0x40000) &&
      decide (fdSlo d + 64 * fdSpan d ≤ 0x40000)
    let copyOk : Desc → Bool := fun d => d.toNat &&& cpNamed == d.toNat && decide (0 < cpLen d) && decide (cpLen d ≤ 4096) && cpSrc d % 64 == 0 &&
      cpDst d % 64 == 0 && decide (cpDst d + 64 * cpLen d ≤ 0x40000)
    let lands : Nat → Nat → Bool := fun lo n => (List.range n).all (fun j => x.attr (lo + 64 * j) == 1 || x.attr (lo + 64 * j) == 2)
    let c := s.getD 4
    s.plain 1 = true ∧ isMgmt s.curTile = false ∧ (s.getTok 15).st ≠ .pending ∧ s.here.locks = [] ∧ s.here.eng = [] ∧ s.here.errs = [] ∧
      listOk (s.getD 0) = true ∧ listOk (s.getD 1) = true ∧ lands (fdSlo (s.getD 1)) (fdSpan (s.getD 1)) = true ∧
      copyOk (s.getD 2) = true ∧ lands (cpDst (s.getD 2)) (cpLen (s.getD 2)) = true ∧ cpSrc (s.getD 2) + 64 ≤ cpDst (s.getD 2) ∧
      copyOk (s.getD 3) = true ∧ cpSrc (s.getD 3) < 2 ^ 47 ∧ c.toNat &&& cdNamed = c.toNat ∧ cdNarg c ≤ 8 ∧ cdNcon c = 0 ∧ cdNland c = 0 ∧
      2 ≤ cdDue c ∧ cdPblk c % 64 = 0 ∧ cdPblk c + 128 ≤ 0x40000 ∧ x.inGroup (cdGroup c) = true ∧ s.me.oakCtx.toNat < 65535 := by decide +kernel

theorem witness_EngineInstructionsAndProgress_words :
    let s := user [(1, 0x3FFFF), (2, 0x40000)] (inStrand (fun r => { r with k := r.k.set 1 { st := .set, use := .copy, done := 1 } }))
    s.plain 1 = true ∧ (s.getS 1).toNat < 2 ^ 18 ∧ 2 ^ 18 ≤ (s.getS 2).toNat ∧ s.here.locks.length ≤ 16 ∧ (s.getTok 0).use = .none ∧
      (s.getTok 1).use = .copy := by decide +kernel

/-! ### The supervisor's instructions: blocks and states that each is accepted in -/

/-- Management tile 0 with context 0 of 16 tiles on cluster 0, in the condition given; cluster 1 is released. Its code is a one-word store. -/
def bound (f : Ctx → Ctx) : State :=
  let s := supervisor [(1, 0), (2, 1), (3, 0x3FF80)]
  let s := s.setCtx 0 (f { tiles := 16, owner := 7, tmap := [(0, 0)] })
  let s := s.setCluster 0 { s.cluster 0 with ctx := some 0, vci := some 0, released := true, powered := true, owner := 7 }
  s.setCluster 1 { s.cluster 1 with released := true, powered := true, fenced := false }

/-- The block of 64 bytes that begins with the numbers given, each of its length in bytes. -/
def block (l : List (Nat × Nat)) : List Byte := let b := l.flatMap (fun e => toBytes e.1 e.2); b ++ List.replicate (64 - b.length) 0

theorem witness_SupervisorOperationsAccepted :
    let s := bound id
    let run := bound (fun c => { c with started := true, running := true, resident := true })
    let held := bound (fun c => { c with started := true, held := true, lull := true, resident := true })
    let parked := run.setTile 0 { run.tile 0 with strands := (run.tile 0).strands.set 0 { st := .park } }
    let free : Cluster → Cluster := fun k => { k with ctx := none }
    let loose := (bound id).setCluster 0 (free ((bound id).cluster 0))
    let imgAt := 0x1000
    s.plain 2 = true ∧ s.supervisor = true ∧ (s.getTok 3).st ≠ .pending ∧ s.here.errs = [] ∧ s.curTile ∉ s.ctxTiles (s.getS 1).toNat ∧
      (s.getS 3).toNat % 64 = 0 ∧ (s.getS 3).toNat + 128 ≤ 2 ^ 18 ∧
      s.refusal 0 (.bindBind 4 2 3 0) 1 (block [(1, 0)]) = 0 ∧ held.refusal 0 (.bindUnbind 4 1 0) 0 [] = 0 ∧ s.refusal 0 (.bindFence 4 1 0) 1 [] = 0 ∧
      s.refusal 0 (.bindUnfence 4 1 0) 1 [] = 0 ∧ s.refusal 0 (.tmapMap 4 1 3 0) 0 (block [(4, 0), (2, 0)]) = 0 ∧
      s.refusal 0 (.tmapInval 4 1 3 0) 0 (block [(8, 64), (1, 1)]) = 0 ∧ s.refusal 0 (.tmapGroup 4 1 3 0) 0 (block [(8, 5), (8, 0), (4, 16)]) = 0 ∧
      s.refusal 0 (.codestCode 4 1 3 0) 0 (block [(8, 0), (4, 65536)]) = 0 ∧ s.refusal 0 (.codestLocal 4 1 3 0) 0 (block [(8, 0), (4, 64), (4, 0x3FFC0)]) = 0 ∧
      s.refusal 0 (.codestReg 4 1 3 0) 0 (block [(2, 256), (1, 15)]) = 0 ∧ s.refusal 0 (.codestChunk 4 1 3 0) 0 (block [(8, 0), (4, 64)]) = 0 ∧
      s.refusal 0 (.codestPtab 4 2 3 0) 1023 (block [(8, 0), (8, 0)]) = 0 ∧ s.refusal 0 (.startLaunch 4 1 0) 0 [] = 0 ∧
      held.refusal 0 (.startResume 4 1 3 0) 0 (block [(8, 3)]) = 0 ∧ parked.refusal 0 (.startStrand 4 1 3 0) 0 (block [] ++ block []) = 0 ∧
      run.refusal 0 (.quiesceRequest 4 1 0) 0 [] = 0 ∧ run.refusal 0 (.quiesceCkpt 4 1 0) 0 [] = 0 ∧ run.refusal 0 (.quiesceCancel 4 1 0) 0 [] = 0 ∧
      held.refusal 0 (.quiescePark 4 1 0) 0 [] = 0 ∧ held.refusal 0 (.imgmvSave 4 1 3 0) 0 (block [(8, imgAt), (1, 2)]) = 0 ∧
      held.refusal 0 (.imgmvRestore 4 1 3 0) 0 (block [(8, imgAt)]) = 0 ∧ held.refusal 0 (.imgmvMove 4 1 3 0) 0 (block [(4, 1)]) = 0 ∧
      held.refusal 0 (.keyld 4 1 3 0) 0 (block [(1, 63)] ++ block []) = 0 ∧ held.refusal 0 (.keyz 4 1 0) 0 [] = 0 ∧
      loose.refusal 0 (.scrubCluster 4 1 0) 0 [] = 0 ∧ s.refusal 0 (.scrubPages 4 1 3 0) 65536 (block [(4, 1)]) = 0 ∧
      run.refusal 0 (.forceab 4 1 0) 0 [] = 0 ∧ s.refusal 0 (.bindUnbind 4 1 0) 0x3FFFF [] ≠ 0 := by decide +kernel

theorem witness_SupervisorOperationsAccepted_launch :
    let l := block [(4, 16), (2, 3), (2, 0), (8, 0x1000), (4, 100)]
    (bound id).refuseLaunch 0 l = 0 ∧ (bound id).freeCtx = some 1 ∧ (bound id).refuseLaunch 1 l = 4 ∧ (user []).supervisor = false ∧
      (supervisor [] (inStrand (fun r => { r with k := r.k.set 2 { st := .pending } }))).supervisor = true ∧
      ((supervisor [] (inStrand (fun r => { r with k := r.k.set 2 { st := .pending } }))).getTok 2).st = .pending := by decide +kernel

/-- An operation in the list of module 0. -/
def sop (i : Instr) (target a : Nat) (l : List Byte) : SupOp :=
  { instr := i, tile := mgmtTile 0 0, strand := 0, tok := 1, target := target, args := l ++ List.replicate (128 - l.length) 0 ++ toBytes 8 a }

/-- The state with one operation listed. -/
def listed (s : State) (o : SupOp) (v : Word := 0) : State := { s.setMod 0 { s.mod 0 with ops := [o] } with ev := { m := 0, i := 0, value := v } }

theorem witness_SupervisorOperationsEnd :
    let run := bound (fun c => { c with started := true, running := true, resident := true })
    let held := bound (fun c => { c with started := true, held := true, lull := true, resident := true })
    let ready : State → SupOp → Word → Bool := fun s o v =>
      let t := listed s o v
      (t.mod 0).ops[t.ev.i]? == some o && t.opReady 0 0 o && (if t.restarted 0 o then 1 else t.refusal 0 o.instr (blockNum o.args 128 8) o.args) == 0
    ready (bound id) (sop (.bindBind 4 2 3 0) 4 1 (block [(1, 0)])) 0 = true ∧ ready (bound id) (sop (.bindFence 4 2 0) 4 1 []) 0 = true ∧
      ready (bound id) (sop (.bindUnfence 4 2 0) 4 1 []) 0 = true ∧ ready (bound id) (sop (.codestPtab 4 2 3 0) 4095 1023 (block [(8, 0)])) 0 = true ∧
      ready run (sop (.quiesceRequest 4 1 0) 1 0 []) 0 = true ∧ ready run (sop (.quiesceCkpt 4 1 0) 1 0 []) 0 = true ∧
      ready run (sop (.quiesceCancel 4 1 0) 1 0 []) 0 = true ∧ ready held (sop (.keyz 4 1 0) 1 0 []) 0 = true ∧
      ready held (sop (.keyz 4 1 0) 1 0 []) 0x33 = true ∧ works (.keyz 4 1 0) = false ∧ (sop (.keyz 4 1 0) 1 0 []).begun = false ∧
      (listed held (sop (.keyz 4 1 0) 1 0 [])).opFirst 0 0 (sop (.keyz 4 1 0) 1 0 []) = true ∧
      (let o : SupOp := { sop (.forceab 4 1 0) 1 0 [] with begun := true }
       let t := listed held o
       (t.mod 0).ops[0]? = some o ∧ t.opFirst 0 0 o = true ∧ t.opReady 0 0 o = true) ∧
      (let o := sop (.forceab 4 1 0) 1 0 []
       let t := listed run o
       (t.mod 0).ops[0]? = some o ∧ t.opFirst 0 0 o = true ∧ works o.instr = true ∧ t.restarted 0 o = false ∧
         t.refusal 0 o.instr (blockNum o.args 128 8) o.args = 0) ∧
      (bound id).refusal 0 (.startResume 4 1 3 0) 0 (block []) ≠ 0 ∧
      (listed (bound id) (sop (.startResume 4 1 3 0) 1 0 (block []))).opReady 0 0 (sop (.startResume 4 1 3 0) 1 0 (block [])) = true := by
  decide +kernel

/-! ### Chunk threads -/

/-- A slot with FN, A, B, C and IMM (R399). -/
def slot (op a b c fn imm : Nat) : BitVec 64 := BitVec.ofNat 64 (op * 2 ^ 58 + a * 2 ^ 51 + b * 2 ^ 47 + c * 2 ^ 43 + fn * 2 ^ 32 + imm)

/-- Thread 0 of module 0, rank 0 of instance 1 with two ranks, with g1 to g4 and the slot given. -/
def thread (ir : BitVec 64) (f : Thread → Thread := id) (l : List Nat := []) : State :=
  let g : Vector Word 16 := ((l.foldl (fun (r : Nat × Vector Word 16) v => (r.1 + 1, setAt r.2 r.1 (BitVec.ofNat 64 v))) (1, Vector.replicate 16 0)).2).set 9 2
  let t : Thread := f { inst := 1, rank := 0, g := g, base := 0, len := 32, th := 0, nbuf := 1, pc := 4, ir := ir, clock := 50 }
  let i : Inst := { id := 1, ctx := 0, group := 5, num := 1, idx := 0, handle := 2, due := 2, reqs := [], ranks := [0, 1], toStart := [], clock := 0, st := .running }
  { (inCtx []).setMod 0 { (inCtx []).mod 0 with threads := [(0, t)] } with insts := [i] }

theorem witness_ChunkRegistersAndFlow :
    let s := thread (slot 11 1 2 3 4 0) id [1, 7, 5]
    let z := thread (slot 11 1 2 3 4 0) id [0, 7, 0]
    (s.thread s.curModule s.curThread).isSome = true ∧ s.gC ≠ 0 ∧ s.gA = 1 ∧ z.gC = 0 ∧ z.gA = 0 ∧ s.gB ≠ 0 := by decide +kernel

theorem witness_ChunkDataAndWaits :
    let s := thread (slot 3 1 2 3 0 0) id [65528, 0, 8]
    let p := thread (slot 1 1 2 3 9 0) id [1, 65528, 8]
    let a := thread (slot 5 1 0 0 0 7) id [0]
    let q := thread (slot 5 0 0 0 1 7) (fun t => { t with slots := t.slots.set 7 (some { lo := 0, len := 8, off := 0, op := 0, ty := 0, expect := 3, placed := 3, applied := 3 }) })
    let r := thread (slot 2 1 2 3 9 0) (fun t => { t with wait := some { deadline := 90, dl := 1 }, got := true }) [1, 0, 8]
    let t := s.thr
    (s.thread s.curModule s.curThread) = some t ∧ t.fits s.gA.toNat s.gC.toNat = true ∧ t.fits s.gB.toNat s.gC.toNat = true ∧
      t.hazard s.gA.toNat s.gC.toNat = false ∧ t.spoiled s.gB.toNat s.gC.toNat = false ∧ t.spoiled s.gA.toNat s.gC.toNat = false ∧
      s.gC.toNat % chunkSize (s.cf.fn.toNat / 8 % 16) = 0 ∧
      (chunkReduce (s.cf.fn.toNat % 8) (s.cf.fn.toNat / 8 % 16) (t.bytes 65528 8) (t.bytes 0 8)).isSome = true ∧
      p.badPeer p.gA = false ∧ p.thr.posted.length < 8 ∧ p.thr.fits p.gB.toNat p.gC.toNat = true ∧ p.peer p.thr.inst p.gA.toNat = none ∧
      p.thr.wait = none ∧ p.cf.dl = 0 ∧ p.thr.recvs = [] ∧ p.thr.hazard p.gB.toNat p.gC.toNat = false ∧
      a.gA.toNat ≤ (a.thr.sc[7]).toNat ∧ q.thr.slots[7] = some { lo := 0, len := 8, off := 0, op := 0, ty := 0, expect := 3, placed := 3, applied := 3 } ∧
      r.thr.wait.isSome = true ∧ r.thr.got = true ∧ a.thr.posted = [] ∧ (a.instOf a.thr.inst).isSome = true ∧
      ({ a with insts := [] } : State).instOf a.thr.inst = none := by decide +kernel

/-- A request of virtual tile 1 with one contribution and one landing range of 64 bytes at 0x1000 (R389, R390). -/
def request : CollReq :=
  { vt := 1, tile := 1, strand := 0, tok := 2, seq := 0, desc := BitVec.ofNat 256 (2 ^ 68 + 2 ^ 72 + 2 * 2 ^ 80 + 5 * 2 ^ 96 + 2 * 2 ^ 112),
    pblk := BitVec.ofNat 1024 ((0x1000 + 64 * 2 ^ 24) * (1 + 2 ^ 64 + 2 ^ 512 + 2 ^ 576)), dts := [], dla := 0 }

theorem witness_ChunkDataAndWaits_members :
    let s := thread (slot 8 1 2 3 4 7) id [0, 0, 3, 8]
    let u : State := { s with insts := [] }
    let x := thread (slot 6 1 2 3 4 0) (fun t => { t with wait := some { deadline := 90, dl := 1 }, left := [0] }) [0, 0, 0, 64]
    let i : Inst := { id := 1, ctx := 0, group := 5, num := 1, idx := 0, handle := 2, due := 2, reqs := [request], ranks := [0, 1], toStart := [], clock := 0, st := .running }
    let v : State := { x with insts := [i] }
    (s.instOf s.thr.inst).isSome = true ∧ (s.ctx 0).pushes.isEmpty = true ∧ u.instOf u.thr.inst = none ∧ u.thr.fits u.gB.toNat 8 = true ∧ u.thr.hazard u.gB.toNat 8 = false ∧ u.thr.slots[7] = none ∧ u.gC.toNat ≠ 0 ∧
      u.armed u.thr.inst u.gA.toNat 8 = false ∧ u.gA.toNat % chunkSize 0 = 0 ∧ 8 % chunkSize 0 = 0 ∧
      v.instOf v.thr.inst = some i ∧ v.thr.wait.isSome = true ∧ v.thr.left = [0] ∧ v.cf.fn.getLsbD 6 = false ∧ (v.ctx i.ctx).resident = true ∧
      (v.ctx i.ctx).lull = false ∧ i.member 0 = some request ∧ (v.ctx i.ctx).tileOf request.vt = some 1 ∧ (v.cluster (clusterOf 1)).lost = false ∧
      (v.tile 1).capture = none ∧ (v.tile 1).errs = [] ∧ (request.range false 0).isSome = true ∧ (request.range true 0).isSome = true ∧
      v.thr.spoiled v.gB.toNat 64 = false := by decide +kernel

theorem witness_ChunkDataAndWaits_peers :
    let p : Thread := { inst := 1, rank := 1, base := 0, len := 8, th := 0, nbuf := 1, pc := 0 }
    let s := thread (slot 1 1 2 3 9 0) id [1, 65528, 8]
    let u := s.setMod 1 { s.mod 1 with threads := [(3, p)] }
    u.peer u.thr.inst u.gA.toNat = some (1, 3, p) ∧ (1, 3) ≠ (u.curModule, u.curThread) ∧ u.thread 1 3 = some p ∧ p.recvs = [] ∧ p.posted = [] ∧
      u.badPeer u.gA = false := by decide +kernel

theorem witness_SequencerSteps :
    let w : ChunkWait := { deadline := 50, dl := 1 }
    let late : BitVec 64 → Nat → BitVec 3 → State := fun ir th dl => thread ir (fun t => { t with st := .waiting, wait := some { w with dl := dl }, th := th }) [9]
    let s := (late (slot 5 1 0 0 0 7) 7 1).focusThread
    let z := (late (slot 5 1 0 0 0 7) 0 0).focusThread
    s.thr.st = .waiting ∧ s.chunkInstr = .waitSig ∧ s.thr.wait = some w ∧ s.chunkExpired = true ∧ s.chunkMet = false ∧ w.dl ≠ 0 ∧ s.thr.th ≠ 0 ∧
      z.thr.wait = some { w with dl := 0 } ∧ z.chunkExpired = true ∧ z.chunkMet = false ∧ z.thr.th = 0 ∧ isXfer z.chunkInstr = false ∧ z.ev.ok = true ∧
      (late (slot 5 1 0 0 0 7) 0 1).focusThread.chunkExpired = true := by decide +kernel

theorem witness_SequencerSteps_met :
    let met : BitVec 64 → (Thread → Thread) → State := fun ir f =>
      (thread ir (fun t => f { t with st := .waiting, wait := some { deadline := 90, dl := 1 } }) [0]).focusThread
    let ok : State → Instr → Bool := fun u i => u.thr.st == .waiting && u.thr.wait.isSome && u.chunkMet && u.chunkInstr == i
    let a := met (slot 5 0 0 0 1 7) (fun t => { t with slots := t.slots.set 7 (some { lo := 0, len := 8, off := 0, op := 0, ty := 0, expect := 3, placed := 3, applied := 3 }) })
    let g := met (slot 14 1 0 0 0 7) id
    let h := met (slot 15 0 0 0 0 0) id
    ok (met (slot 2 1 2 3 9 0) (fun t => { t with got := true })) .recv = true ∧ ok (met (slot 5 1 0 0 0 7) id) .waitSig = true ∧
      ok (met (slot 17 0 0 0 0 0) id) .fencec = true ∧ ok a .waitArm = true ∧ (a.thr.slots.getD (a.cf.imm.toNat % 8) none).isSome = true ∧
      ok g .signal = true ∧ g.badPeer g.gA = false ∧ ok h .halt = true ∧ ({ h with insts := [] } : State).instOf h.thr.inst = none := by
  decide +kernel

theorem witness_SequencerSteps_pushes :
    let d := aDelta (.axlos 0 5) (.reduce 64 2 0xFF 1)
    let at_ : Nat → State := fun placed =>
      let p : PushSlot := { lo := 64, len := 8, off := 0, op := 1, ty := 0, expect := 1, placed := placed, applied := 0 }
      { thread (slot 0 0 0 0 0 0) (fun t => { t with slots := t.slots.set 7 (some p) }) with net := [.delta d], ev := { i := 0 } }
    let finds : State → Option (Nat × Nat × Nat × PushSlot) := fun s =>
      ((s.slotsOf 0 5).filter (fun q => q.2.2.2.covers (pushExtent 64 2 0xFF))).find? (fun q => pushAgrees q.2.2.2.op q.2.2.2.ty 2)
    d.current ((at_ 0).ctx 0).num ((at_ 0).ctx 0).att = true ∧
      finds (at_ 0) = some (0, 0, 7, { lo := 64, len := 8, off := 0, op := 1, ty := 0, expect := 1, placed := 0, applied := 0 }) ∧
      finds (at_ 1) = some (0, 0, 7, { lo := 64, len := 8, off := 0, op := 1, ty := 0, expect := 1, placed := 1, applied := 0 }) ∧
      (SMap.find ((at_ 0).mod 0).threads 0).isSome = true := by decide +kernel

theorem witness_SequencerSteps_messages :
    let rec_ : RecvRec := { rank := 1, tag := 9, off := 64, len := 2, ended := false, data := some [5, 6] }
    let p : Thread := { inst := 1, rank := 1, base := 0, len := 8, th := 0, nbuf := 1, pc := 0, posted := [.send 0 9 0 2] }
    let s := thread (slot 0 0 0 0 0 0) (fun t => { t with recvs := [rec_], posted := [.signal 1 2] })
    let u := s.setMod 1 { s.mod 1 with threads := [(3, p)] }
    let t := s.thr
    let i : Inst := { id := 0, ctx := 0, group := 5, num := 1, idx := 0, handle := 2, due := 2, reqs := [request], ranks := [0, 1], toStart := [0], clock := 0, st := .running }
    let v : State := { inCtx [] with insts := [i] }
    u.thread u.ev.m u.ev.th = some t ∧ u.peer t.inst rec_.rank = some (1, 3, p) ∧ (1, 3) ≠ (u.ev.m, u.ev.th) ∧ t.st ≠ .stopped ∧ p.st ≠ .stopped ∧
      u.thread 1 3 = some p ∧ t.recvs[u.ev.i]? = some rec_ ∧ rec_.data = some [5, 6] ∧ t.posted[u.ev.i]? = some (.signal 1 2) ∧
      (u.setThread u.ev.m u.ev.th { t with posted := listDel t.posted u.ev.i }).peer t.inst 1 = some (1, 3, p) ∧
      v.instOf v.ev.i = some i ∧ (v.mod v.ev.m).freeThread = some 0 ∧ i.st = .running ∧ v.ev.m ∈ i.toStart ∧ i.reqs.head? = some request ∧
      (v.mod v.ev.m).chunksUsed + bitsOf ((v.mod v.ev.m).entry i.handle).w0.toNat 55 48 ≤ 16384 := by decide +kernel

theorem witness_SequencerSteps_deltas :
    let d := aDelta (.axlos 0 5) (.request request.desc request.pblk [] 0 2)
    let s := inFlight (.delta d)
    let u := s.setMod 0 { s.mod 0 with ptab := [(2, { w0 := 1 <<< 63, w1 := 0xFF00000000 })] }
    let e := aDelta (.axlos 0 5) (.reduce 0 2 0xFF 1)
    let r := inFlight (.delta e)
    let a := inFlight (.abortToken 0 3)
    u.net[u.ev.i]? = some (.delta d) ∧ d.current (u.ctx d.ctx).num (u.ctx d.ctx).att = true ∧ (u.mod 0).handleOk (cdHandle request.desc) d.ctx = true ∧
      r.net[r.ev.i]? = some (.delta e) ∧ e.current (r.ctx e.ctx).num (r.ctx e.ctx).att = true ∧ r.insts = [] ∧
      ({ e with num := 0 } : Delta).current (r.ctx e.ctx).num (r.ctx e.ctx).att = false ∧ a.net[a.ev.i]? = some (.abortToken 0 3) ∧ a.hasCtx 0 = true := by
  decide +kernel

/-! ### Ends of waits -/

/-- Strand 0 waits at the KWAIT of token 2 with deadline d. -/
def kwaiting (d : BitVec 48) : State :=
  inCtx [] (inStrand (fun r => { r with st := .wait, k := r.k.set 2 { st := .pending, use := .copy }, dlpol := 0, wait := some { kind := .named 1 d, instr := .kwait 3 1 2, pfx := [], since := 0 } }))

/-- Strand 0 stalls with SUB 7 (a full engine queue) at a COPY since tick 0. -/
def stalled (n : Nat) (t0 : BitVec 48) : State :=
  let w : WaitRec := { kind := .stall 7 3 t0, instr := .copy 0 1 0, pfx := [], since := 0 }
  inCtx [] (fun x => inStrand (fun r => { r with st := .wait, wait := some w, dt := r.dt.set 6 10 }) { x with eng := List.replicate n (engOp .copy 0) })

theorem witness_WaitEventsEndWaits :
    let s := kwaiting 100
    let l := kwaiting 101
    let u := stalled 7 90
    let v := stalled 8 90
    s.me.st = .wait ∧ s.me.wait = some { kind := .named 1 100, instr := .kwait 3 1 2, pfx := [], since := 0 } ∧ s.expired s.curTile 100 = true ∧
      l.expired l.curTile 101 = false ∧ (s.getTok 2).st = .pending ∧ s.me.held = none ∧ s.me.dlpol = 0 ∧ s.here.unwatched = true ∧ s.me.touched = [] ∧
      s.me.stepping = false ∧ innermost s.me.lstk = none ∧ s.own = s.me.pc.toNat ∧ s.me.pc.toNat + 4 < 0x10000 ∧ u.me.st = .wait ∧
      u.stallHolds 7 3 (.copy 0 1 0) = false ∧ v.stallHolds 7 3 (.copy 0 1 0) = true ∧
      v.expired v.curTile (90 + ((v.me.dt.getD 6 0).setWidth 48)) = true := by decide +kernel

theorem witness_WaitEventsEndWaits_events :
    let p : PostRec := { addr := 4, bits := 7, wst := none, num := 1, att := 0 }
    let s := inFlight (.post 0 0 p)
    let u := user [] (inStrand (fun r => { r with req := some (8, 7) }))
    s.net[s.ev.i]? = some (.post 0 0 p) ∧ (s.strand 0 0).st ≠ .retired ∧ isMgmt u.ev.tile = false ∧
      (∀ q ∈ tilesOf (clusterOf u.ev.tile), ∀ j, (u.strand q j).req = if q = u.ev.tile ∧ j = 0 then some (8, 7) else none) ∧
      8 = (u.strand u.ev.tile 0).pc.toNat / 32 ∧ p.num = (s.tile 0).num ∧ (s.tile 0).att ≤ p.att ∧ ({ p with num := 0 } : PostRec).num < (s.tile 0).num ∧
      (s.tile 0).num < ({ p with num := 2 } : PostRec).num := by decide +kernel

/-! ### The host -/

/-- A request of the given kind in mailbox 1 of module 0, its body given; the module has come up. -/
def mailed (k : Nat) (body : List Byte) (f : Module → Module := id) (g : Ctx → Ctx := id) : State :=
  let s := inCtx [] (withQueue [])
  let s := s.setCtx 0 (g (s.ctx 0))
  let md := f { s.mod 0 with phase := 3, pending := [1] }
  let box := Memory.writeBytes (Memory.writeBytes md.mbox 4096 (toBytes 2 k ++ [1, 0] ++ toBytes 4 7)) (4096 + 64) body
  { s.setMod 0 { md with mbox := box } with ev := { m := 0, th := 1 } }

/-- A request of kind k stands in mailbox 1. -/
def asked (s : State) (k : Nat) : Bool :=
  s.boxNum 0 1 2 1 == 1 && (s.mod 0).pending.contains 1 && s.boxNum 0 1 0 2 == k &&
    (if (s.mod 0).recovery then false else decide (1 ≤ k) && decide (k ≤ 9))

theorem witness_MailboxRequestsAreServed :
    let y := mailed 2 [0]
    let z := mailed 2 [0] id (fun c => { c with hostLog := [{ va := 64, data := [1], synced := false }] })
    let r := mailed 3 (toBytes 4 0 ++ toBytes 4 0 ++ toBytes 4 0 ++ toBytes 4 9 ++ toBytes 2 48)
    asked y 2 = true ∧ y.hasCtx 0 = true ∧ (y.ctx 0).hostLog = [] ∧ y.net = [] ∧ (y.ctx 0).syncNow = [] ∧ y.syncInFlight 0 0 1 = false ∧ z.syncInFlight 0 0 1 = false ∧
      (z.ctx 0).hostLog ≠ [] ∧ (0, 1) ∉ (z.ctx 0).syncBox ∧ (0, 1) ∉ (z.ctx 0).syncNow ∧
      (mailed 2 [9]).hasCtx 9 = false ∧ asked (mailed 2 [9]) 2 = true ∧ asked (mailed 12 []) 12 = false ∧ (mailed 12 []).boxNum 0 1 0 2 = 12 ∧
      asked r 3 = true ∧ ofBytes (r.boxBody 0 1 4 4) < (r.ctx 0).tiles ∧ (r.ctx 0).tileOf 0 = some 0 ∧ (r.ctx 0).resident = true ∧ r.ctxOf 0 = some 0 ∧
      (r.cluster (clusterOf 0)).lost = false ∧ (r.cluster (clusterOf 0)).gone = false ∧ (r.tile 0).ringExists false 0 = true ∧
      ((recordBytes 48 0 1 9 0 0 (r.boxBody 0 1 64 48)).length ≤ qSize ((r.tile 0).qcfgAt 0)) ∧
      ((r.tile 0).appendRecord 0 (recordBytes 48 0 1 9 0 0 (r.boxBody 0 1 64 48))).spillUsed ≤ 262144 := by decide +kernel

theorem witness_MailboxRequestsAreServed_contexts :
    let p := mailed 4 [0]
    let h := mailed 5 [0] id (fun c => { c with held := true })
    let t := mailed 6 [0]
    asked p 4 = true ∧ p.hasCtx 0 = true ∧ (p.ctx 0).resident = true ∧ (p.ctx 0).preBox = none ∧ (p.ctx 0).tear = none ∧ (p.ctx 0).held = false ∧
      asked h 5 = true ∧ (h.ctx 0).held = true ∧ (h.ctx 0).fatal = false ∧ (h.ctx 0).resident = true ∧ (h.ctx 0).tear = none ∧
      (h.ctx 0).irrev = false ∧ h.missesTile 0 = false ∧
      (mailed 5 [0]).hasCtx 0 = true ∧ ((mailed 5 [0]).ctx 0).held = false ∧ asked t 6 = true ∧ (t.ctx 0).tear = none ∧ (t.ctx 0).preBox = none ∧
      (t.ctx 0).runs = true ∧ asked (mailed 7 (List.replicate 32 0 ++ [255])) 7 = true ∧ (mailed 7 (List.replicate 32 0 ++ [9])).hasCtx 9 = false := by
  decide +kernel

theorem witness_MailboxRequestsAreServed_device :
    let k := mailed 8 (List.replicate 32 0 ++ toBytes 4 0 ++ toBytes 4 1)
    let c := mailed 9 []
    let n : State := { c with ctxs := [] }
    asked k 8 = true ∧ blockNum (k.boxBody 0 1 0 40) 36 4 = (k.mod 0).enrol.toNat + 1 ∧
      blockNum ((mailed 8 []).boxBody 0 1 0 40) 36 4 ≠ ((mailed 8 []).mod 0).enrol.toNat + 1 ∧ asked c 9 = true ∧
      c.ctxs ≠ [] ∧ asked n 9 = true ∧ n.ctxs = [] := by decide +kernel

/-- A request in mailbox 0 of module 0 in recovery (R529). -/
def recovering (k : Nat) (body : List Byte) : State :=
  let s := State.reset
  let box := Memory.writeBytes (Memory.writeBytes [] 0 (toBytes 2 k ++ [1, 0] ++ toBytes 4 7)) 64 body
  { s.setMod 0 { s.mod 0 with recovery := true, pending := [0], mbox := box } with ev := { m := 0, th := 0 } }

theorem witness_MailboxRequestsAreServed_recovery :
    let w := recovering 10 (toBytes 8 1 ++ toBytes 8 (2 ^ 36 - 4) ++ toBytes 4 4)
    let b := recovering 10 (toBytes 8 0 ++ toBytes 8 (2 ^ 36 - 3) ++ toBytes 4 4)
    (w.mod 0).recovery = true ∧ w.boxNum 0 0 2 1 = 1 ∧ (w.mod 0).pending.contains 0 = true ∧ w.boxNum 0 0 0 2 = 10 ∧
      ofBytes (w.boxBody 0 0 0 1) ≤ 1 ∧ ofBytes (w.boxBody 0 0 8 8) + ofBytes (w.boxBody 0 0 16 4) ≤ 2 ^ 36 ∧
      2 ^ 36 < ofBytes (b.boxBody 0 0 8 8) + ofBytes (b.boxBody 0 0 16 4) ∧ 1 < 2 ∧ (recovering 11 []).boxNum 0 0 0 2 = 11 := by decide +kernel

/-- A host access of n bytes at a to module 0, or with the bytes given. -/
def hostAccess (a n : Nat) (l : List Byte := []) (f : Ctx → Ctx := id) : State :=
  let s := inCtx []
  let root := 0x10000
  let md := s.mod 0
  let mem := Memory.setNum (Memory.setNum md.mem root 8 (root + 0x1000 + 1)) (root + 0x1000) 8 (3 + 12 + 64)
  let s := s.setMod 0 { md with mem := mem }
  let s := s.setCtx 0 (f { s.ctx 0 with root := root, home := 0 })
  { s with ev := { m := 0, value := BitVec.ofNat 64 a, i := n, bytes := l } }

theorem witness_HostAccessesAndSupervision :
    let s := hostAccess 0x0FFF8 8
    let w := hostAccess 0x0FFF8 0 (List.replicate 8 1)
    let l := w.setMod 0 { w.mod 0 with mbox := Memory.writeBytes [] 0xF002 [1] }
    let v := hostAccess (2 ^ 56 + 2 ^ 30 - 8) 0 (List.replicate 8 1)
    0 < s.ev.i ∧ s.ev.value.toNat + s.ev.i ≤ 0x10000 ∧ (s.mod 0).recovery = false ∧
      2 ^ 40 ≤ 2 ^ 40 + 2 ^ 36 - 8 ∧ 2 ^ 40 + 2 ^ 36 - 8 + 8 ≤ 2 ^ 40 + 2 ^ 36 ∧ 0x11000 + 32768 ≤ 0x19000 ∧ 0x19000 < 0x100000 ∧ ptidExists 0x267 = true ∧
      w.ev.bytes ≠ [] ∧ w.ev.value.toNat + w.ev.bytes.length ≤ 0x10000 ∧ (∀ b ≤ (0xFFF8 + 8 - 1) / 4096, 0xFFF8 / 4096 ≤ b → Memory.read (w.mod 0).mbox (4096 * b + 2) ≠ 1) ∧
      Memory.read (l.mod 0).mbox (0xFFF8 / 4096 * 4096 + 2) = 1 ∧ v.hostPlace 0 v.ev.value.toNat v.ev.bytes.length = .window 0 (2 ^ 30 - 8) ∧
      v.windowOpen 0 (2 ^ 30 - 8) v.ev.bytes.length = true ∧ (v.ctx 0).logUsed + v.ev.bytes.length ≤ (v.ctx 0).logSize * 2 ^ 20 := by decide +kernel

theorem witness_HostAccessesAndSupervision_events :
    let e : Event := { ctx := 0, ext := 3, code := 8, strand := 1, unit := 5, value := 77 }
    let s := (hostAccess 0 0).setTile (mgmtTile 0 0) (withQueue [] ((hostAccess 0 0).tile (mgmtTile 0 0)))
    let s := s.setMod 0 { s.mod 0 with events := [e] }
    let p := hostAccess 0 0 [] (fun c => { c with preempt := some 100 })
    let still : (Ctx → Ctx) → State := fun f =>
      let u := hostAccess 0 0 [] (fun c => f { c with running := false, held := true })
      u.setTile 0 ({ u.tile 0 with strands := Vector.replicate 4 {} } : Tile)
    (s.mod 0).events = [e] ∧ (s.deliverEvent 0 e).isSome = true ∧ (p.ctx 0).preempt = some 100 ∧ (p.ctx 0).runs = true ∧ (p.ctx 0).running = true ∧
      (p.ctx 0).decided = none ∧ (p.ctx 0).demand = none ∧ expiredAt (p.ctx 0).clock 100 = true ∧ (still id).quiet 0 = true ∧
      ((still id).ctx 0).tearOps = none ∧ ((still id).ctx 0).tear = none ∧ (still id).ev.nums = [] ∧ ((still id).ctx 0).held = true ∧
      ((still id).ctx 0).fatal = false ∧ ((still id).ctx 0).preBox = none ∧ ((still id).ctx 0).lull = false ∧
      (still (fun c => { c with tear := some (0, 1) })).quiet 0 = true ∧ (still id).awayDue 0 = false ∧
      (let u := still (fun c => { c with preBox := some (0, 1) })
       u.quiet 0 = true ∧ (u.ctx 0).resident = true ∧ u.cannotResume 0 = false ∧ (u.ctx 0).limit = none ∧ u.awayDue 0 = true) ∧
      (let u := still (fun c => { c with tiles := 16 })
       let v := u.setTile 0 { u.tile 0 with ecnt := 2 ^ 63 }
       (v.toMigrate 0).isSome = true ∧ v.cannotResume 0 = false ∧ (∀ e ∈ v.clusters, v.clusterFree (v.ctx 0).owner e.1 = false) ∧ v.quiet 0 = true) ∧
      (let u := still (fun c => { c with launch := [0], tiles := 16 })
       let v := u.setCluster 1 { u.cluster 1 with released := true }
       (v.ctx 0).started = true ∧ v.quiet 0 = true ∧ v.clustersFit 0 [1] = true ∧ v.keepsModules 0 [1] = true) ∧
      (still (fun c => { c with irrev := true })).restoreDue 0 = true ∧ (p.quiet 0 = false) ∧
      (let u := hostAccess 0 0 [] (fun c => { c with fatal := true }); u.restoreDue 0 = true ∧ u.quiet 0 = false ∧ (u.ctx 0).started = true) ∧
      (let u := still (fun c => { c with tiles := 16 })
       let v := (u.setCluster 1 { u.cluster 1 with released := true, powered := true }).setTile 0 { u.tile 0 with ecnt := 2 ^ 63 }
       v.toMigrate 0 = some 0 ∧ (v.ctx 0).resident = true ∧ v.restoreDue 0 = false ∧ v.clusterFree (v.ctx 0).owner 1 = true ∧ v.quiet 0 = true) := by decide +kernel

/-! ### Reliability, power and debug -/

theorem witness_ScrubsErrorsAndLinks :
    let base : ScrubOp → State := fun o => { ((supervisor []).setMod 0 { (supervisor []).mod 0 with scrubs := [o], service := [(0, 0)] }) with ev := { m := 0 } }
    let k : ScrubOp := { cluster := some 1, page := 0, pages := 0 }
    let p : ScrubOp := { cluster := none, page := 3, pages := 2 }
    let r := (base { k with stopped := true }).setCluster 1 { (base k).cluster 1 with powered := true }
    let e : Bool → State := fun hard => user [] (fun x => { x with errs := [{ loc := scrubPlace 0 0, hard := hard }], ewin := 10, winAt := 0 })
    let late : State := { e true with cycle := 160 }
    ((base k).mod 0).scrubs[(base k).ev.i]? = some k ∧ k.stopped = false ∧ (base k).ctxs = [] ∧ k.cluster = some 1 ∧ p.cluster = none ∧
      ((base p).mod 0).scrubs[(base p).ev.i]? = some p ∧ (base p).ev.nums = [] ∧ ({ (base p).ev with nums := [4] } : EvArgs).nums = [4] ∧ p.page ≤ 4 ∧
      4 < p.page + p.pages ∧ 4 ∉ p.done ∧ (r.mod 0).scrubs[r.ev.i]? = some { k with stopped := true } ∧
      r.scrubReady 0 { k with stopped := true } = true ∧ (e true).ev.th ≠ 4 ∧
      ((user []).tile 0).errs.any (fun x => x.loc == scrubPlace 0 0) = false ∧ ((e true).tile 0).errs.any (fun x => x.loc == scrubPlace 0 0 && x.hard) = true ∧
      ((e false).tile 0).errs.any (fun x => x.loc == scrubPlace 0 0 && x.hard) = false ∧
      (e true).refTick (modOf 0) < ((e true).tile 0).winAt + ((e true).tile 0).ewin.toNat % 2 ^ 48 ∧ 0 < (late.tile 0).ewin.toNat % 2 ^ 48 ∧
      (late.tile 0).winAt + (late.tile 0).ewin.toNat % 2 ^ 48 ≤ late.refTick (modOf 0) := by decide +kernel

theorem witness_ScrubsErrorsAndLinks_links :
    let s : Link → Bool → State := fun l ok => { (inCtx []).setMod 0 { (inCtx []).mod 0 with links := [(0, l)] } with ev := { m := 0, ok := ok }, cycle := 1024 }
    ((s {} true).mod 0).link 0 = {} ∧ (({} : Link).down = false) ∧ (s {} false).ev.ok = false ∧ ({ replays := 7 } : Link).replays < 8 ∧
      8 ≤ (((s { replays := 8 } true).mod 0).link 0).replays ∧ (((s { unlocked := some 0 } true).mod 0).link 0).unlocked = some 0 ∧
      0 + 64 ≤ (s { unlocked := some 0 } true).refTick 0 ∧ ({} : Link).unlocked = none ∧
      (let u : Nat → State := fun t => { (s {} true).setCtx 0 { (s {} true).ctx 0 with cut := [(0, 3)] } with cycle := 16 * t }
       SMap.find ((u 0).ctx 0).cut 0 = some 3 ∧ (u 0).refTick 0 < 3 + 1000000 ∧ ((u 1000003).ctx 0).runs = true ∧ 3 + 1000000 ≤ (u 1000003).refTick 0) := by
  decide +kernel

theorem witness_PowerAndBringup :
    let s : Island → Nat → Bool → State := fun x v low =>
      { State.reset.setMod 0 { State.reset.mod 0 with islands := [(0, x)], lowFlow := low, phase := 6 } with ev := { m := 0, th := 0, value := BitVec.ofNat 64 v } }
    let up : Island := { op := 3, req := 3, target := 3 }
    let is : State → Island := fun u => (u.mod 0).island 0
    (is (s up 105 false)).op ≠ 7 ∧ 105 ≤ (s up 105 false).ev.value.toNat % 256 ∧ up.busy = false ∧ 0 < up.op.toNat ∧ up.op.toNat ≤ 3 ∧
      (s up 104 false).ev.value.toNat % 256 < 105 ∧ (s up 94 false).ev.value.toNat % 256 < 95 ∧
      (is (s { up with op := 2 } 94 false)).op.toNat < (is (s { up with op := 2 } 94 false)).req.toNat ∧ ((s up 94 false).mod 0).lowFlow = false ∧ ((s up 94 false).mod 0).reduced = false ∧
      95 ≤ (s up 95 false).ev.value.toNat % 256 ∧ 115 ≤ (s { up with op := 0 } 115 false).ev.value.toNat % 256 ∧
      (is (s { up with op := 0 } 115 false)).op = 0 ∧ (s up 114 false).ev.value.toNat % 256 < 115 ∧ up.op ≠ 0 ∧ up.target ≠ 7 ∧
      (SMap.find ((s up 0 false).mod 0).islands 0).isSome = true ∧ ((s up 0 true).mod 0).lowFlow = true ∧ up.req.toNat ≤ 3 ∧
      BitVec.ofNat 3 (bitsOf (4 * 2 ^ 32) 34 32) = 4 ∧ BitVec.ofNat 3 (bitsOf (7 * 2 ^ 32) 34 32) = 7 ∧ BitVec.ofNat 3 (bitsOf (3 * 2 ^ 32) 34 32) = 3 ∧
      (is (s { up with busy := true } 0 false)).busy = true ∧ (is (s { busy := true, target := 3 } 0 false)).target ≠ 7 ∧
      (is (s { busy := true, target := 3 } 0 false)).op = 7 ∧ (is (s { up with busy := true, target := 7 } 0 false)).target = 7 ∧
      ({ up with op := 1, busy := true, target := 0 } : Island).target.toNat < 1 ∧ ({ up with op := 0 } : Island).op.toNat = 0 ∧ up.hot = false ∧
      ({ up with hot := true, op := 2 } : Island).level < 3 ∧ ({ State.reset.mod 0 with phase := 3 } : Module).reduced = true ∧ 3 ≤ ((s up 0 false).mod 0).phase ∧ 2 < 3 ∧
      (s up 0 false).ev.nums = [] ∧ 31 < 32 ∧ ((s up 0 false).stackAt 0 31).trained = false ∧ ((s up 0 false).stackAt 0 31).failed = false := by
  decide +kernel

/-- Tile 0 with its debug port in the condition given, halted or not, and a value written. -/
def debugged (halted : Bool) (v : Word) (f : Debug → Debug := id) (i : Nat := 0) : State :=
  let s := inCtx [] (fun x => inStrand (fun r => { r with st := if halted then .halt else .run, before := if halted then some .run else none, k := r.k.set 2 { st := .pending } })
    { x with dbg := f { x.dbg with halted := halted } })
  { s with ev := { tile := 0, value := v, i := i } }

theorem witness_DebugPortSteps :
    let s := debugged true (1 <<< 12)
    let t := debugged false 0
    let k : Word := 2 <<< 32
    s.ev.tile = 0 ∧ isMgmt 0 = false ∧ s.hiddenTile 0 = false ∧ (t.tile 0).dbg.halted = false ∧ (t.tile 0).stopped = false ∧ (s.tile 0).dbg.halted = true ∧
      (s.tile 0).dbg.decision = none ∧ (s.tile 0).dbg.withheld = [] ∧ ((s.tile 0).strand 0).st = .halt ∧ ((s.tile 0).strand 0).before = some .run ∧
      bitsOf s.ev.value.toNat 15 12 = 2 ^ (0 : BitVec 2).toNat ∧ (s.tile 0).dbg.btCtl.getLsbD 0 = false ∧ 0 % 16384 = 0 ∧
      (debugged true 0 id 576).ev.i = 576 ∧ (debugged true 0 id 578).ev.i = 578 ∧ (debugged true 0 id 595).ev.i = 580 + 15 ∧ (s.accessRead 0 (63 <<< 32)).isSome = true ∧
      (s.accessRead 0 (64 <<< 32)).isSome = false ∧ daFile (63 <<< 32) = 0 ∧ 0 < daIndex (1 <<< 32) ∧ daIndex (63 <<< 32) < 64 ∧ daIndex k < 16 ∧
      s.ev.ok = true ∧ (((s.tile 0).strand (daStrand k)).tok (BitVec.ofNat 4 (daIndex k))).st = .pending ∧
      (((s.tile 0).strand (daStrand 0)).tok 0).st ≠ .pending := by decide +kernel

theorem witness_DebugPortSteps_others :
    let s : State := { debugged true 0 (fun d => { d with tokUntil := some 5 }) with cycle := 80 }
    let h : State := { s with net := [.haltRequest 0 0] }
    let d := s.setDie 0 { s.die 0 with itleft := some 0 }
    (s.tile 0).dbg.tokUntil = some 5 ∧ 5 ≤ s.refTick (modOf 0) ∧ h.net[h.ev.i]? = some (.haltRequest 0 0) ∧ (d.die d.ev.i).itleft = some 0 ∧ s.ev.i = 0 ∧
      h.ctxOf 0 = some 0 ∧ s.hasCtx 0 = true ∧ s.clockMayRun 0 = false := by decide +kernel

/-! ### The step, the encodings, the invariant and the frame -/

/-- Strand 0 of tile 0 at an ADDI s1, s1, 64 (0x0101_0440), its turn next. -/
def atAddi (st : StrandSt) : State :=
  let s := user [] (inStrand (fun r => { r with st := st }))
  let k := s.cluster 0
  { s.setCluster 0 { k with store := Memory.setNum k.store 0x100 4 0x01010440 } with agenda := [.strand 0 0] }

theorem witness_StepRunsDecodedUnit :
    let s := atAddi .run
    let u : State := { ({ s with agenda := [] } : State).advance 1 with curTile := 0, curStrand := 0, trapped := none, late := false }
    let v := u.setMe { u.me with pfx := [], touched := [], stepAt := u.me.pc }
    let k := u.cluster (clusterOf 0)
    s.agenda = .strand 0 0 :: [] ∧ u.me.st = .run ∧ u.tileStill 0 = false ∧ v.unitHeld = true ∧ u.me.badEntry = none ∧ k.errs = [] ∧
      u.here.errs = [] ∧ u.breakpoint = false ∧ u.me.blocks.contains (u.me.pc.toNat / 32) = true ∧
      isPrefixWord (k.word u.me.pc.toNat) = false ∧ u.me.pc.toNat < k.clim.toNat ∧ (k.word u.me.pc.toNat).toNat / 2 ^ 30 ≠ 3 ∧
      v.prefetch.encodingOf (.addi 1 1 64) = none ∧
      (({ ({ atAddi .idle with agenda := [] } : State).advance 1 with curTile := 0, curStrand := 0, trapped := none, late := false } : State).me.st ≠ .run) := by
  decide +kernel

/-- The unit at the pc decodes, with no prefix (R45). -/
theorem witness_StepRunsDecodedUnit_unit :
    (match (atAddi .run).nextUnit with | .ok (ps, i) => ps == [] && i == .addi 1 1 64 | .error _ => false) = true ∧
      (match decodeWords (((atAddi .run).cluster 0).word 0x100) (((atAddi .run).cluster 0).word 0x104) with | .ok i => i == .addi 1 1 64 | .error _ => false) = true := by
  decide +kernel

theorem witness_DecodeAndEncodeAgree :
    Instr.wf (.vops 1 2 3 10 0x0A 5) = true ∧ Instr.kind (.vops 1 2 3 10 0x0A 5) ≠ .chunk ∧ Instr.kind (.vops 1 2 3 10 0x0A 5) ≠ .event := by decide

/-- The step of the ADDI answers a next state, from a state whose memories have their form. -/
theorem witness_StepKeepsMemoryForm : (atAddi .run).memoriesWf = true ∧ (match step (atAddi .run) with | .next _ => true | _ => false) = true := by
  decide +kernel

theorem witness_RegisterInstructionsFrame :
    (user []).plain (wordsOf (.add 1 2 3)) = true ∧ (user []).plain (wordsOf (.ldi 1 2)) = true ∧ runs (.add 1 2 3) (user []) = true ∧
      runs (.ldi 1 2) (user []) = true := by decide +kernel

/-- The body of a LAUNCH of the given tiles with an empty level-1 page table of 4 KiB at the start of the staging area (R486, R491). -/
def launchBody (tiles : Nat) : List Byte :=
  toBytes 4 tiles ++ toBytes 2 3 ++ toBytes 2 0 ++ toBytes 8 0x10000 ++ List.replicate 48 0 ++ toBytes 8 7 ++ [255] ++
    List.replicate 89 0 ++ toBytes 2 1 ++ List.replicate 84 0 ++ toBytes 4 4096 ++ List.replicate 20 0

/-- A LAUNCH in mailbox 1, for which the supervisor chooses cluster 1. -/
def launching (tiles : Nat) : State :=
  let s := mailed 1 (launchBody tiles)
  let s := s.setCluster 1 { s.cluster 1 with released := true, powered := true }
  { s with ev := { m := 0, th := 1, nums := [1] } }

theorem bytes_empty (a n : Nat) : Memory.bytes [] a n = List.replicate n 0 := by
  induction n generalizing a with
  | zero => rfl
  | succ n ih => simp [Memory.bytes, Memory.read, ih, List.replicate_succ]

theorem blockNum_zeros (n o k : Nat) : blockNum (List.replicate n 0) o k = 0 := by
  have h : ∀ m, ofBytes (List.replicate m 0#8) = 0 := by
    intro m
    induction m with
    | zero => rfl
    | succ m ih => simp [List.replicate_succ, ofBytes, ih]
  simp [blockNum, h]

/-- An empty table names no page and no other table (R329). -/
theorem imageScan_zeros : imageScan (List.replicate 4096 0) = { bad := false, leaves := [], tables := [(0, 512)] } := by
  have h : ∀ (l : List Nat) (b : TableScan), l.foldl (fun (acc : TableScan) (_ : Nat) => acc) b = b := by
    intro l
    induction l with
    | nil => intro b; rfl
    | cons x r ih => intro b; exact ih b
  have z : ∀ i, lfV (blockNum (List.replicate 4096 (0 : Byte)) (0 + 8 * i) 8) = false := by intro i; rw [blockNum_zeros]; decide
  simp only [imageScan, scanTables, List.length_replicate, z]
  simp [h]

/-- The request that the mailbox holds. -/
def launchRequest : LaunchReq :=
  { body := launchBody 16, code := [], local_ := [], bitmaps := [], pt := List.replicate 4096 0, list := [], data := [], descs := [] }

theorem launching_request : (launching 16).launchReq 0 1 = launchRequest := by
  have hb : (launching 16).boxBody 0 1 0 272 = launchBody 16 := by decide +kernel
  have hm : ((launching 16).mod 0).staging = [] := by decide +kernel
  have ht : blockNum (launchBody 16) 176 1 = 0 := by decide +kernel
  have h1 : blockNum (launchBody 16) 136 4 = 0 := by decide +kernel
  have h2 : blockNum (launchBody 16) 152 4 = 0 := by decide +kernel
  have h3 : blockNum (launchBody 16) 264 4 = 0 := by decide +kernel
  have h4 : blockNum (launchBody 16) 248 4 = 4096 := by decide +kernel
  simp only [State.launchReq, hb, hm, ht, h1, h2, h3, h4, bytes_empty, Nat.zero_mul]
  rfl

theorem launching_good : launchRequest.bad = false := by
  have h : imageScan launchRequest.pt = { bad := false, leaves := [], tables := [(0, 512)] } := imageScan_zeros
  unfold LaunchReq.bad
  rw [h]
  decide +kernel

theorem launching_granted : launchRequest.denied = false ∧ (launching 16).launchReady launchRequest [1] = true := by
  have h : imageScan launchRequest.pt = { bad := false, leaves := [], tables := [(0, 512)] } := imageScan_zeros
  unfold LaunchReq.denied State.launchReady LaunchReq.slots
  rw [h]
  decide +kernel

theorem witness_MailboxRequestsAreServed_launch :
    let s := launching 16
    let q := s.launchReq 0 1
    asked s 1 = true ∧ q.bad = false ∧ q.denied = false ∧ s.ev.ok = true ∧ s.dependency 0 1 q = (s, .met) ∧ s.freeCtx = some 1 ∧ s.launchReady q s.ev.nums = true ∧
      (s.launchCtx 0 1 7 q s.ev.nums).2 = true := by
  dsimp only
  rw [launching_request]
  refine ⟨by decide +kernel, launching_good, launching_granted.1, rfl, by decide +kernel, by decide +kernel, launching_granted.2, ?_⟩
  rfl

/-! ### Stores that stay unperformed (R348), registers put over by CODEST.reg, and divergence from the shadow -/

theorem witness_LocalStoresWriteOnlyTheirBytes_late :
    let s : State := { user [(1, 0x3FFC0), (2, 0x3F000)] with late := true }
    let u := user [(1, 0x3FFC0)] (fun x => { x with sbuf := [{ strand := 0, since := 0, line := 0, cells := byteCells 0 [1] }] })
    let part : Pend := { strand := 0, since := u.cycle, line := 0xFFF, cells := byteCells 0x3FFC0 (toBytes 8 0) }
    s.plain 1 = true ∧ s.here.errs = [] ∧ s.late = true ∧ s.direct = false ∧ s.localOk (s.getS 1) 8 .store = true ∧ s.me.early = {} ∧
      u.plain 1 = true ∧ u.here.errs = [] ∧ u.late = false ∧ u.direct = false ∧ u.here.sbuf.any (fun e => e.strand == u.curStrand && e.meets part) = false ∧
      u.localOk (u.getS 1) 8 .store = true ∧ s.here.retu + 64 * (64 + s.here.sbuf.length) ≤ 65536 ∧
      u.here.retu + 64 * u.here.sbuf.length + 2560 ≤ 65536 ∧ (s.getS 1).toNat + 64 ≤ 2 ^ 18 ∧ (s.getS 2).toNat + 4096 ≤ 2 ^ 18 := by
  decide +kernel

theorem witness_MfsReadsControlRegisters_forced :
    let s := user [] (inStrand (fun r => { r with forced := [(30, 7)] }))
    s.plain 1 = true ∧ SMap.find s.me.forced 30 = some 7 ∧ SMap.find s.me.forced 31 = none := by decide +kernel

/-- The product of 0.50000006 and the least subnormal rounds to the least subnormal, where the shadow of the operands gives half of it, which rounds
to 0: the classes differ (R426). -/
theorem witness_VectorOperationsByElement_shadow :
    let r := elemOp 2 tF32 0 false 0x3F000001 1 0
    elemDiverges 2 tF32 0 false 0x3F000001 1 0 r.2 r.1 = true ∧ active ((user []).getP 0) 32 15 = true := by decide +kernel

/-- 2^24 and fifteen ones, the worked example of R175, keep to their shadow; 1.0625 less 1.0624 does not, the estimates 1.125 and 1 being far
apart (R426). -/
theorem witness_VectorMovesAndReductions_shadow :
    let sum := fun (xs : List Nat) => treeReduce (fun u v => elemOp 0 tF32 0 false u v 0) 6 xs
    let off := fun (xs : List Nat) => sumDiverges tF32 0 false xs (sum xs).2 (sum xs).1
    off (0x4B800000 :: List.replicate 15 0x3F800000) = false ∧ off (0x3F880000 :: 0xBF87FCB9 :: List.replicate 14 0) = true := by decide +kernel

theorem ofBytes_toBytes (n x : Nat) : ofBytes (toBytes n x) = x % 256 ^ n := by
  induction n generalizing x with
  | zero => simp [toBytes, ofBytes, Nat.mod_one]
  | succ n ih =>
    simp only [toBytes, ofBytes, ih, BitVec.toNat_ofNat]
    rw [show (256 : Nat) ^ (n + 1) = 256 * 256 ^ n from by rw [Nat.pow_succ, Nat.mul_comm], Nat.mod_mul]

/-- A dump block for the start of module 0's dump region, wherever the firmware has placed it (R522, log entry 13). -/
theorem witness_SupervisorOperationsAccepted_dump :
    ∃ l : List Byte, l.length = 64 ∧ ∀ d a b k, (bound id).refusal 0 (.dumpLog d a b k) 16 l = 0 ∧ (bound id).refusal 0 (.dumpTrace d a b k) 16 l = 0 ∧
      (bound id).refusal 0 (.dumpCtx d a b k) 0 l = 0 := by
  have hx : dumpBase 0 < 2 ^ 48 := by
    have : min (Config.dumpOffset 0) (memTop - 2 ^ 32) ≤ memTop - 2 ^ 32 := Nat.min_le_right _ _
    have : dumpBase 0 ≤ memTop - 2 ^ 32 := by unfold dumpBase; omega
    unfold memTop at this
    omega
  generalize hd : dumpBase 0 = x at hx
  have hl : (toBytes 8 x).length = 8 := rfl
  have h0 : blockNum (toBytes 8 x ++ List.replicate 56 0) 0 8 = x := by
    rw [blockNum, List.drop_zero, List.take_left' hl, ofBytes_toBytes]
    exact Nat.mod_eq_of_lt (by omega)
  have h8 : blockNum (toBytes 8 x ++ List.replicate 56 0) 8 4 = 0 := rfl
  have hz : zeroBytes (toBytes 8 x ++ List.replicate 56 0) 12 64 = true := rfl
  have hm : physModule x = 0 := by unfold physModule bitsOf; omega
  have hb : badDump (toBytes 8 x ++ List.replicate 56 0) = false := by
    have hq : x / 2 ^ 58 = 0 := by omega
    unfold badDump
    simp only [h0, h8, hz, hm, hd, hq]
    have h1 : ¬ (x + 2 ^ 32 < x + 0) := by omega
    simp
  have hc : (bound id).hasCtx 0 = true := by decide +kernel
  refine ⟨toBytes 8 x ++ List.replicate 56 0, rfl, ?_⟩
  generalize toBytes 8 x ++ List.replicate 56 0 = l at hb
  refine fun d a b k => ⟨?_, ?_, ?_⟩
  · simp [State.refusal, refuseDump, firstCode, hb]
  · simp [State.refusal, refuseDump, firstCode, hb]
  · simp [State.refusal, State.refuseDumpCtx, firstCode, hb, hc]

theorem witness_MailboxRequestsAreServed_bad : asked (mailed 1 []) 1 = true ∧ ((mailed 1 []).launchReq 0 1).bad = true := by decide +kernel

/-! Single steps; each comment names where the expected value stands in the spec. -/

-- R40, worked example: the load takes LOCAL_BOUND and enters the handler at TVEC
theorem test_ld_local_bound_traps :
    let t := after (.ldI64 5 4 1) ((user [(4, 0x40000)] (inStrand (fun r => { r with tvec := 0x801 }))))
    (t.me.tcause, t.me.tpc, t.me.tval, t.me.pc, t.me.th, t.getS 5) = (9, 0x100, 0x40008, 0x800, true, 0) := by decide +kernel

-- R41: the return goes to TPC[15:2] × 4 and clears TH
theorem test_rtt_returns :
    let t := after .rtt (user [] (inStrand (fun r => { r with th := true, tpc := 0x207 })))
    (t.me.pc, t.me.th, t.me.tpc) = (0x204, false, 0x207) := by decide +kernel

-- R118: the sum wraps; ADDS saturates
theorem test_add_wraps : (after (.add 3 1 2) (user [(1, 0xFFFFFFFFFFFFFFFF), (2, 1)])).getS 3 = 0 := by decide +kernel
theorem test_adds_saturates : (after (.adds 3 1 2) (user [(1, 0x7FFFFFFFFFFFFFFF), (2, 1)])).getS 3 = 0x7FFFFFFFFFFFFFFF := by decide +kernel

-- R118: only b[5:0] counts the shift
theorem test_sra_takes_six_bits : (after (.sra 3 1 2) (user [(1, 0x8000000000000000), (2, 0x44)])).getS 3 = 0xF800000000000000 := by
  decide +kernel

-- R3: s0 discards writes; R32: the next address is own + 4
theorem test_s0_discards : let t := after (.addi 0 1 5) (user [(1, 7)]); (t.getS 0, t.me.pc) = (0, 0x104) := by decide +kernel

-- R120
theorem test_div_corner : (after (.div 3 1 2) (user [(1, 0x8000000000000000), (2, 0xFFFFFFFFFFFFFFFF)])).getS 3 = 0x8000000000000000 := by
  decide +kernel
theorem test_div_by_zero_traps :
    let t := after (.rem 3 1 2) (user [(1, 5)] (inStrand (fun r => { r with tvec := 0x801 })))
    (t.me.tcause, t.me.tval, t.getS 3) = (0x0C, 0, 0) := by decide +kernel

-- the worked example of the scalar chapter, steps 1, 2, 4 and 5
theorem test_loop_of_zero_skips : let t := after (.loop 1 1) (user []); (t.me.pc, t.me.lstk[0]) = (0x108, 0) := by decide +kernel
theorem test_loop_of_one_pushes :
    (after (.loop 1 1) ((user [(1, 1)] (inStrand (fun r => { r with pc := 0x10 }))))).me.lstk[0] = 0x8005001400000001 := by decide +kernel
theorem test_back_edge_pops :
    let t := after (.addi 2 2 16) (user [] (inStrand (fun r => { r with pc := 0x14, lstk := r.lstk.set 0 0x8005001400000001 })))
    (t.me.pc, t.me.lstk[0], t.getS 2) = (0x18, 0, 16) := by decide +kernel
theorem test_ldbits_straddles :
    (after (.ldbits 7 8 11) (user [(8, 0x1FC)] (fun x => x.writeBytes 0x3E [0xCD, 0xAB, 0x5A]))).getS 7 = 0x5AA := by decide +kernel
theorem test_loopi_pushes_three :
    (after (.loopi 2 3) (user [] (inStrand (fun r => { r with pc := 0x30 })))).me.lstk[0] = 0x800E003800000003 := by decide +kernel

-- R128: little-endian bytes, sign extension
theorem test_store_bytes :
    let t := after (.st32 1 0 16) (user [(1, 0xFFFFFFFF11223384)])
    (t.here.byte 64, t.here.byte 67, t.here.byte 68) = (0x84, 0x11, 0) := by decide +kernel
theorem test_ld_i8_extends : (after (.ldI8 2 0 64) (user [] (fun x => x.writeBytes 64 [0x84]))).getS 2 = 0xFFFFFFFFFFFFFF84 := by
  decide +kernel

-- R132, R133: the old word, sign-extended, goes to the destination
theorem test_amoadd_returns_old :
    let t := after (.amoadd32 3 1 2) (user [(1, 0x100), (2, 2)] (fun x => x.writeBytes 0x100 [0xFF, 0xFF, 0xFF, 0xFF]))
    (t.getS 3, t.here.byte 0x100, t.here.byte 0x104) = (0xFFFFFFFFFFFFFFFF, 1, 0) := by decide +kernel

-- R246: the worked example's LDFE empties the word's tag; STFE fills it
theorem test_stfe_fills :
    let t := after (.stfe 2 5 1) (user [(5, 0x140), (2, 9)])
    (t.here.full 0x140, t.here.byte 0x140, t.me.wst) = (true, 9, 0) := by decide +kernel
theorem test_ldfe_waits : (after (.ldfe 3 5 1) (user [(5, 0x140)])).me.st = .wait := by decide +kernel

-- R137, R139: word offsets from the instruction's own address
theorem test_bz_taken : (after (.bz 1 0x40) (user [])).me.pc = 0x200 := by decide +kernel
theorem test_jal_links : let t := after (.jal 0x80) (user []); (t.me.pc, t.getS 63) = (0x300, 0x104) := by decide +kernel
theorem test_landing_violation :
    (after (.bz 1 0x41) (user [] (inStrand (fun r => { r with tvec := 0x801 })))).me.tcause = 0x06 := by decide +kernel

-- R202 and the worked examples of R115 and R201: an element gains 877, and reads out as 54.8125 and, with 32 more, as 56.8125
theorem test_zacc_sets_anchor : (after (.zacc 2 5) (user [(5, 52)])).here.acc[2].anc = 52 := by decide +kernel
theorem test_accumulate_products :
    ([((0x39, 0x35), 0), ((0xC4, 0x30), 0), ((0x7E, 0x18), 0), ((0x08, 0x1C), 0)] : List ((Nat × Nat) × Nat)).foldl
      (fun (r : AccElem) x => (accumulate 52 r (decodeTy tE4M3 x.1.1) ((decodeTy tE4M3 x.1.2).scale 1)).1) {} = { sum := 877 } := by
  decide +kernel
theorem test_accrd_reads_f32 :
    (after (.accrd 2 6 0 0) (user [] (fun x => { x with acc := x.acc.set 2 { anc := 52, elems := [(0, { sum := 909 })] } }))).getV 6 =
      0x42634000 := by decide +kernel

-- the conversions of R98's worked example
theorem test_encode_300 : encodeTy tE4M3 (.fin false 300 0 false) 0 false = (0x79, flNX) := by decide +kernel
theorem test_encode_500_saturated : encodeTy tE4M3 (.fin false 500 0 false) 0 true = (0x7E, flOF ||| flNX) := by decide +kernel
theorem test_encode_70000 : encodeTy tE5M2 (.fin false 70000 0 false) 0 false = (0x7C, flOF ||| flNX) := by decide +kernel

-- the worked example of R116
theorem test_quantize :
    quantizeLine 0x10 (.fin false 1000 0 false :: .fin true 53 (-4) false :: .fin false 1 (-4) false :: List.replicate 13 (.fin false 0 0 false)) =
      (0x08B578, 0x1081, flNX) := by decide +kernel

-- the worked example of R175
theorem test_vredsum_tree :
    let t := after (.vredsum 2 1 0 8) (user [] (inStrand (fun r => { r with v := r.v.set 1 (ofElems 32 (0x4B800000 :: List.replicate 15 0x3F800000)) })))
    (t.getV 2, t.me.flg) = (0x4B800007, 1) := by decide +kernel
theorem test_vredsum_inactive_lane :
    (after (.vredsum 2 1 1 8) (user [] (inStrand (fun r => { r with p := r.p.set 1 (~~~(1 <<< 60)), v := r.v.set 1 (ofElems 32 (0x4B800000 :: List.replicate 15 0x3F800000)) })))).getV 2 =
      0x4B800006 := by decide +kernel

-- R177: the line and its descriptor are stored
theorem test_vstd_sets_descriptor :
    let t := after (.vstd 3 4 3 0) (user [(4, 0x40)] (inStrand (fun r => { r with p := r.p.set 3 0x1081, v := r.v.set 3 0x55 })))
    (t.here.byte 0x40, (t.here.bandAt 1).toNat / 2 ^ 16) = (0x55, 0x1081) := by decide +kernel

-- R22: a supervisor register read outside supervisor mode raises PRIVILEGE with TVAL the number
theorem test_supervisor_register_traps :
    let t := after (.mfs 1 512) (user [] (inStrand (fun r => { r with tvec := 0x801 })))
    (t.me.tcause, t.me.tval) = (0x0A, 512) := by decide +kernel

-- R153, R488: SVC parks the strand at the next instruction
theorem test_svc_parks : let t := after (.svc 0x81) (user [(16, 7)]); (t.me.st, t.me.tcause.toNat % 256, t.me.tpc, t.me.tval) = (.park, 0x81, 0x104, 7) := by decide +kernel

-- R22, R280: RETIRE
theorem test_retire : (after .retire (user [])).me.st = .retired := by decide +kernel

-- the worked example of the scalar chapter
theorem test_ldk_sign_extends : (after (.ldk 5 0xABCD) (user [])).getS 5 = 0xFFFFFFFFFFFFABCD := by decide +kernel

-- R55: a prefix is kept for the next instruction
theorem test_pext_extends : (after (.addi 2 1 1) (user [] (inStrand (fun r => { r with pfx := [.pext 1] })))).getS 2 = 0x401 := by decide +kernel

-- R484: a supervisor instruction outside supervisor mode
theorem test_launch_needs_supervisor :
    (after (.launch 1 2 3 0) (user [] (inStrand (fun r => { r with tvec := 0x801 })))).me.tcause = 0x0A := by decide +kernel

-- a step from reset with a word placed by withFetchWord runs it
theorem test_step_runs_addi :
    (match step (State.reset.withFetchWord 32 0x01020805) with | .next t => t.getS 2 | _ => 0) = 5 := by decide +kernel
theorem test_decode_table_word : decodeTableWord 32 0x01020805 = some (.addi 2 2 5) := by decide +kernel

-- R337: the block cipher under the key 00 01 … 1f, the example of FIPS 197 (C.3)
theorem test_aes256 :
    aesEncrypt (roundKeys 0x1f1e1d1c1b1a191817161514131211100f0e0d0c0b0a09080706050403020100) 0xffeeddccbbaa99887766554433221100 =
      0x8960494b9049fceabf456751cab7a28e := by decide +kernel

/-! ### More hypotheses of the statements -/

/-- The largest finite f32, the least subnormal and -0 are finite; 0x7F800001 is a signalling NaN; in f16, 1 rounds to a finite value and 2^16 lies
beyond the largest one. -/
theorem witness_VectorOperationsByElement_floats :
    let expo : Nat → Nat := fun v => v / 2 ^ 23 % 2 ^ 8
    let given : Nat → Int → Int := fun m k => m * 2 ^ (k + 24).toNat
    let most : Int := (2 ^ 11 - 1) * 2 ^ 29
    (8, 23, 127) ∈ [(8, 23, 127), (5, 10, 15), (8, 7, 127)] ∧ 4 ≤ 4 ∧ (∀ v ∈ [0x7F7FFFFF, 1, 0x80000000], v < 2 ^ 32 ∧ expo v ≠ 2 ^ 8 - 1) ∧
      expo 0x7F800001 = 2 ^ 8 - 1 ∧ 0x7F800001 % 2 ^ 23 ≠ 0 ∧ 0x7F800001 % 2 ^ 23 < 2 ^ 22 ∧ 0x7F800001 < 2 ^ 32 ∧ 7 < 8 ∧
      given 1 0 ≤ most ∧ most < given 1 16 := by decide

theorem witness_MfsReadsControlRegisters_others :
    let s := user [] (inStrand (fun r => { r with forced := [(35, 16)] }))
    s.plain 1 = true ∧ SMap.find s.me.forced 35 = some 16 ∧ SMap.find s.me.forced 30 = none ∧ s.supervisor = false ∧ 63 < 64 ∧
      ((supervisor []).mod 0).scrubs = [] ∧ ((supervisor []).mod 0).service = [] ∧ (supervisor []).clusters = [] := by decide +kernel

/-- A counted ending of strand 0 reaches DLPOL's limit, with no event waiting before it (the ring of the supervisor has room) and with one. -/
theorem witness_WaitsPollWaitAndEscalate_event :
    let e : Event := { ctx := 0, ext := 3, code := 8, strand := 1, unit := 5, value := 77 }
    let s := user [] (inStrand (fun r => { r with wtoAddr := 0x100, wtoCount := 15 }))
    let q := s.setTile (mgmtTile 0 0) (withQueue [] (s.tile (mgmtTile 0 0)))
    let w := s.setMod 0 { s.mod 0 with events := [e] }
    s.me.dlpol.toNat = min (s.me.wtoCount.toNat + 1) 65535 ∧ s.me.wtoCount ≠ 0 ∧ s.me.wtoAddr.toNat = 0x100 ∧ (q.mod 0).events = [] ∧
      (q.deliverEvent (modOf q.curTile) e).isSome = true ∧ (w.mod (modOf w.curTile)).events = [e] ∧ [e].length < 4096 := by decide +kernel

/-- Operation o may end, with no condition against it. -/
def mayEnd (s : State) (o : SupOp) : Bool :=
  let t := listed s o
  (t.mod 0).ops[t.ev.i]? == some o && t.opFirst 0 0 o && t.opReady 0 0 o && !works o.instr && !o.begun &&
    (if t.restarted 0 o then 1 else t.refusal 0 o.instr (blockNum o.args 128 8) o.args) == 0

theorem witness_SupervisorOperationsEnd_effects :
    let s := bound id
    let held := bound (fun c => { c with started := true, held := true, lull := true, resident := true })
    let run := bound (fun c => { c with started := true, running := true, resident := true })
    let parked := run.setTile 0 { run.tile 0 with strands := (run.tile 0).strands.set 0 { st := .park } }
    let group := block [(8, 5), (8, 64), (4, 16)]
    mayEnd held (sop (.bindUnbind 4 1 0) 0 0 []) = true ∧ (held.cluster 0).lost = false ∧ (held.cluster 0).gone = false ∧
      mayEnd s (sop (.tmapMap 4 1 3 0) 0 0 (block [(4, 0), (2, 0)])) = true ∧ mayEnd s (sop (.tmapInval 4 1 3 0) 0 0 (block [(8, 64), (1, 1)])) = true ∧
      mayEnd s (sop (.tmapGroup 4 1 3 0) 0 0 group) = true ∧ (s.groupBitmap group).2.2 = false ∧
      mayEnd s (sop (.codestCode 4 1 3 0) 0 0 (block [(8, 0), (4, 65536)])) = true ∧
      mayEnd s (sop (.codestLocal 4 1 3 0) 0 0 (block [(8, 0), (4, 64), (4, 0x3FFC0), (2, 0xFFFF)])) = true ∧
      mayEnd s (sop (.codestReg 4 1 3 0) 0 0 (block [(2, 256), (2, 0xFFFF), (4, 15), (8, 7)])) = true ∧
      mayEnd held (sop (.codestReg 4 1 3 0) 0 0 (block [(2, 14), (2, 1), (4, 2), (8, 7)])) = true ∧ held.clusterHeld 0 = true ∧
      mayEnd s (sop (.codestChunk 4 1 3 0) 0 0 (block [(8, 0), (4, 64)])) = true ∧ mayEnd s (sop (.startLaunch 4 1 0) 0 0 []) = true ∧
      mayEnd held (sop (.startResume 4 1 3 0) 0 0 (block [(8, 3)])) = true ∧ mayEnd parked (sop (.startStrand 4 1 3 0) 0 0 (block [] ++ block [])) = true ∧
      (parked.strand 0 0).park = none ∧ mayEnd held (sop (.imgmvSave 4 1 3 0) 0 0 (block [(8, 0x1000), (1, 2)])) = true ∧ (held.tile 0).errs = [] ∧
      mayEnd held (sop (.imgmvRestore 4 1 3 0) 0 0 (block [(8, 0x1000)])) = true ∧
      mayEnd held (sop (.imgmvMove 4 1 3 0) 0 0 (block [(4, 1)])) = true ∧ mayEnd held (sop (.keyld 4 1 3 0) 0 0 (block [(1, 63)] ++ block [])) = true := by
  decide +kernel

/-- No read of global memory in those states meets poison. -/
theorem witness_SupervisorOperationsEnd_clean (a n : Nat) :
    ((bound id).readSpan 0 a n).2.2 = false ∧
      ((bound (fun c => { c with started := true, held := true, lull := true, resident := true })).readSpan 0 a n).2.2 = false :=
  ⟨State.readSpan_clean _ 0 a n (by decide +kernel) (by decide +kernel), State.readSpan_clean _ 0 a n (by decide +kernel) (by decide +kernel)⟩

/-- The dump operations, wherever the firmware has placed the dump region (R522, log entry 13). -/
theorem witness_SupervisorOperationsEnd_dumps :
    ∃ l : List Byte, ∀ d a b k, mayEnd (bound id) (sop (.dumpLog d a b k) 16 16 l) = true ∧ mayEnd (bound id) (sop (.dumpTrace d a b k) 16 16 l) = true ∧
      mayEnd (bound id) (sop (.dumpCtx d a b k) 0 0 l) = true := by
  have hx : dumpBase 0 < 2 ^ 48 := by
    have : min (Config.dumpOffset 0) (memTop - 2 ^ 32) ≤ memTop - 2 ^ 32 := Nat.min_le_right _ _
    have : dumpBase 0 ≤ memTop - 2 ^ 32 := by unfold dumpBase; omega
    unfold memTop at this
    omega
  generalize hd : dumpBase 0 = x at hx
  have hl : (toBytes 8 x).length = 8 := rfl
  have hb : ∀ n, badDump ((toBytes 8 x ++ List.replicate 56 0) ++ List.replicate 64 0 ++ toBytes 8 n) = false := by
    intro n
    have h0 : blockNum ((toBytes 8 x ++ List.replicate 56 0) ++ List.replicate 64 0 ++ toBytes 8 n) 0 8 = x := by
      rw [blockNum, List.drop_zero, List.append_assoc, List.append_assoc, List.take_left' hl, ofBytes_toBytes]
      exact Nat.mod_eq_of_lt (by omega)
    have h8 : blockNum ((toBytes 8 x ++ List.replicate 56 0) ++ List.replicate 64 0 ++ toBytes 8 n) 8 4 = 0 := rfl
    have hz : zeroBytes ((toBytes 8 x ++ List.replicate 56 0) ++ List.replicate 64 0 ++ toBytes 8 n) 12 64 = true := rfl
    have hm : physModule x = 0 := by unfold physModule bitsOf; omega
    have hq : x / 2 ^ 58 = 0 := by omega
    unfold badDump
    simp only [h0, h8, hz, hm, hd, hq]
    have h1 : ¬ (x + 2 ^ 32 < x + 0) := by omega
    simp
  have hc : (bound id).hasCtx 0 = true := by decide +kernel
  have ha : ∀ (l : List Byte) n, l.length = 64 → n < 256 → blockNum (l ++ List.replicate 64 0 ++ toBytes 8 n) 128 8 = n := by
    intro l n h hn
    have : (l ++ List.replicate 64 (0 : Byte)).length = 128 := by simp [h]
    rw [blockNum, List.drop_left' this, List.take_of_length_le (by simp [toBytes]), ofBytes_toBytes]
    exact Nat.mod_eq_of_lt (by omega)
  have hL : (toBytes 8 x ++ List.replicate 56 (0 : Byte)).length = 64 := rfl
  generalize toBytes 8 x ++ List.replicate 56 (0 : Byte) = l at hb hL
  have key : ∀ (d a b : BitVec 6) (k : BitVec 4) (n : Nat) (i : Instr), i ∈ [.dumpLog d a b k, .dumpTrace d a b k] ∧ n = 16 ∨ i = .dumpCtx d a b k ∧ n = 0 →
      mayEnd (bound id) (sop i n n l) = true := by
    intro d a b k n i h
    have hn : n < 256 := by omega
    have h1 := ha l n hL hn
    have h2 := hb n
    have hs : sop i n n l = { instr := i, tile := mgmtTile 0 0, strand := 0, tok := 1, target := n, args := l ++ List.replicate 64 0 ++ toBytes 8 n } := by
      simp only [sop, hL]
    rw [hs]
    generalize l ++ List.replicate 64 (0 : Byte) ++ toBytes 8 n = args at h1 h2
    have hc' : ∀ o v, (listed (bound id) o v).hasCtx 0 = true := fun _ _ => hc
    have ho : ∀ o v, ((listed (bound id) o v).mod 0).ops[(listed (bound id) o v).ev.i]? = some o := fun _ _ => rfl
    have hf : ∀ o v, (listed (bound id) o v).opFirst 0 0 o = true := fun _ _ => rfl
    simp only [List.mem_cons, List.not_mem_nil, or_false] at h
    rcases h with ⟨rfl | rfl, rfl⟩ | ⟨rfl, rfl⟩ <;>
      simp [mayEnd, ho, hf, State.opReady, works, State.restarted, State.refusal, refuseDump, State.refuseDumpCtx, firstCode, h1, h2, hc']
  exact ⟨l, fun d a b k => ⟨key d a b k 16 _ (.inl ⟨by simp, rfl⟩), key d a b k 16 _ (.inl ⟨by simp, rfl⟩), key d a b k 0 _ (.inr ⟨rfl, rfl⟩)⟩⟩

end Sys2Proof.Machine.Tests
end

section
/-! What the canonical form of the memories (log entry 3) asks of each part of the state, and how the operations that every
step is made of keep it: the finite maps, the memories, and the accessors and updates of tiles, clusters, modules and contexts. -/
namespace Sys2Proof.Machine

/-! ### A property of every element, and of every result -/

/-- Every element that a map lists has the property. -/
def SMap.Each {α : Type} (P : α → Prop) (m : SMap α) : Prop := ∀ e ∈ m, P e.2

/-- The result has the property, if there is one. -/
def OnOk {ε α : Type} (P : α → Prop) : Except ε α → Prop
  | .ok a => P a
  | .error _ => True

/-- The value has the property, if there is one. -/
def OnSome {α : Type} (P : α → Prop) : Option α → Prop
  | some a => P a
  | none => True

/-- The next state of an outcome has the property, if there is one. -/
def OnNext {σ φ ρ : Type} (P : σ → Prop) : Host.Outcome σ φ ρ → Prop
  | .next s => P s
  | _ => True

section
variable {α β ε : Type} {P : α → Prop} {m : SMap α}

theorem SMap.Each.nil : SMap.Each P [] := nofun

theorem SMap.Each.set {a : α} {k : Nat} (h : SMap.Each P m) (ha : P a) : SMap.Each P (SMap.set m k a) := by
  induction m with
  | nil => simpa [SMap.set, SMap.Each] using ha
  | cons e r ih =>
    have hr : SMap.Each P (SMap.set r k a) := ih fun x hx => h x (List.mem_cons_of_mem _ hx)
    have he : P e.2 := h e List.mem_cons_self
    simp only [SMap.Each, SMap.set] at h hr ⊢
    grind

theorem SMap.Each.find {a : α} {k : Nat} (h : SMap.Each P m) (hf : SMap.find m k = some a) : P a := by
  induction m with
  | nil => cases hf
  | cons e r ih =>
    simp only [SMap.find] at hf
    split at hf
    · cases hf; exact h e List.mem_cons_self
    · exact ih (fun x hx => h x (List.mem_cons_of_mem _ hx)) hf

theorem SMap.Each.get {d : α} {k : Nat} (h : SMap.Each P m) (hd : P d) : P (SMap.get d m k) := by
  unfold SMap.get
  cases hf : SMap.find m k with
  | none => exact hd
  | some a => exact h.find hf

theorem SMap.Each.filter {f : Nat × α → Bool} (h : SMap.Each P m) : SMap.Each P (m.filter f) :=
  fun e he => h e (List.mem_filter.mp he).1

theorem SMap.Each.del {k : Nat} (h : SMap.Each P m) : SMap.Each P (SMap.del m k) := h.filter

theorem SMap.Each.map {Q : β → Prop} {f : Nat × α → Nat × β} (h : SMap.Each P m) (hf : ∀ e, P e.2 → Q (f e).2) :
    SMap.Each Q (m.map f) := by
  intro e he
  obtain ⟨a, ha, rfl⟩ := List.mem_map.mp he
  exact hf a (h a ha)

end

/-! ### Results -/

section
variable {ε α β : Type} {P : α → Prop} {Q : β → Prop} {x : Except ε α}

theorem OnOk.of_eq {a : α} (h : OnOk P x) (e : x = .ok a) : P a := by subst e; exact h

theorem OnOk.map_any {f : α → β} (hf : ∀ a, Q (f a)) : OnOk Q (x.map f) := by
  cases x with
  | error => trivial
  | ok a => exact hf a

/-- A check before the rest: what it answers does not matter. -/
theorem OnOk.seq {f : α → Except ε β} (hf : ∀ a, OnOk Q (f a)) : OnOk Q (x >>= f) := by
  cases x with
  | error => trivial
  | ok a => exact hf a

end

theorem OnNext.of_eq {σ φ ρ : Type} {P : σ → Prop} {o : Host.Outcome σ φ ρ} {s : σ} (h : OnNext P o) (e : o = .next s) : P s := by
  subst e; exact h

theorem OnSome.of_eq {α : Type} {P : α → Prop} {o : Option α} {a : α} (h : OnSome P o) (e : o = some a) : P a := by
  subst e; exact h

theorem getD_keeps {α : Type} {P : α → Prop} {o : Option α} {d : α} (hd : P d) (ho : ∀ y, o = some y → P y) : P (o.getD d) := by
  cases o with
  | none => exact hd
  | some y => exact ho y rfl

/-! ### The canonical form of each part -/

abbrev Tile.Canon (x : Tile) : Prop := Memory.wf x.mem = true
abbrev Cluster.Canon (x : Cluster) : Prop := Memory.wf x.store = true
abbrev LineBuf.Canon (x : LineBuf) : Prop := Memory.wf x.bytes = true
/-- What the deltas of a commit have done so far keeps the form of its tile. -/
abbrev Applied.Canon (x : Applied) : Prop := x.x.Canon
abbrev Thread.Canon (x : Thread) : Prop := Memory.wf x.win = true
/-- An image of code that a context keeps (R464). -/
abbrev CodeCanon (x : Memory × BitVec 17) : Prop := Memory.wf x.1 = true

/-- The stores of a module, in their canonical form. -/
structure ModuleStores (mem mbox staging : Memory) (threads : SMap Thread) : Prop where
  mem : Memory.wf mem = true
  mbox : Memory.wf mbox = true
  staging : Memory.wf staging = true
  threads : threads.Each Thread.Canon

abbrev Module.Canon (x : Module) : Prop := ModuleStores x.mem x.mbox x.staging x.threads

/-- The launch state that a context keeps, in its canonical form. -/
structure LaunchStores (tiles : SMap Tile) (code : SMap (Memory × BitVec 17)) : Prop where
  tiles : tiles.Each Tile.Canon
  code : code.Each CodeCanon

abbrev Ctx.Canon (x : Ctx) : Prop := LaunchStores x.startTiles x.startCode

/-- The parts of the state that hold memories, each in its canonical form. -/
structure Stores (tiles : SMap Tile) (clusters : SMap Cluster) (mods : SMap Module) (ctxs : SMap Ctx) : Prop where
  tiles : tiles.Each Tile.Canon
  clusters : clusters.Each Cluster.Canon
  mods : mods.Each Module.Canon
  ctxs : ctxs.Each Ctx.Canon

/-- Every memory of the state has its canonical form; an update of the other fields keeps this by definition. -/
abbrev State.Canon (s : State) : Prop := Stores s.tiles s.clusters s.mods s.ctxs

section
variable {ε α β : Type} {Q : β → Prop}

theorem OnOk.map {x : Except ε State} {f : State → β} (h : OnOk State.Canon x) (hf : ∀ t, t.Canon → Q (f t)) : OnOk Q (x.map f) := by
  cases x with
  | error => trivial
  | ok t => exact hf t h

theorem OnOk.map_fst {x : Except ε (State × α)} {f : State × α → β} (h : OnOk (fun r => r.1.Canon) x)
    (hf : ∀ r, r.1.Canon → Q (f r)) : OnOk Q (x.map f) := by
  cases x with
  | error => trivial
  | ok r => exact hf r h

theorem OnOk.bind {x : Except ε State} {f : State → Except ε β} (h : OnOk State.Canon x) (hf : ∀ t, t.Canon → OnOk Q (f t)) :
    OnOk Q (x >>= f) := by
  cases x with
  | error => trivial
  | ok t => exact hf t h

theorem OnOk.bind_fst {x : Except ε (State × α)} {f : State × α → Except ε β} (h : OnOk (fun r => r.1.Canon) x)
    (hf : ∀ r, r.1.Canon → OnOk Q (f r)) : OnOk Q (x >>= f) := by
  cases x with
  | error => trivial
  | ok r => exact hf r h

end

theorem SMap.all_iff {α : Type} {P : α → Prop} {p : α → Bool} (h : ∀ a, p a = true ↔ P a) (m : SMap α) :
    m.all (fun e => p e.2) = true ↔ m.Each P := by
  simp [SMap.Each, List.all_eq_true, h]

theorem Module.canon_iff (x : Module) : x.memoriesWf = true ↔ x.Canon := by
  have ht := SMap.all_iff (fun a : Thread => (Iff.rfl : Memory.wf a.win = true ↔ a.Canon))
  simp only [Module.memoriesWf, Bool.and_eq_true, ht]
  exact ⟨fun ⟨⟨⟨a, b⟩, c⟩, d⟩ => ⟨a, b, c, d⟩, fun ⟨a, b, c, d⟩ => ⟨⟨⟨a, b⟩, c⟩, d⟩⟩

theorem Ctx.canon_iff (x : Ctx) : x.memoriesWf = true ↔ x.Canon := by
  have ht := SMap.all_iff (fun a : Tile => (Iff.rfl : Memory.wf a.mem = true ↔ a.Canon))
  have hc := SMap.all_iff (fun a : Memory × BitVec 17 => (Iff.rfl : Memory.wf a.1 = true ↔ CodeCanon a))
  simp only [Ctx.memoriesWf, Bool.and_eq_true, ht, hc]
  exact ⟨fun ⟨a, b⟩ => ⟨a, b⟩, fun ⟨a, b⟩ => ⟨a, b⟩⟩

/-- The predicate is what the statement about the steps speaks of. -/
theorem State.canon_iff (s : State) : s.memoriesWf = true ↔ s.Canon := by
  have ht := SMap.all_iff (fun a : Tile => (Iff.rfl : Memory.wf a.mem = true ↔ a.Canon))
  have hk := SMap.all_iff (fun a : Cluster => (Iff.rfl : Memory.wf a.store = true ↔ a.Canon))
  simp only [State.memoriesWf, Bool.and_eq_true, ht, hk, SMap.all_iff Module.canon_iff, SMap.all_iff Ctx.canon_iff]
  exact ⟨fun ⟨⟨⟨a, b⟩, c⟩, d⟩ => ⟨a, b, c, d⟩, fun ⟨a, b, c, d⟩ => ⟨⟨⟨a, b⟩, c⟩, d⟩⟩

/-- A memory written step by step keeps its form. -/
theorem Memory.wf_foldl {α : Type} {f : Memory → α → Memory} {m : Memory} {l : List α} (h : m.wf = true)
    (hf : ∀ u, u.wf = true → ∀ e, (f u e).wf = true) : (l.foldl f m).wf = true :=
  List.foldlRecOn (motive := fun u => u.wf = true) l f h fun u hu e _ => hf u hu e

/-! ### What is not listed -/

theorem Tile.Canon.default : Tile.Canon {} := rfl
theorem Cluster.Canon.default : Cluster.Canon {} := rfl
theorem Module.Canon.default : Module.Canon {} := ⟨rfl, rfl, rfl, .nil⟩
theorem Ctx.Canon.default : Ctx.Canon {} := ⟨.nil, .nil⟩

/-! ### Accessors and updates -/

namespace State.Canon
variable {s : State} {x : Tile} {k t n m c : Nat}

theorem tile (h : s.Canon) : (s.tile t).Canon := h.tiles.get .default
theorem cluster (h : s.Canon) : (s.cluster k).Canon := h.clusters.get .default
theorem mod (h : s.Canon) : (s.mod m).Canon := h.mods.get .default
theorem ctx (h : s.Canon) : (s.ctx c).Canon := h.ctxs.get .default

theorem of_fst {α : Type} {p : State × α} {a : α} (h : p.1.Canon) (e : p = (s, a)) : s.Canon := by subst e; exact h

theorem setTile (h : s.Canon) (hx : x.Canon) : (s.setTile t x).Canon := ⟨h.tiles.set hx, h.clusters, h.mods, h.ctxs⟩
theorem setCluster {x : Cluster} (h : s.Canon) (hx : x.Canon) : (s.setCluster k x).Canon :=
  ⟨h.tiles, h.clusters.set hx, h.mods, h.ctxs⟩
theorem setDie {x : Die} (h : s.Canon) : (s.setDie k x).Canon := h
theorem setMod {x : Module} (h : s.Canon) (hx : x.Canon) : (s.setMod m x).Canon := ⟨h.tiles, h.clusters, h.mods.set hx, h.ctxs⟩
theorem setCtx {x : Ctx} (h : s.Canon) (hx : x.Canon) : (s.setCtx c x).Canon := ⟨h.tiles, h.clusters, h.mods, h.ctxs.set hx⟩

end State.Canon

end Sys2Proof.Machine
end

section
/-! Registers, local memory and the message rings: an operation on a tile or a strand writes local memory through
Memory.writeBytes alone. -/
namespace Sys2Proof.Machine
variable {s : State}

theorem Tile.Canon.setStrand {x : Tile} {n r} (hx : x.Canon) : (x.setStrand n r).Canon := hx
theorem State.Canon.setStrand {t n r} (h : s.Canon) : (s.setStrand t n r).Canon := h.setTile h.tile.setStrand
theorem State.Canon.here (h : s.Canon) : s.here.Canon := h.tile
theorem State.Canon.setHere {x : Tile} (h : s.Canon) (hx : x.Canon) : (s.setHere x).Canon := h.setTile hx
theorem State.Canon.setMe {r} (h : s.Canon) : (s.setMe r).Canon := h.setHere h.here.setStrand

theorem State.Canon.setS {r v} (h : s.Canon) : (s.setS r v).Canon := by
  unfold State.setS
  split
  · exact h
  · exact h.setMe

theorem State.Canon.setP {r v} (h : s.Canon) : (s.setP r v).Canon := by
  unfold State.setP
  split
  · exact h
  · exact h.setMe

theorem State.Canon.setV {r v} (h : s.Canon) : (s.setV r v).Canon := h.setMe
theorem State.Canon.setD {r v} (h : s.Canon) : (s.setD r v).Canon := h.setMe
theorem State.Canon.setTok {k x} (h : s.Canon) : (s.setTok k x).Canon := h.setMe
theorem State.Canon.orFlags {f} (h : s.Canon) : (s.orFlags f).Canon := h.setMe
theorem Tile.Canon.setQcfg {x : Tile} {q v} (hx : x.Canon) : (x.setQcfg q v).Canon := hx
theorem Tile.Canon.writeBytes {x : Tile} {a l} (hx : x.Canon) : (x.writeBytes a l).Canon := Memory.wf_writeBytes _ _ _ hx
theorem Tile.Canon.forget {x : Tile} {lo len base} (hx : x.Canon) : (x.forget lo len base).Canon := Memory.wf_clear _ _ _ hx
theorem State.Canon.forget {t lo len} (h : s.Canon) : (s.forget t lo len).Canon := h.setTile h.tile.forget
theorem Tile.Canon.setTail {x : Tile} {q tail} (hx : x.Canon) : (x.setTail q tail).Canon := hx.setQcfg

theorem Tile.Canon.tryAppend {x y : Tile} {q ch rec} (hx : x.Canon) (e : x.tryAppend q ch rec = some y) : y.Canon := by
  obtain ⟨r, -, rfl⟩ := Option.map_eq_some_iff.mp e
  exact Tile.Canon.setTail (List.foldlRecOn _ _ hx fun _ hy _ _ => hy.writeBytes)

theorem Tile.Canon.setOverflow {x : Tile} {q l} (hx : x.Canon) : (x.setOverflow q l).Canon := hx

theorem Tile.Canon.appendRecord {x : Tile} {q rec} (hx : x.Canon) : (x.appendRecord q rec).Canon := by
  unfold Tile.appendRecord
  split
  · exact hx.setOverflow
  · split
    next e₁ => exact hx.tryAppend e₁
    · exact hx.setOverflow

theorem State.Canon.deliverEvent {t : State} {m ev} (h : s.Canon) (e : s.deliverEvent m ev = some t) : t.Canon := by
  unfold State.deliverEvent at e
  extract_lets at e
  split at e
  · obtain ⟨y, hy, rfl⟩ := Option.map_eq_some_iff.mp e
    exact h.setTile (h.tile.tryAppend hy)
  · cases e

theorem State.Canon.emit {m e} (h : s.Canon) : (s.emit m e).Canon := by
  unfold State.emit
  extract_lets md hold
  have hmd : md.Canon := h.mod
  have hhold : hold.Canon := by
    unfold hold
    split <;> exact h.setMod hmd
  split
  · refine getD_keeps hhold (fun y₁ e₂ => State.Canon.deliverEvent ?_ e₂)
    exact h
  · exact hhold

theorem State.Canon.tileEvent {t code strand value ext} (h : s.Canon) : (s.tileEvent t code strand value ext).Canon := h.emit

theorem Tile.Canon.window {x : Tile} {now} (hx : x.Canon) : (x.window now).Canon := by
  unfold Tile.window
  extract_lets
  split <;> exact hx

theorem State.Canon.countError {t cause part} (h : s.Canon) : (s.countError t cause part).Canon := by
  unfold State.countError
  extract_lets x _ _ _ _ _ s₁
  have hx : x.Canon := h.tile.window
  have hs₁ : s₁.Canon := h.setTile hx
  split
  · exact hs₁.tileEvent
  · exact hs₁

theorem State.Canon.send {m} (h : s.Canon) : (s.send m).Canon := h

theorem State.Canon.voteAbort {t cause} (h : s.Canon) : (s.voteAbort t cause).Canon := by
  unfold State.voteAbort
  extract_lets x
  have hx : x.Canon := h.tile
  split
  · split
    · exact .send (h.setTile hx)
    · exact h.setTile hx
  · exact h.setTile hx

theorem State.Canon.formArrival {t} (h : s.Canon) : (s.formArrival t).Canon := by
  unfold State.formArrival
  extract_lets x
  have hx : x.Canon := h.tile
  split
  · exact h
  · split
    · exact .send (h.setTile hx)
    · exact h

theorem Debug.flushLine_wf {d : Debug} {mem : Memory} (hmem : mem.wf = true) : (d.flushLine mem).2.wf = true := by
  unfold Debug.flushLine
  split
  · exact hmem
  · extract_lets _ _ _ _ _ _ mem₁
    have hmem₁ : mem₁.wf = true := Memory.wf_writeBytes _ _ _ hmem
    split
    · exact hmem
    · exact hmem₁

theorem State.Canon.traceRecord {t w} (h : s.Canon) : (s.traceRecord t w).Canon := by
  unfold State.traceRecord
  extract_lets x _ _ _ _ r src₁
  have hx : x.Canon := h.tile
  have hr : r.2.wf = true := Debug.flushLine_wf h.mod.mem
  have hsrc₁ : src₁.Canon := h.mod
  split
  · exact h.setTile hx
  · exact .setMod (h.setTile hx) ⟨hr, hsrc₁.mbox, hsrc₁.staging, hsrc₁.threads⟩

theorem State.Canon.branchRecord {t n kd a b} (h : s.Canon) : (s.branchRecord t n kd a b).Canon := by
  unfold State.branchRecord
  extract_lets
  split
  · exact h.traceRecord
  · exact h

theorem State.Canon.branchFlush {t} (h : s.Canon) : (s.branchFlush t).Canon := by
  unfold State.branchFlush
  extract_lets x _ r src
  have hx : x.Canon := h.tile
  have hr : r.2.wf = true := Debug.flushLine_wf h.mod.mem
  have hsrc : src.Canon := h.mod
  split
  · exact h
  · exact .setMod (h.setTile hx) ⟨hr, hsrc.mbox, hsrc.staging, hsrc.threads⟩

theorem State.Canon.barrierRecord {t k num} (h : s.Canon) : (s.barrierRecord t k num).Canon := by
  unfold State.barrierRecord
  split
  · exact h.traceRecord.branchFlush
  · exact h

theorem Tile.Canon.setBand {x : Tile} {line b} (hx : x.Canon) : (x.setBand line b).Canon := hx
theorem Tile.Canon.setDesc {x : Tile} {line d} (hx : x.Canon) : (x.setDesc line d).Canon := hx.setBand

theorem Tile.Canon.putPart {x : Tile} {p} (hx : x.Canon) : (x.putPart p).Canon := by
  unfold Tile.putPart
  extract_lets y
  have hy : y.Canon := List.foldlRecOn _ _ hx fun _ hy₁ _ _ => hy₁.writeBytes
  split
  · exact hy.setDesc
  · exact hy

theorem Tile.Canon.touch {x : Tile} {mgmt line mask} (hx : x.Canon) : (x.touch mgmt line mask).Canon := by
  unfold Tile.touch
  split
  · exact hx
  · split <;> exact hx

theorem Tile.Canon.performPart {mgmt} {x : Tile} {p} (hx : x.Canon) : (Tile.performPart mgmt x p).Canon := hx.touch.putPart

theorem Tile.Canon.performWhere {x : Tile} {mgmt} {f : Pend → Bool} (hx : x.Canon) : (x.performWhere mgmt f).Canon :=
  List.foldlRecOn _ _ hx fun _ hu _ _ => hu.performPart

theorem Tile.Canon.performAll {x : Tile} {mgmt} (hx : x.Canon) : (x.performAll mgmt).Canon :=
  List.foldlRecOn _ _ hx fun _ hu _ _ => hu.performPart

theorem State.Canon.release (h : s.Canon) : s.release.Canon := by
  unfold State.release
  split
  · exact h.setHere h.here.performWhere
  · exact h

theorem State.Canon.passHalt {t reason} (h : s.Canon) : (s.passHalt t reason).Canon := by
  unfold State.passHalt
  split
  · split
    · exact List.foldlRecOn _ _ h fun _ hu _ _ => hu.send
    · exact h
  · exact h

theorem State.Canon.haltTile {t reason} (h : s.Canon) : (s.haltTile t reason).Canon := by
  unfold State.haltTile
  extract_lets x _ _ _ u
  have hx : x.Canon := h.tile
  have hu : u.Canon := .branchFlush (h.setTile hx)
  split
  · exact hu
  · exact hu.passHalt

theorem State.Canon.takeTrap {c sub tval ret lost} (h : s.Canon) : (s.takeTrap c sub tval ret lost).Canon := by
  unfold State.takeTrap
  extract_lets _ src _ _ _ _ _ _ _ _ _ s₂ src₂ s₃ s₄
  have hsrc : src.Canon := h.release
  have hs₂ : s₂.Canon := hsrc.setMe
  have hsrc₂ : src₂.Canon := hs₂.here
  have hs₃ : s₃.Canon := by
    unfold s₃
    split
    · exact hs₂.setHere hsrc₂
    · exact hs₂
  have hs₄ : s₄.Canon := hsrc.setMe
  split
  · exact .haltTile hsrc.setMe
  · split
    · exact .branchRecord hsrc.setMe
    · split
      · exact hs₃.voteAbort.formArrival
      · split <;> exact hs₄.tileEvent

theorem Tile.Canon.dropLanes {x : Tile} (hx : x.Canon) : x.dropLanes.Canon := by
  unfold Tile.dropLanes
  split <;> exact hx

theorem State.Canon.trapUnit {c sub tval lost} (h : s.Canon) : (s.trapUnit c sub tval lost).Canon := h.takeTrap

theorem State.Canon.countTrap {c part} (h : s.Canon) : (s.countTrap c part).Canon := by
  unfold State.countTrap
  extract_lets s₁
  have hs₁ : s₁.Canon := h.countError
  split
  · exact hs₁.setHere hs₁.here.dropLanes
  · exact hs₁

theorem State.Canon.reportHeld (h : s.Canon) : s.reportHeld.Canon := by
  unfold State.reportHeld
  split
  · exact h
  · exact h.setMe.takeTrap

theorem Tile.Canon.under {x : Tile} {e} (hx : x.Canon) : (x.under e).Canon := List.foldlRecOn _ _ hx fun _ hy _ _ => hy.writeBytes

theorem State.Canon.view (h : s.Canon) : s.view.Canon := by
  unfold State.view
  extract_lets
  split
  · exact h.here
  · exact Tile.Canon.under (List.foldlRecOn _ _ h.here fun _ hu _ _ => hu.putPart)

theorem State.Canon.correctAt {t loc} (h : s.Canon) : (s.correctAt t loc).Canon := by
  unfold State.correctAt
  extract_lets x
  have hx : x.Canon := h.tile
  split
  · exact .countError (h.setTile hx)
  · exact h

theorem State.Canon.setWst {code pc} (h : s.Canon) : (s.setWst code pc).Canon := by
  unfold State.setWst
  extract_lets
  split
  · split
    · exact h.setMe.tileEvent
    · exact h.setMe
  · exact h.setMe

theorem State.Canon.ringRead {l} (h : s.Canon) : (s.ringRead l).1.Canon := by
  induction l generalizing s with
  | nil => exact h
  | cons k r ih =>
    unfold State.ringRead
    split
    · exact h
    · split
      · exact h
      · exact ih h.correctAt

theorem Tile.Canon.consume {x : Tile} {q p z} (hx : x.Canon) : (x.consume q p z).Canon := hx.setQcfg
theorem State.Canon.arriveAt {a} (h : s.Canon) : (s.arriveAt a).Canon := h.setMe

theorem State.Canon.popLoop (h : s.Canon) : s.popLoop.Canon := by
  unfold State.popLoop
  split
  · exact h
  · exact h.setMe

end Sys2Proof.Machine
end

section
/-! How a unit ends: traps, loop ends, the errors that a read corrects, and the stores of a strand. -/
namespace Sys2Proof.Machine
variable {s : State}

theorem State.Canon.examine {f pend} (h : s.Canon) : (State.examine f s pend).Canon := by
  induction f generalizing s pend with
  | zero => exact h
  | succ f ih =>
    unfold State.examine
    split
    · exact h
    extract_lets _ _ _ _ _ _ fail leave
    have hfail : ∀ (s : State) (c sub : BitVec 8) (tval : Word) (lost : Bool), s.Canon → (fail s c sub tval lost).Canon :=
      fun _ _ _ _ _ hs => hs.popLoop.setP.setMe.takeTrap
    have hleave : ∀ (s : State) (eos : Tile → Tile) (code : BitVec 8) (p7 : Word), s.Canon → (∀ x : Tile, x.Canon → (eos x).Canon) →
        (leave s eos code p7).Canon := by
      unfold leave
      intro _ _ _ _ hs heos
      extract_lets _ _ s₂ s₃ _ s₄
      have hs₃ : s₃.Canon := (hs.setHere (heos _ hs.here)).setP.setWst.popLoop
      have hs₄ : s₄.Canon := hs₃.setMe
      split
      · exact hs.popLoop.setMe.takeTrap
      · split
        · exact hs₃.setMe.arriveAt
        · split
          · exact hs₄.arriveAt
          · exact ih hs₄.arriveAt
    clear_value fail leave
    split
    · exact hfail _ _ _ _ _ h
    · split
      next e => exact hfail _ _ _ _ _ (h.ringRead.of_fst e).countError
      next e =>
        have hs := h.ringRead.of_fst e
        split
        · exact hfail _ _ _ _ _ hs
        · exact hs.setP.setWst.arriveAt
        · exact hleave _ _ _ _ hs fun _ hx => hx.consume
        · split
          · exact hleave _ _ _ _ hs fun _ hx => hx
          · extract_lets
            split
            · exact hleave _ _ _ _ hs fun _ hx => hx
            · exact hs.setMe

theorem State.Canon.stepHalt (h : s.Canon) : s.stepHalt.Canon := by
  unfold State.stepHalt
  extract_lets _ s₁ _ s₂ src₁
  have hs₁ : s₁.Canon := by
    unfold s₁
    split
    · exact h
    · exact h.takeTrap
  have hs₂ : s₂.Canon := hs₁.setMe
  have hsrc₁ : src₁.Canon := hs₂.here
  split
  · exact .branchFlush (hs₂.setHere hsrc₁)
  · exact h

theorem State.Canon.afterRetire (h : s.Canon) : s.afterRetire.Canon := by
  unfold State.afterRetire
  extract_lets _ s₁ s₂
  have hs₁ : s₁.Canon := h.setMe
  have hs₂ : s₂.Canon := by
    unfold s₂
    split
    · exact h
    · split
      · exact hs₁.takeTrap
      · exact hs₁
  exact hs₂.stepHalt

theorem State.Canon.retireSeq {t : State} {words} (h : s.Canon) (ht : t.Canon) : (s.retireSeq t words).Canon := by
  unfold State.retireSeq
  extract_lets
  split
  · exact h.takeTrap.afterRetire
  · split
    · exact ht.arriveAt.setMe.stepHalt
    · split
      · exact ht.setMe.arriveAt.afterRetire
      · exact ht.setMe.arriveAt.examine.afterRetire

theorem State.Canon.retireTo {t : State} {a} (h : s.Canon) (ht : t.Canon) : (s.retireTo t a).Canon := by
  unfold State.retireTo
  split
  · exact h.takeTrap.afterRetire
  · exact ht.arriveAt.afterRetire

theorem State.Canon.enterStall {i sub tval} (h : s.Canon) : (s.enterStall i sub tval).Canon := h.setMe

theorem State.Canon.enterWait {i k} (h : s.Canon) : (s.enterWait i k).Canon := by
  unfold State.enterWait
  extract_lets
  split <;> exact h.setMe

theorem State.Canon.stopped {i e} (h : s.Canon) : (State.stopped i e s).Canon := by
  induction e generalizing s with
  | trap => exact h.trapUnit.afterRetire
  | counted => exact h.countTrap.trapUnit.afterRetire
  | stall => exact h.enterStall
  | wait => exact h.enterWait
  | report => exact h.reportHeld.afterRetire
  | soft l e ih => exact ih (List.foldlRecOn _ _ h fun _ hu _ _ => hu.correctAt)

theorem State.Canon.finish {i e} (h : s.Canon) (he : OnOk (fun a => a.1.Canon) e) : OnNext State.Canon (s.finish i e) := by
  unfold State.finish
  show State.Canon _
  split
  · exact h.stopped
  · exact h.retireSeq he
  · exact h.retireTo he
  · exact h.retireTo he.branchRecord
  · exact h.retireTo he.branchRecord
  · exact he.setMe.afterRetire

theorem State.Canon.finishSeq {i e} (h : s.Canon) (he : OnOk State.Canon e) : OnNext State.Canon (s.finishSeq i e) :=
  h.finish (OnOk.map he fun _ ha => ha)

theorem Tile.Canon.storeBytes {x : Tile} {mgmt a l} (hx : x.Canon) : (x.storeBytes mgmt a l).Canon :=
  Tile.Canon.writeBytes (List.foldlRecOn _ _ hx fun _ hy _ _ => hy.touch)

theorem Tile.Canon.storeCells {x : Tile} {mgmt l} (hx : x.Canon) : (x.storeCells mgmt l).Canon := by
  unfold Tile.storeCells
  extract_lets y
  have hy : y.Canon := List.foldlRecOn _ _ hx fun _ hy₁ _ _ => hy₁.touch
  exact List.foldlRecOn _ _ hy fun _ hy₁ _ _ => hy₁.writeBytes

theorem State.Canon.storePart {p} (h : s.Canon) : (s.storePart p).Canon := by
  unfold State.storePart
  split
  · exact h.setHere h.here
  · exact h.setHere h.here.performPart

theorem State.Canon.storeParts {l} (h : s.Canon) : (s.storeParts l).Canon := List.foldlRecOn _ _ h fun _ hu _ _ => hu.storePart

theorem State.Canon.settle (h : s.Canon) : s.settle.Canon := by
  unfold State.settle
  split
  · exact h
  · exact h.setHere h.here.performAll

theorem State.Canon.note {glob wr a n} (h : s.Canon) : (s.note glob wr a n).Canon := by
  unfold State.note
  split
  · exact h
  · exact h.setMe

theorem OnOk.keepSoft {α} {P : α → Prop} {t : State} {x} (hx : OnOk P x) : OnOk P (s.keepSoft t x) := by
  unfold State.keepSoft
  split
  · exact hx
  · split <;> trivial

theorem OnOk.andThen {α} {P : α → Prop} {x} {f : State → Except Stop α} (hx : OnOk State.Canon x)
    (hf : ∀ t, t.Canon → OnOk P (f t)) : OnOk P (s.andThen x f) := by
  cases x with
  | error => trivial
  | ok t => exact (hf t hx).keepSoft

theorem State.Canon.readMark {loc sub tval lost} (h : s.Canon) : OnOk State.Canon (s.readMark loc sub tval lost) := by
  unfold State.readMark
  split
  · exact h
  · split
    · trivial
    · exact h.correctAt

theorem State.Canon.readLines {tval l} (h : s.Canon) : OnOk State.Canon (s.readLines tval l) := by
  induction l generalizing s with
  | nil => exact h
  | cons k r ih => exact OnOk.andThen h.readMark fun t ht => ih ht

theorem State.Canon.readSide {line tval} (h : s.Canon) : OnOk State.Canon (s.readSide line tval) := h.readMark

theorem State.Canon.preRead {tval l} (h : s.Canon) : OnOk State.Canon (s.preRead tval l) := by
  induction l generalizing s with
  | nil => exact h
  | cons k r ih =>
    unfold State.preRead
    split
    · exact h
    · split
      · exact OnOk.andThen h.readSide fun t ht => OnOk.andThen ht.readLines fun u hu => ih hu
      · exact ih h

theorem State.Canon.loadNum {a n : Nat} {tval} (h : s.Canon) : OnOk (fun a => a.1.Canon) (s.loadNum a n tval) :=
  OnOk.map h.readLines fun _ ha => ha.note

theorem State.Canon.putBytes {part a l} (h : s.Canon) : (s.putBytes part a l).Canon := by
  unfold State.putBytes
  split
  · exact h.setHere h.here.storeBytes
  · exact h.storeParts

theorem State.Canon.storeNow {a n v} (h : s.Canon) : (s.storeNow a n v).Canon := (h.setHere h.here.storeBytes).note
theorem State.Canon.storeNum {a n v} (h : s.Canon) : (s.storeNum a n v).Canon := h.putBytes.note
theorem Tile.Canon.setAcc {x : Tile} {c a} (hx : x.Canon) : (x.setAcc c a).Canon := hx

end Sys2Proof.Machine
end

section
/-! Scalar, local-memory and vector instructions. -/
namespace Sys2Proof.Machine
variable {s : State}

theorem State.Canon.myCtx (h : s.Canon) : s.myCtx.Canon := by
  unfold State.myCtx
  split
  · exact h.ctx
  · exact ⟨.nil, .nil⟩

theorem State.Canon.putS {i d v} (h : s.Canon) : OnNext State.Canon (s.putS i d v) := h.finishSeq h.setS

theorem State.Canon.putDiv {i d b v} (h : s.Canon) : OnNext State.Canon (s.putDiv i d b v) := by
  unfold State.putDiv
  refine h.finishSeq ?_
  split
  · trivial
  · exact h.setS

theorem execIll_canon {x} (h : s.Canon) : OnNext State.Canon (execIll x s) := h.finishSeq trivial

theorem execCmov_canon {d a b} (h : s.Canon) : OnNext State.Canon (execCmov d a b s) := by
  unfold execCmov
  refine h.finishSeq ?_
  show State.Canon _
  split
  · exact h.setS
  · exact h

theorem State.Canon.finishPone {i} {get : State → Line} {put : State → Line → State} {wst e} (h : s.Canon)
    (hput : ∀ (u : State) l, u.Canon → (put u l).Canon) (he : OnOk State.Canon e) :
    OnNext State.Canon (s.finishPone i get put wst e) := by
  unfold State.finishPone
  split
  · exact h.finishSeq he
  split
  · split
    · exact h.finishSeq trivial
    · exact h.finishSeq (OnOk.map he fun _ ht => List.foldlRecOn _ _ ht fun _ hu _ _ => hu.send)
  · split
    · exact h.finishSeq trivial
    split
    · exact h.finishSeq trivial
    split
    · exact h.finishSeq trivial
    extract_lets src t t₁
    have hsrc : src.Canon := h.here
    have ht : t.Canon := h.setHere hsrc
    have ht₁ : t₁.Canon := hput _ _ ht
    refine h.finishSeq ?_
    show State.Canon _
    split
    · exact ht₁.setWst
    · exact ht₁

theorem State.Canon.loadValue {a : Word} {n} (h : s.Canon) : OnOk (fun a => a.1.Canon) (s.loadValue a n) := by
  unfold State.loadValue
  split
  · split
    · trivial
    split
    · trivial
    split
    · trivial
    split
    · trivial
    · exact OnOk.map_fst h.loadNum fun _ hr => hr
  · split
    · trivial
    · exact h.loadNum

theorem State.Canon.load {i d a imm n} {conv : Nat → Word} (h : s.Canon) : OnNext State.Canon (s.load i d a imm n conv) :=
  h.finishPone (fun _ _ hu => hu.setS) (OnOk.map_fst h.loadValue fun _ hr => hr.setS)

theorem State.Canon.store {i d a imm n} (h : s.Canon) : OnNext State.Canon (s.store i d a imm n) := by
  unfold State.store
  extract_lets
  refine h.finishSeq ?_
  split
  · trivial
  · exact OnOk.map h.preRead fun _ ht => ht.storeNum

theorem execLdbits_canon {d a w} (h : s.Canon) : OnNext State.Canon (execLdbits d a w s) := by
  unfold execLdbits
  extract_lets
  refine h.finishSeq ?_
  split
  · trivial
  · exact OnOk.map h.readLines fun _ ht => ht.note.setS

theorem State.Canon.putBits {l} (h : s.Canon) : (s.putBits l).Canon := by
  unfold State.putBits
  split
  · exact h.setHere (List.foldlRecOn _ _ h.here fun _ hy _ _ => hy.storeBytes)
  · exact h.storeParts

theorem execStbits_canon {d a w} (h : s.Canon) : OnNext State.Canon (execStbits d a w s) := by
  unfold execStbits
  extract_lets
  refine h.finishSeq ?_
  split
  · trivial
  · exact OnOk.map (h.readLines.andThen (fun _ ht₁ => ht₁.preRead)) fun _ ht => ht.putBits.note

theorem State.Canon.atomic {i d a n} {new : Nat → Nat} (h : s.Canon) : OnNext State.Canon (s.atomic i d a n new) := by
  unfold State.atomic
  extract_lets
  refine h.finishSeq ?_
  split
  · trivial
  · exact OnOk.map_fst (h.release.preRead.andThen (fun _ ht₁ => ht₁.loadNum)) fun _ hr => hr.storeNow.setS

theorem execAmoadd32_canon {d a b} (h : s.Canon) : OnNext State.Canon (execAmoadd32 d a b s) := h.atomic
theorem execAmoand32_canon {d a b} (h : s.Canon) : OnNext State.Canon (execAmoand32 d a b s) := h.atomic
theorem execAmoor32_canon {d a b} (h : s.Canon) : OnNext State.Canon (execAmoor32 d a b s) := h.atomic
theorem execAmoxor32_canon {d a b} (h : s.Canon) : OnNext State.Canon (execAmoxor32 d a b s) := h.atomic
theorem execAmomin32_canon {d a b} (h : s.Canon) : OnNext State.Canon (execAmomin32 d a b s) := h.atomic
theorem execAmomax32_canon {d a b} (h : s.Canon) : OnNext State.Canon (execAmomax32 d a b s) := h.atomic
theorem execAmoswp32_canon {d a b} (h : s.Canon) : OnNext State.Canon (execAmoswp32 d a b s) := h.atomic
theorem execAmoadd64_canon {d a b} (h : s.Canon) : OnNext State.Canon (execAmoadd64 d a b s) := h.atomic
theorem execAmoand64_canon {d a b} (h : s.Canon) : OnNext State.Canon (execAmoand64 d a b s) := h.atomic
theorem execAmoor64_canon {d a b} (h : s.Canon) : OnNext State.Canon (execAmoor64 d a b s) := h.atomic
theorem execAmoxor64_canon {d a b} (h : s.Canon) : OnNext State.Canon (execAmoxor64 d a b s) := h.atomic
theorem execAmomin64_canon {d a b} (h : s.Canon) : OnNext State.Canon (execAmomin64 d a b s) := h.atomic
theorem execAmomax64_canon {d a b} (h : s.Canon) : OnNext State.Canon (execAmomax64 d a b s) := h.atomic
theorem execAmoswp64_canon {d a b} (h : s.Canon) : OnNext State.Canon (execAmoswp64 d a b s) := h.atomic

theorem execAmocas_canon {d a b wide n} (h : s.Canon) : OnNext State.Canon (execAmocas d a b wide n s) := by
  unfold execAmocas
  exact h.atomic

theorem Tile.Canon.setFull {x : Tile} {a v} (hx : x.Canon) : (x.setFull a v).Canon := hx.setBand

theorem State.Canon.ldfeMet {d a keep} (h : s.Canon) : OnOk State.Canon (s.ldfeMet d a keep) := by
  unfold State.ldfeMet
  extract_lets
  split
  · trivial
  refine OnOk.map (h.readSide.andThen (fun t₁ ht₁ => ht₁.readLines.andThen ?_)) fun t ht => (ht.setHere ?_).note.note.setS.setWst
  · intro _ ht₂
    split
    · exact ht₂
    · exact ht₂.preRead
  · split
    · exact ht.here
    · exact ht.here.touch.setFull

theorem State.Canon.stfeMet {d a} (h : s.Canon) : OnOk State.Canon (s.stfeMet d a) := by
  unfold State.stfeMet
  extract_lets
  split
  · trivial
  · exact OnOk.map (h.release.readSide.andThen (fun _ ht₁ => ht₁.preRead))
      fun _ ht => (ht.storeNow.setHere ht.storeNow.here.touch.setFull).setWst

theorem State.Canon.serve {a n} (h : s.Canon) : (State.serve a n s).Canon := by
  induction n generalizing s with
  | zero => exact h
  | succ f ih =>
    unfold State.serve
    split
    · exact h
    extract_lets u
    have hu : u.Canon := h
    split
    · exact h
    extract_lets u₁ r
    have hu₁ : u₁.Canon := hu.setMe
    have hr : OnNext Canon r := by
      unfold r
      split
      · exact hu₁.finishSeq hu₁.ldfeMet
      · exact hu₁.finishSeq hu₁.ldfeMet
      · exact hu₁.finishSeq hu₁.stfeMet
      · exact hu₁
    clear_value r
    split
    · exact ih hr
    · exact h

theorem serveAfter_canon {a a₁} (ha₁ : OnNext State.Canon a₁) : OnNext State.Canon (serveAfter a a₁) := by
  unfold serveAfter
  split
  · exact ha₁.serve
  · exact ha₁

theorem State.Canon.fullEmpty {i a l acc wantFull} {met : State → Except Stop State} (h : s.Canon)
    (hmet : ∀ u : State, u.Canon → OnOk State.Canon (met u)) : OnNext State.Canon (s.fullEmpty i a l acc wantFull met) := by
  unfold State.fullEmpty
  extract_lets _ go
  have hgo : OnOk (fun a => a.1.Canon) go := by
    unfold go
    split
    · trivial
    refine h.readSide.andThen ?_
    intro _ ht₁
    split
    · exact OnOk.map (hmet _ ht₁) fun _ ht => ht
    · exact ht₁.setWst
    · exact ht₁.setWst
    · trivial
  exact serveAfter_canon (h.finish hgo)

theorem execLdfe_canon {d a l} (h : s.Canon) : OnNext State.Canon (execLdfe d a l s) := h.fullEmpty (fun _ hu => hu.ldfeMet)

theorem execLdfeKeep_canon {d a l} (h : s.Canon) : OnNext State.Canon (execLdfeKeep d a l s) :=
  h.fullEmpty (fun _ hu => hu.ldfeMet)

theorem execStfe_canon {d a l} (h : s.Canon) : OnNext State.Canon (execStfe d a l s) := h.fullEmpty (fun _ hu => hu.stfeMet)

theorem State.Canon.fetag {i d a acc} {f : BitVec 32 → BitVec 32} (h : s.Canon) : OnNext State.Canon (s.fetag i d a acc f) := by
  unfold State.fetag
  extract_lets _ _ s₁ _ _ r
  have hs₁ : s₁.Canon := by
    unfold s₁
    split
    · exact h.release
    · exact h
  have hr : OnNext State.Canon r := by
    unfold r
    refine hs₁.finishSeq ?_
    split
    · trivial
    refine OnOk.map (hs₁.readSide.andThen ?_) fun t ht => (State.Canon.note ?_).note.setS
    · intro _ ht₁
      split
      · exact ht₁.preRead
      · exact ht₁
    · split
      · exact ht.setHere ht.here.touch.setBand
      · exact ht
  split
  · exact List.foldlRecOn _ _ hr fun _ ho _ _ => serveAfter_canon ho
  · exact hr

theorem execFetagSetf_canon {d a b} (h : s.Canon) : OnNext State.Canon (execFetagSetf d a b s) := h.fetag
theorem execFetagSete_canon {d a b} (h : s.Canon) : OnNext State.Canon (execFetagSete d a b s) := h.fetag
theorem execFetagPeek_canon {d a} (h : s.Canon) : OnNext State.Canon (execFetagPeek d a s) := h.fetag

theorem execPoneRecordArrival_canon (h : s.Canon) : OnNext State.Canon (execPoneRecordArrival s) := by
  unfold execPoneRecordArrival
  split
  · extract_lets s₁ x₁
    have hs₁ : s₁.Canon := h
    have hx₁ : x₁.Canon := hs₁.tile
    split
    · exact hs₁
    · exact hs₁.setTile hx₁
  · exact h

theorem State.Canon.dropLanes (h : s.Canon) : s.dropLanes.Canon := by
  unfold State.dropLanes
  split
  · exact h
  · exact h.setHere h.here.dropLanes

theorem State.Canon.vecOp {i op d a yv p y} (h : s.Canon) : OnNext State.Canon (s.vecOp i op d a yv p y) := by
  unfold State.vecOp
  extract_lets _ _ _ _ _ _ _ _ bad
  refine h.finishSeq ?_
  clear_value bad
  split
  · trivial
  · exact h.dropLanes.setV.orFlags

theorem execVcmp_canon {q a b c y} (h : s.Canon) : OnNext State.Canon (execVcmp q a b c y s) := h.finishSeq h.setP.orFlags
theorem execVsel_canon {d a b p} (h : s.Canon) : OnNext State.Canon (execVsel d a b p s) := h.finishSeq h.setV
theorem execVcvt_canon {d a src p y} (h : s.Canon) : OnNext State.Canon (execVcvt d a src p y s) := h.finishSeq h.setV.orFlags
theorem execVbcast_canon {x b p z} (h : s.Canon) : OnNext State.Canon (execVbcast x b p z s) := h.finishSeq h.setV
theorem execVext_canon {x b z i} (h : s.Canon) : OnNext State.Canon (execVext x b z i s) := h.finishSeq h.setS
theorem execVins_canon {x b z i} (h : s.Canon) : OnNext State.Canon (execVins x b z i s) := h.finishSeq h.setV
theorem execVperm_canon {d a b p y} (h : s.Canon) : OnNext State.Canon (execVperm d a b p y s) := h.finishSeq h.setV

theorem State.Canon.vecRed {i op d a p y} (h : s.Canon) : OnNext State.Canon (s.vecRed i op d a p y) := by
  unfold State.vecRed
  extract_lets _ _ _ _ _ _ put v
  have hput : ∀ (v : Nat), OnOk State.Canon (put v) := fun _ => h.dropLanes.setV.orFlags
  refine h.finishSeq ?_
  split
  · split
    · trivial
    · exact hput _
  · exact hput _

theorem execVredsum_canon {d a p y} (h : s.Canon) : OnNext State.Canon (execVredsum d a p y s) := h.vecRed
theorem execVredmax_canon {d a p y} (h : s.Canon) : OnNext State.Canon (execVredmax d a p y s) := h.vecRed
theorem execVredmin_canon {d a p y} (h : s.Canon) : OnNext State.Canon (execVredmin d a p y s) := h.vecRed
theorem execPlogAnd_canon {d a b} (h : s.Canon) : OnNext State.Canon (execPlogAnd d a b s) := h.finishSeq h.setP
theorem execPlogOr_canon {d a b} (h : s.Canon) : OnNext State.Canon (execPlogOr d a b s) := h.finishSeq h.setP
theorem execPlogXor_canon {d a b} (h : s.Canon) : OnNext State.Canon (execPlogXor d a b s) := h.finishSeq h.setP
theorem execPlogAndn_canon {d a b} (h : s.Canon) : OnNext State.Canon (execPlogAndn d a b s) := h.finishSeq h.setP
theorem execPlogNot_canon {d a} (h : s.Canon) : OnNext State.Canon (execPlogNot d a s) := h.finishSeq h.setP
theorem execPmov_canon {d a} (h : s.Canon) : OnNext State.Canon (execPmov d a s) := h.finishSeq h.setP
theorem execPmovFrom_canon {d x} (h : s.Canon) : OnNext State.Canon (execPmovFrom d x s) := h.finishSeq h.setP
theorem execPmovTo_canon {a x} (h : s.Canon) : OnNext State.Canon (execPmovTo a x s) := h.finishSeq h.setS
theorem execPcnt_canon {a x} (h : s.Canon) : OnNext State.Canon (execPcnt a x s) := h.finishSeq h.setS

theorem State.Canon.noteLanes {wr a lanes} (h : s.Canon) : (s.noteLanes wr a lanes).Canon :=
  List.foldlRecOn _ _ h fun _ ht _ _ => ht.note

theorem State.Canon.putCells {part l} (h : s.Canon) : (s.putCells part l).Canon := by
  unfold State.putCells
  split
  · exact h.setHere h.here.storeCells
  · exact h.storeParts

theorem State.Canon.putLine {line v d} (h : s.Canon) : (s.putLine line v d).Canon := by
  unfold State.putLine
  split
  · exact h.setHere h.here.storeBytes.setDesc
  · exact h.storeParts

theorem execVld_canon {x b p i} (h : s.Canon) : OnNext State.Canon (execVld x b p i s) := by
  unfold execVld
  extract_lets
  refine h.finishPone (fun _ _ hu => hu.setV) ?_
  split
  · trivial
  split
  · trivial
  split
  · trivial
  split
  · trivial
  refine OnOk.map ?_ fun _ ht => ht.noteLanes.setV
  split
  · exact h
  · exact h.readLines

theorem execVst_canon {x b p i} (h : s.Canon) : OnNext State.Canon (execVst x b p i s) := by
  unfold execVst
  extract_lets
  refine h.finishSeq ?_
  split
  · trivial
  split
  · trivial
  split
  · trivial
  split
  · trivial
  refine OnOk.map ?_ fun _ ht => ht.putCells.noteLanes
  split
  · exact h
  · exact h.preRead

theorem execVldd_canon {x b p i} (h : s.Canon) : OnNext State.Canon (execVldd x b p i s) := by
  unfold execVldd
  extract_lets
  refine h.finishSeq ?_
  split
  · trivial
  split
  · trivial
  split
  · trivial
  · exact h.readSide.andThen (fun _ ht₁ => OnOk.map ht₁.readLines fun _ ht => ht.note.setV.setP)

theorem execVstd_canon {x b p i} (h : s.Canon) : OnNext State.Canon (execVstd x b p i s) := by
  unfold execVstd
  extract_lets
  refine h.finishSeq ?_
  split
  · trivial
  split
  · trivial
  split
  · trivial
  split
  · trivial
  split
  · trivial
  · exact OnOk.map h.preRead fun _ ht => ht.putLine.note

theorem execVldb_canon {x b p z e f} (h : s.Canon) : OnNext State.Canon (execVldb x b p z e f s) := by
  unfold execVldb
  extract_lets
  refine h.finishSeq ?_
  split
  · trivial
  · exact OnOk.map h.readLines fun _ ht => ht.noteLanes.setV

theorem execVstb_canon {x b p z f} (h : s.Canon) : OnNext State.Canon (execVstb x b p z f s) := by
  unfold execVstb
  extract_lets
  refine h.finishSeq ?_
  split
  · trivial
  · exact OnOk.map (h.readLines.andThen (fun _ ht₁ => ht₁.preRead)) fun _ ht => ht.putBits.noteLanes

theorem execVgath_canon {x b p z i} (h : s.Canon) : OnNext State.Canon (execVgath x b p z i s) := by
  unfold execVgath
  extract_lets
  refine h.finishSeq ?_
  split
  · trivial
  split
  · trivial
  next e₁ =>
    extract_lets
    refine State.Canon.setV (List.foldlRecOn _ _ (OnOk.of_eq (List.foldlRecOn _ _ (show OnOk State.Canon (.ok _) from h)
      fun t₁ ht₁ e₂ _ => ?_) e₁) fun _ ht₁ _ _ => ht₁.note)
    split
    · exact ht₁
    · exact ht₁.readLines.keepSoft

theorem execVscat_canon {x b p z i} (h : s.Canon) : OnNext State.Canon (execVscat x b p z i s) := by
  unfold execVscat
  extract_lets
  refine h.finishSeq ?_
  split
  · trivial
  split
  · trivial
  · exact OnOk.map (List.foldlRecOn _ _ (show OnOk State.Canon (.ok _) from h) fun _ ht _ _ => OnOk.bind ht
      fun _ ht₁ => ht₁.preRead.keepSoft) fun _ ht => List.foldlRecOn _ _ ht.putCells fun _ ht₁ _ _ => ht₁.note

end Sys2Proof.Machine
end

section
/-! The matrix unit, control, waits and deltas. -/
namespace Sys2Proof.Machine
variable {s : State}

theorem State.Canon.returnFromTrap (h : s.Canon) : OnOk (fun r => r.1.Canon) s.returnFromTrap := by
  unfold State.returnFromTrap
  split
  · trivial
  · exact h.setMe

theorem Tile.Canon.touchAcc {x : Tile} {mgmt c} (hx : x.Canon) : (x.touchAcc mgmt c).Canon := by
  unfold Tile.touchAcc
  split <;> exact hx

theorem State.Canon.readAcc {c} (h : s.Canon) : OnOk State.Canon (s.readAcc c) := h.readMark

theorem State.Canon.preAcc {c} (h : s.Canon) : OnOk State.Canon (s.preAcc c) := by
  unfold State.preAcc
  split
  · exact h.readAcc
  · exact h

theorem State.Canon.writeAcc {c a} (h : s.Canon) : (s.writeAcc c a).Canon := h.setHere h.here.touchAcc.setAcc

theorem execZacc_canon {c x} (h : s.Canon) : OnNext State.Canon (execZacc c x s) :=
  h.finishSeq (OnOk.seq fun _ => OnOk.seq fun _ => OnOk.bind h.preAcc fun _ hs₁ => hs₁.writeAcc)

theorem execAccanch_canon {c x} (h : s.Canon) : OnNext State.Canon (execAccanch c x s) := by
  unfold execAccanch
  extract_lets
  exact h.finishSeq (OnOk.seq fun _ => OnOk.seq fun _ => h.readAcc.andThen (fun _ ht₁ => show State.Canon _ from ht₁.writeAcc.orFlags))

theorem execAccadd_canon {c a} (h : s.Canon) : OnNext State.Canon (execAccadd c a s) := by
  unfold execAccadd
  refine h.finishSeq (OnOk.seq fun u => ?_)
  extract_lets
  split
  · trivial
  · exact OnOk.seq fun _ => OnOk.bind (h.readAcc.andThen (fun _ ht₁ => ht₁.readAcc)) fun _ ht => ht.writeAcc

theorem execMma_canon {c a b k} (h : s.Canon) : OnNext State.Canon (execMma c a b k s) := by
  unfold execMma
  extract_lets
  refine h.finishSeq (OnOk.seq fun u => OnOk.seq fun u₁ => OnOk.seq fun u₂ => ?_)
  split
  · trivial
  refine OnOk.seq fun u₃ => ?_
  split
  · trivial
  split
  · trivial
  · exact OnOk.bind (State.Canon.preAcc h.settle) fun _ hs₁ => show State.Canon _ from .setTok (hs₁.setHere (.touchAcc hs₁.here))

theorem Tile.Canon.unlock {x : Tile} {n k uses} (hx : x.Canon) : (x.unlock n k uses).Canon := hx

theorem State.Canon.mmaFault {t m cause sub lost part} (h : s.Canon) : (s.mmaFault t m cause sub lost part).Canon := by
  unfold State.mmaFault
  extract_lets x x₁ _ _ _ s₁
  have hx : x.Canon := h.tile
  have hx₁ : x₁.Canon := .unlock hx
  have hs₁ : s₁.Canon := h.setTile hx₁.setStrand
  split
  · exact hs₁
  · exact hs₁.countError

theorem Tile.Canon.mmaView {x : Tile} {m j} (hx : x.Canon) : (x.mmaView m j).Canon := by
  unfold Tile.mmaView
  split
  · exact hx
  · exact hx.under

theorem State.Canon.blockReads {t m j} (h : s.Canon) : (s.blockReads t m j).Canon := by
  unfold State.blockReads
  extract_lets _ _ _ s₁
  have hs₁ : s₁.Canon := List.foldlRecOn _ _ h fun _ hu _ _ => hu.correctAt.correctAt
  split
  · exact h
  split
  · split
    · exact hs₁
    · exact hs₁.correctAt
  · exact hs₁

theorem execMmaKblock_canon (h : s.Canon) : OnNext State.Canon (execMmaKblock s) := by
  unfold execMmaKblock
  extract_lets _ x
  have hx : x.Canon := h.tile
  split
  · exact h
  extract_lets _ _ _ x₂
  have hx₂ : x₂.Canon := .unlock hx
  split
  · exact h.setTile hx₂.setStrand
  split
  · exact h.blockReads.mmaFault
  extract_lets s₁ _ _ _ _ _ _ s₂ x₅ _ _ _ _ _ _ src₁
  have hs₁ : s₁.Canon := h.blockReads
  have hs₂ : s₂.Canon := hs₁.correctAt
  have hx₅ : x₅.Canon := hs₂.tile
  have hsrc₁ : src₁.Canon := hx₅.setAcc
  split
  · exact hs₁.mmaFault
  split
  · exact hs₁.mmaFault
  · exact .setTile hs₂ (.setStrand hsrc₁)

theorem execAccrd_canon {c d r o} (h : s.Canon) : OnNext State.Canon (execAccrd c d r o s) := by
  unfold execAccrd
  refine h.finishSeq (OnOk.seq fun u => h.readAcc.andThen ?_)
  intro _ ht₁
  extract_lets
  split
  · trivial
  · exact ht₁.setV.orFlags

theorem execAccst_canon {c b y r n o} (h : s.Canon) : OnNext State.Canon (execAccst c b y r n o s) := by
  unfold execAccst
  extract_lets
  refine h.finishSeq (OnOk.seq fun u => OnOk.seq fun u₁ => h.readAcc.andThen ?_)
  intro _ ht₁
  extract_lets
  split
  · trivial
  · exact OnOk.seq fun _ => OnOk.bind ht₁.preRead fun _ ht => show State.Canon _ from (State.Canon.note (List.foldlRecOn _ _ ht
      fun _ hu₃ _ _ => hu₃.putLine)).orFlags

theorem execAccsv_canon {c b o} (h : s.Canon) : OnNext State.Canon (execAccsv c b o s) := by
  unfold execAccsv
  refine h.finishSeq (OnOk.seq fun _ => ?_)
  generalize s.checkBlockAt _ _ _ _ = k
  refine OnOk.seq fun _ => .andThen h.readAcc fun t ht => ?_
  extract_lets a ovf
  split
  · trivial
  generalize t.checkRetention _ _ = k
  refine OnOk.seq fun _ => OnOk.bind ht.preRead fun u hu => ?_
  have hv : State.Canon ((u.putBytes 16 (s.getS b).toNat (a.all.flatMap (rawElem a.anc))).note false true (s.getS b).toNat 4096) :=
    hu.putBytes.note
  show State.Canon (if _ then _ else _)
  split
  · exact hv.orFlags
  · exact hv

theorem execAccld_canon {c b} (h : s.Canon) : OnNext State.Canon (execAccld c b s) := by
  unfold execAccld
  refine h.finishSeq (OnOk.seq fun _ => ?_)
  generalize s.checkBlockAt _ _ _ _ = k
  refine OnOk.seq fun _ => .andThen h.readLines fun t ht => ?_
  extract_lets
  split
  · trivial
  · exact OnOk.seq fun _ => OnOk.bind ht.preAcc fun _ hu => hu.note.writeAcc

theorem execCbld_canon {c b ta tb} (h : s.Canon) : OnNext State.Canon (execCbld c b ta tb s) := by
  unfold execCbld
  extract_lets
  refine h.finishSeq (OnOk.seq fun u => ?_)
  split
  · trivial
  · exact OnOk.seq fun _ => OnOk.bind h.readLines fun _ ht => show State.Canon _ from .note (ht.setHere ht.here)

theorem execLdd_canon {d b i} (h : s.Canon) : OnNext State.Canon (execLdd d b i s) :=
  h.finishSeq (OnOk.seq fun _ => OnOk.bind h.readLines fun _ ht => ht.note.setD)

theorem execSetd_canon {d a n} (h : s.Canon) : OnNext State.Canon (execSetd d a n s) := h.finishSeq h.setD
theorem State.Canon.addPfx {p} (h : s.Canon) : OnNext State.Canon (s.addPfx p) := h.setMe
theorem execPrnd_canon {sa rm} (h : s.Canon) : OnNext State.Canon (execPrnd sa rm s) := h.addPfx
theorem execPext_canon {x} (h : s.Canon) : OnNext State.Canon (execPext x s) := h.addPfx
theorem execPone_canon (h : s.Canon) : OnNext State.Canon (execPone s) := h.addPfx

theorem State.Canon.branch {i taken off} (h : s.Canon) : OnNext State.Canon (s.branch i taken off) := by
  unfold State.branch
  refine h.finish ?_
  split
  · exact OnOk.map_any fun _ => h
  · exact h

theorem execJal_canon {i} (h : s.Canon) : OnNext State.Canon (execJal i s) := h.finish (OnOk.map_any fun _ => h.setS)
theorem execJr_canon {a} (h : s.Canon) : OnNext State.Canon (execJr a s) := h.finish (OnOk.map_any fun _ => h)
theorem execJalr_canon {d a} (h : s.Canon) : OnNext State.Canon (execJalr d a s) := h.finish (OnOk.map_any fun _ => h.setS)
theorem State.Canon.pushLoop {e} (h : s.Canon) : (s.pushLoop e).Canon := h.setMe

theorem State.Canon.countedLoop {i fin cnt bad} (h : s.Canon) : OnNext State.Canon (s.countedLoop i fin cnt bad) := by
  unfold State.countedLoop
  refine h.finish (OnOk.seq fun u => ?_)
  split
  · exact h
  · exact h.pushLoop

theorem execLoop_canon {x e} (h : s.Canon) : OnNext State.Canon (execLoop x e s) := h.countedLoop
theorem execLoopi_canon {e count} (h : s.Canon) : OnNext State.Canon (execLoopi e count s) := h.countedLoop

theorem execLoops_canon {q l e} (h : s.Canon) : OnNext State.Canon (execLoops q l e s) := by
  unfold execLoops
  extract_lets _ checks t
  have ht : t.Canon := h.pushLoop.arriveAt
  clear_value checks
  split
  · exact h.finish trivial
  · exact ht.examine.afterRetire

theorem execLbrk_canon (h : s.Canon) : OnNext State.Canon (execLbrk s) := by
  unfold execLbrk
  refine h.finish ?_
  split
  · trivial
  · exact h.popLoop

theorem execTrap_canon {c} (h : s.Canon) : OnNext State.Canon (execTrap c s) := h.finish trivial
theorem execSvc_canon {c} (h : s.Canon) : OnNext State.Canon (execSvc c s) := h.finish trivial
theorem execRtt_canon (h : s.Canon) : OnNext State.Canon (execRtt s) := h.finish h.returnFromTrap
theorem execNop_canon (h : s.Canon) : OnNext State.Canon (execNop s) := h.finishSeq h
theorem execBrk_canon (h : s.Canon) : OnNext State.Canon (execBrk s) := h.finish trivial
theorem execTmark_canon {v} (h : s.Canon) : OnNext State.Canon (execTmark v s) := h.finishSeq h.branchRecord

theorem Tile.Canon.cancelEng {x : Tile} {n k} (hx : x.Canon) : (x.cancelEng n k).Canon := by
  unfold Tile.cancelEng
  extract_lets y
  have hy : y.Canon := .unlock hx
  exact hy.setStrand

theorem State.Canon.cancelNext (h : s.Canon) : s.cancelNext.Canon :=
  List.foldlRecOn _ _ h fun _ hu _ _ => (hu.setHere hu.here.cancelEng).forget

theorem execRetire_canon (h : s.Canon) : OnNext State.Canon (execRetire s) := by
  unfold execRetire
  extract_lets t _ e
  have ht : t.Canon := h.cancelNext
  have he : OnOk (fun a => a.1.Canon) e := by
    unfold e
    refine OnOk.seq fun u => ?_
    split
    · trivial
    · exact ht.setMe
  split
  next e₁ => exact ((h.finish he).of_eq e₁).formArrival
  · exact h.finish he

theorem State.Canon.endUnmet {w} (h : s.Canon) : OnOk State.Canon (s.endUnmet w) := by
  unfold State.endUnmet
  split
  · trivial
  · exact h.setWst
  · exact h.setWst

theorem execKwait_canon {d l k} (h : s.Canon) : OnNext State.Canon (execKwait d l k s) := by
  unfold execKwait
  refine h.finishSeq ?_
  split
  · trivial
  split
  · exact h.setS.setWst
  · exact h.endUnmet

theorem execKwany_canon {d a l} (h : s.Canon) : OnNext State.Canon (execKwany d a l s) := by
  unfold execKwany
  extract_lets
  refine h.finishSeq ?_
  split
  · exact h.setS.setWst
  split
  · trivial
  split
  · exact h.setS.setWst
  · exact h.endUnmet

theorem execWaitc_canon {l nt nc ns nl} (h : s.Canon) : OnNext State.Canon (execWaitc l nt nc ns nl s) := by
  unfold execWaitc
  extract_lets
  refine h.finishSeq ?_
  split
  · exact h.setWst
  split
  · exact h.setWst
  · exact h.endUnmet

theorem execFence_canon {d l scope} (h : s.Canon) : OnNext State.Canon (execFence d l scope s) := by
  unfold execFence
  extract_lets _ out
  have hout : out.Canon := h.setS
  refine h.finishSeq ?_
  split
  · exact hout.setWst
  split
  · exact h.setS.setWst
  · trivial
  · exact hout.setWst

theorem State.Canon.endRealign {t n} (h : s.Canon) : (s.endRealign t n).Canon := by
  unfold State.endRealign
  split
  · exact h
  extract_lets _ _ u
  have hu : u.Canon := State.Canon.setMe h
  split
  · split
    next v e =>
      show v.Canon
      refine OnNext.of_eq ?_ e
      exact hu.finishSeq hu.setS.setWst
    · exact h
  · exact h

theorem execRealign_canon {d a l} (h : s.Canon) : OnNext State.Canon (execRealign d a l s) := by
  unfold execRealign
  extract_lets _ _ _ _ own
  have hown : OnNext State.Canon own := by
    unfold own
    refine h.finishSeq ?_
    split
    · exact h.setS.setWst
    · trivial
    · exact h.setS.setWst
    · exact h.setS.setWst
  clear_value own
  split
  · refine show State.Canon _ from List.foldlRecOn _ _ hown fun u hu e _ => ?_
    split
    · exact hu
    · exact hu.endRealign
  · exact hown

theorem execMrecv_canon {d l q} (h : s.Canon) : OnNext State.Canon (execMrecv d l q s) := by
  unfold execMrecv
  refine h.finishSeq ?_
  split
  · trivial
  extract_lets r
  have hr : r.1.Canon := h.ringRead
  refine OnOk.keepSoft ?_
  split
  · trivial
  split
  · trivial
  · exact show State.Canon _ from (hr.setHere hr.here.consume).setS.setWst
  · exact hr.endUnmet

theorem State.Canon.sendAll {l} (h : s.Canon) : (s.sendAll l).Canon := by
  unfold State.sendAll
  split
  · exact h
  · exact List.foldlRecOn _ _ (h.setHere h.here) fun _ hu _ _ => hu.setMe.send

theorem State.Canon.sendOne {o} (h : s.Canon) : OnOk State.Canon (s.sendOne o) := OnOk.seq fun _ => h.sendAll

theorem execRst_canon {d a n} (h : s.Canon) : OnNext State.Canon (execRst d a n s) :=
  h.finishSeq (OnOk.seq fun _ => OnOk.seq fun _ => OnOk.seq fun _ => h.sendOne)

theorem execVrst_canon {x b p i} (h : s.Canon) : OnNext State.Canon (execVrst x b p i s) := by
  unfold execVrst
  extract_lets
  refine h.finishSeq (OnOk.seq fun u => OnOk.seq fun r => ?_)
  split
  · trivial
  split
  · trivial
  split
  · exact h
  · exact h.sendOne

theorem execRred_canon {d a f} (h : s.Canon) : OnNext State.Canon (execRred d a f s) :=
  h.finishSeq (OnOk.seq fun _ => OnOk.seq fun _ => OnOk.seq fun _ => h.sendOne)

theorem execVrred_canon {x b p o y} (h : s.Canon) : OnNext State.Canon (execVrred x b p o y s) := by
  unfold execVrred
  extract_lets
  refine h.finishSeq (OnOk.seq fun u => OnOk.seq fun r => OnOk.seq fun u₁ => ?_)
  split
  · exact h
  · exact h.sendOne

theorem State.Canon.payload {b len} (h : s.Canon) : OnOk (fun a => a.1.Canon) (s.payload b len) := by
  unfold State.payload
  extract_lets
  split
  · trivial
  split
  · trivial
  split
  · trivial
  split
  · trivial
  split
  · trivial
  · exact OnOk.map h.readLines fun _ ht => ht.note

theorem State.Canon.message {q eos tiles l} (h : s.Canon) : OnOk State.Canon (s.message q eos tiles l) :=
  OnOk.seq fun _ => h.sendAll

theorem execMsend_canon {d a b q} (h : s.Canon) : OnNext State.Canon (execMsend d a b q s) :=
  h.finishSeq (OnOk.seq fun _ => OnOk.seq fun _ => OnOk.bind_fst h.payload fun _ ht => ht.message.keepSoft)

theorem execMsendEos_canon {a q} (h : s.Canon) : OnNext State.Canon (execMsendEos a q s) :=
  h.finishSeq (OnOk.seq fun _ => OnOk.seq fun _ => h.message)

theorem execMsendg_canon {d a b q} (h : s.Canon) : OnNext State.Canon (execMsendg d a b q s) :=
  h.finishSeq (OnOk.seq fun _ => OnOk.seq fun _ => OnOk.bind_fst h.payload fun _ ht => ht.message.keepSoft)

theorem execMsendgEos_canon {a q} (h : s.Canon) : OnNext State.Canon (execMsendgEos a q s) :=
  h.finishSeq (OnOk.seq fun _ => OnOk.seq fun _ => h.message)

theorem State.Canon.arriveDelta {t d} (h : s.Canon) : (s.arriveDelta t d).Canon := by
  unfold State.arriveDelta
  extract_lets x
  have hx : x.Canon := h.tile
  split
  · exact .send (h.setTile hx)
  split
  · exact .send (h.setTile hx)
  split
  · exact h.setTile hx
  · exact .send (h.setTile hx)

theorem State.Canon.placeWithheld {t} (h : s.Canon) : (s.placeWithheld t).Canon := by
  unfold State.placeWithheld
  extract_lets _ x
  have hx : x.Canon := h.tile
  split
  · exact h
  refine List.foldlRecOn _ _ (h.setTile hx) fun u hu d _ => ?_
  extract_lets y
  have hy : y.Canon := hu.tile
  split
  · exact hu.setTile hy
  · exact hu.arriveDelta

theorem execDeltaArrival_canon (h : s.Canon) : OnNext State.Canon (execDeltaArrival s) := by
  unfold execDeltaArrival
  split
  · split
    · extract_lets u
      have hu : u.Canon := h
      split
      · exact hu
      · exact hu.arriveDelta
    · exact h
  · exact h

theorem Tile.Canon.account {x : Tile} {i delay} (hx : x.Canon) : (x.account i delay).Canon := hx

theorem Tile.Canon.engAck {x : Tile} {d} (hx : x.Canon) : (x.engAck d).Canon := by
  unfold Tile.engAck
  split <;> exact hx

theorem State.Canon.answered {d} (h : s.Canon) : (s.answered d).Canon := by
  unfold State.answered
  extract_lets x x₁
  have hx : x.Canon := h.tile
  have hx₁ : x₁.Canon := hx.account
  split
  · exact h.setTile hx₁.setStrand.engAck
  · exact h.setTile hx₁

theorem execDeltaAcknowledgement_canon (h : s.Canon) : OnNext State.Canon (execDeltaAcknowledgement s) := by
  unfold execDeltaAcknowledgement
  split
  · exact .formArrival (.answered h)
  · exact h

theorem Tile.Canon.engRefused {x : Tile} {d} (hx : x.Canon) : (x.engRefused d).Canon := by
  unfold Tile.engRefused
  split <;> exact hx

theorem execDeltaRefusal_canon (h : s.Canon) : OnNext State.Canon (execDeltaRefusal s) := by
  unfold execDeltaRefusal
  split
  · extract_lets u x₁ _ v
    have hu : u.Canon := .answered h
    have hx₁ : x₁.Canon := hu.tile
    have hv : v.Canon := hu.setTile hx₁.setStrand.engRefused
    split
    · exact hv.voteAbort.formArrival
    · exact hu
  · exact h

end Sys2Proof.Machine
end

section
/-! Images of tiles, collectives and the engine's operations on local memory. -/
namespace Sys2Proof.Machine
variable {s : State}

theorem State.Canon.poke {m a l} (h : s.Canon) : (s.poke m a l).Canon :=
  h.setMod ⟨Memory.wf_writeBytes _ _ _ h.mod.mem, h.mod.mbox, h.mod.staging, h.mod.threads⟩

theorem Tile.Canon.imageLocal {x : Tile} {all} (hx : x.Canon) : (x.imageLocal all).wf = true := by
  unfold Tile.imageLocal
  extract_lets kept open_
  have hkept : Memory.wf kept = true := Memory.wfFrom_filter _ _ 0 hx
  have hopen : Memory.wf open_ = true := by
    refine Memory.wf_foldl hkept fun m hm u => Memory.wf_foldl hm fun m₁ hm₁ a => ?_
    split
    · exact Memory.wf_write _ _ _ hm₁
    · exact hm₁
  split
  · exact hopen
  · refine Memory.wf_foldl hopen fun m hm e => ?_
    split
    · exact hm
    · exact Memory.wf_writeBytes _ _ _ hm

theorem Tile.imageBand_wf {x : Tile} {all} : (x.imageBand all).wf = true := by
  unfold Tile.imageBand
  extract_lets now
  have hnow : now.wf = true := by
    unfold now
    refine Memory.wf_foldl rfl fun m hm e => ?_
    split
    · exact Memory.wf_setNum _ _ _ _ hm
    · exact hm
  split
  · exact hnow
  refine Memory.wf_foldl hnow fun m hm e₁ => ?_
  split
  · exact hm
  · exact Memory.wf_setNum _ _ _ _ hm

theorem State.Canon.imageReads {t all} (h : s.Canon) : (s.imageReads t all).Canon :=
  List.foldlRecOn _ _ h fun _ hu _ _ => hu.correctAt

theorem State.Canon.writeImage {t kind ckpt m base} (h : s.Canon) : (s.writeImage t kind ckpt m base).Canon := by
  unfold State.writeImage
  extract_lets x all mem₀ mem₁ mem₂ mem₃ mem₄ mem₅ acc mem₆ mem₇ loc mem₈
  have h₂ : mem₂.wf = true := Memory.wf_writeBytes _ _ _ (Memory.wf_blit _ _ _ _ h.mod.mem rfl)
  have h₃ : mem₃.wf = true := Memory.wf_foldl h₂ fun _ hm _ => Memory.wf_writeBytes _ _ _ hm
  have h₅ : mem₅.wf = true :=
    Memory.wf_foldl (Memory.wf_writeBytes _ _ _ h₃) fun _ hm _ => Memory.wf_foldl hm fun _ hm _ => Memory.wf_writeBytes _ _ _ hm
  have h₆ : mem₆.wf = true := Memory.wf_foldl h₅ fun _ hm _ => Memory.wf_writeBytes _ _ _ hm
  have h₇ : mem₇.wf = true := Memory.wf_blit _ _ _ _ h₆ Tile.imageBand_wf
  have hloc : loc.wf = true := h.tile.imageLocal
  have h₈ : mem₈.wf = true := by
    unfold mem₈
    split
    · exact Memory.wf_blit _ _ _ _ h₇ hloc
    · refine Memory.wf_foldl h₇ fun m hm r => ?_
      split
      · exact hm
      · exact Memory.wf_blit _ _ _ _ hm (Memory.wf_slice _ _ _ hloc)
  exact h.setMod ⟨h₈, h.mod.mbox, h.mod.staging, h.mod.threads⟩

theorem State.Canon.writeOverflow {t} (h : s.Canon) : (s.writeOverflow t).Canon := by
  unfold State.writeOverflow
  split
  · exact h
  · exact h.poke

theorem Tile.Canon.ofImage {x : Tile} {mem : Memory} {base free} (hmem : mem.wf = true) : (x.ofImage mem base free).Canon := by
  unfold Tile.ofImage
  extract_lets _ _ _ _ _ y y₁
  have hy : y.Canon := Memory.wf_slice _ _ _ hmem
  have hy₁ : y₁.Canon := by
    unfold y₁
    refine List.foldlRecOn _ _ hy fun y₂ hy₂ r _ => ?_
    split
    · exact hy₂.forget
    · exact hy₂
  exact hy₁

theorem execColl_canon {a k} (h : s.Canon) : OnNext State.Canon (execColl a k s) := by
  unfold execColl
  refine h.finishSeq (OnOk.seq fun u => ?_)
  split
  · trivial
  split
  · trivial
  split
  · trivial
  split
  · trivial
  split
  · trivial
  split
  · trivial
  split
  · trivial
  · exact OnOk.seq fun _ => OnOk.bind (State.Canon.readLines h.settle)
      fun _ ht => show State.Canon _ from .sendAll (.setTok (ht.setHere ht.here))

theorem execCollRequestArrival_canon (h : s.Canon) : OnNext State.Canon (execCollRequestArrival s) := by
  unfold execCollRequestArrival
  split
  · split
    · extract_lets u c
      have hu : u.Canon := h
      have hc : c.Canon := hu.ctx
      split
      · exact hu.send
      split
      · exact hu.send
      · exact .send (hu.setCtx hc)
    · exact h
  · exact h

theorem State.Canon.collFault {i rank m pc code abortc} (h : s.Canon) : (s.collFault i rank m pc code abortc).Canon := h.emit

theorem State.Canon.stopThreads {id} (h : s.Canon) : (s.stopThreads id).Canon := by
  refine ⟨h.tiles, h.clusters, SMap.Each.map h.mods fun e he => ?_, h.ctxs⟩
  refine ⟨he.mem, he.mbox, he.staging, SMap.Each.map he.threads fun t ht => ?_⟩
  show Thread.Canon (if _ then _ else _)
  split <;> exact ht

theorem State.Canon.faultInst {i} (h : s.Canon) : (s.faultInst i).Canon := h.stopThreads

theorem State.Canon.checkRanks {c i members} (h : s.Canon) : (s.checkRanks c i members).Canon := by
  unfold State.checkRanks
  split
  · exact h
  · exact h.faultInst.collFault.setCtx h.faultInst.collFault.ctx

theorem State.Canon.trigger {c n g i reqs} (h : s.Canon) : (s.trigger c n g i reqs).Canon := by
  unfold State.trigger
  split
  · exact h
  extract_lets
  exact .checkRanks h

theorem State.Canon.triggerAll {c n} (h : s.Canon) : (s.triggerAll c n).Canon := by
  unfold State.triggerAll
  extract_lets _ s₁ src
  have hs₁ : s₁.Canon := by
    unfold s₁
    refine List.foldlRecOn _ _ h fun u hu e _ => ?_
    split
    · exact hu.trigger
    · exact hu
  have hsrc : src.Canon := hs₁.ctx
  exact hs₁.setCtx hsrc

theorem State.Canon.expose {c d} (h : s.Canon) : (s.expose c d).Canon := by
  unfold State.expose
  extract_lets
  refine ⟨h.tiles, h.clusters, h.mods.map (fun e₁ h₁ => ⟨?_, ?_, ?_, SMap.Each.filter ?_⟩), h.ctxs⟩
  · exact h₁.mem
  · exact h₁.mbox
  · exact h₁.staging
  · exact h₁.threads

theorem Tile.Canon.endColl {x : Tile} {n k tok} (hx : x.Canon) : (x.endColl n k tok).Canon := hx.unlock.setStrand

theorem State.Canon.placePush {d m th k p} (h : s.Canon) : (s.placePush d m th k p).Canon := by
  unfold State.placePush
  split
  · exact h.send
  extract_lets md c
  have hmd : md.Canon := h.mod
  have hc : c.Canon := h.ctx
  split
  · exact h
  next t e₁ =>
    extract_lets t₁
    have ht₁ : t₁.Canon := show Thread.Canon t from hmd.threads.find e₁
    exact .send (.setCtx (h.setMod ⟨hmd.mem, hmd.mbox, hmd.staging, .set hmd.threads ht₁⟩) hc)

theorem State.Canon.arrivePush {d g addr op mask} (h : s.Canon) : (s.arrivePush d g addr op mask).Canon := by
  unfold State.arrivePush
  extract_lets _ _ _ c
  have hc : c.Canon := h.ctx
  split
  · exact h.placePush
  split
  · exact h.send
  · exact h.setCtx hc

theorem execPushDeltaArrival_canon (h : s.Canon) : OnNext State.Canon (execPushDeltaArrival s) := by
  unfold execPushDeltaArrival
  split
  · split
    · extract_lets u
      have hu : u.Canon := h
      split
      · exact hu.send
      · exact hu.arrivePush
    · exact h
  · exact h

theorem State.Canon.retryPushes {c} (h : s.Canon) : (s.retryPushes c).Canon := by
  unfold State.retryPushes
  extract_lets _ src s₁
  have hsrc : src.Canon := h.ctx
  have hs₁ : s₁.Canon := h.setCtx hsrc
  refine List.foldlRecOn _ _ hs₁ fun u hu e _ => ?_
  split
  · exact hu.arrivePush
  · exact hu

theorem State.Canon.applyPush {d m th k} (h : s.Canon) : (s.applyPush d m th k).Canon := by
  unfold State.applyPush
  extract_lets md
  have hmd : md.Canon := h.mod
  split
  next e _ =>
    split
    · extract_lets _ win
      have hwin : win.wf = true := Memory.wf_foldl (hmd.threads.find e) fun _ hwin₁ _ => Memory.wf_setNum _ _ _ _ hwin₁
      exact h.setMod ⟨hmd.mem, hmd.mbox, hmd.staging, hmd.threads.set hwin⟩
    · exact h
  · exact h

theorem State.Canon.applyPushes {c n} (h : s.Canon) : (s.applyPushes c n).Canon := by
  unfold State.applyPushes
  extract_lets _ src s₁
  have hsrc : src.Canon := h.ctx
  have hs₁ : s₁.Canon := h.setCtx hsrc
  refine List.foldlRecOn _ _ hs₁ fun u hu e _ => ?_
  split
  · exact hu.applyPush
  · exact hu

theorem State.Canon.dropPushes {c n} (h : s.Canon) : (s.dropPushes c n).Canon := by
  unfold State.dropPushes
  extract_lets _ src s₁
  have hsrc : src.Canon := h.ctx
  have hs₁ : s₁.Canon := h.setCtx hsrc
  refine List.foldlRecOn _ _ hs₁ fun u hu e _ => ?_
  split
  · extract_lets md
    have hmd : md.Canon := hu.mod
    split
    next t e₂ =>
      split
      · exact .setMod hu ⟨hmd.mem, hmd.mbox, hmd.staging, .set hmd.threads (show Thread.Canon t from hmd.threads.find e₂)⟩
      · exact hu
    · exact hu
  · exact hu

theorem State.Canon.tileError {t cause sub value part lost} (h : s.Canon) : (s.tileError t cause sub value part lost).Canon := by
  unfold State.tileError
  extract_lets s₁ _ x s₂ s₃
  have hs₁ : s₁.Canon := h.countError
  have hx : x.Canon := hs₁.tile
  have hs₂ : s₂.Canon := hs₁.setTile hx
  have hs₃ : s₃.Canon := by
    unfold s₃
    split
    · exact hs₂.tileEvent
    · exact hs₂
  exact hs₃.voteAbort

theorem State.Canon.engineReads {t l} (h : s.Canon) : (s.engineReads t l).1.Canon := by
  induction l generalizing s with
  | nil => exact h
  | cons k r ih =>
    rw [State.engineReads]
    split
    · exact h.tileError
    · exact ih h.correctAt

theorem State.Canon.pokeBoth {c a l} (h : s.Canon) : (s.pokeBoth c a l).Canon := by
  unfold State.pokeBoth
  extract_lets s₁
  have hs₁ : s₁.Canon := h.poke
  split
  · exact hs₁
  · exact hs₁.poke

theorem State.Canon.captureLine {t k} (h : s.Canon) : (s.captureLine t k).Canon := by
  unfold State.captureLine
  extract_lets x
  have hx : x.Canon := h.tile
  split
  · split
    · exact h.pokeBoth.pokeBoth.setTile hx
    · exact h
  · exact h

theorem State.Canon.serveLine {t k} (h : s.Canon) : (s.serveLine t k).Canon := by
  unfold State.serveLine
  extract_lets u v
  have hu : u.Canon := h
  have hv : v.Canon := List.foldlRecOn _ _ hu fun _ hu₁ _ _ => hu₁.serve
  exact hv

theorem State.Canon.fillTags {t k} (h : s.Canon) : (s.fillTags t k).Canon := (h.setTile h.tile.setBand).serveLine

theorem State.Canon.engineWrite {t k data desc full} (h : s.Canon) : (s.engineWrite t k data desc full).Canon := by
  unfold State.engineWrite
  extract_lets s₁ x x₁ s₂
  have hs₁ : s₁.Canon := h.captureLine
  have hx : x.Canon := hs₁.tile.writeBytes
  have hx₁ : x₁.Canon := by
    unfold x₁
    split
    · exact hx.setBand
    · exact hx
  have hs₂ : s₂.Canon := hs₁.setTile hx₁
  split
  · exact hs₂.fillTags
  · exact hs₂

theorem Tile.Canon.putToken {x : Tile} {e k} (hx : x.Canon) : (x.putToken e k).Canon := by
  unfold Tile.putToken
  extract_lets y
  have hy : y.Canon := hx.setStrand
  split <;> exact hy

theorem State.Canon.endEng {t e cause sub faddr} (h : s.Canon) : (s.endEng t e cause sub faddr).Canon := by
  unfold State.endEng
  extract_lets x _ y₁ _ _ s₁
  have hx : x.Canon := h.tile
  have hy₁ : y₁.Canon := .unlock hx
  have hs₁ : s₁.Canon := h.setTile hy₁.putToken
  split
  · exact List.foldlRecOn _ _ hs₁ fun _ hu _ _ => hu.fillTags
  · exact hs₁

theorem State.Canon.finishNext {t} (h : s.Canon) : (s.finishNext t).Canon := by
  unfold State.finishNext
  refine List.foldlRecOn _ _ h fun u hu e _ => ?_
  split
  · exact hu.endEng
  · exact hu

end Sys2Proof.Machine
end

section
/-! Global memory: the tables' walks, loads and stores, and the lines that a commit writes. -/
namespace Sys2Proof.Machine
variable {s : State}

theorem State.Canon.setStack {m k x} (h : s.Canon) : (s.setStack m k x).Canon := h.setMod h.mod
theorem State.Canon.logStack {m k value} (h : s.Canon) : (s.logStack m k value).Canon := h.setStack
theorem State.Canon.moduleEvent {m code unit value} (h : s.Canon) : (s.moduleEvent m code unit value).Canon := h.emit

theorem State.Canon.poisonLine {m k line} (h : s.Canon) : (s.poisonLine m k line).Canon := by
  unfold State.poisonLine
  extract_lets _ s₁
  have hs₁ : s₁.Canon := h.setStack
  split
  · exact h
  split
  · exact hs₁.moduleEvent
  · exact hs₁

theorem State.Canon.healBlock {m pa bytes} (h : s.Canon) : (s.healBlock m pa bytes).Canon := by
  unfold State.healBlock
  extract_lets _ _ src s₁
  have hsrc : src.Canon := h.mod
  have hs₁ : s₁.Canon := h.setMod ⟨Memory.wf_writeBytes _ _ _ hsrc.mem, hsrc.mbox, hsrc.staging, hsrc.threads⟩
  exact hs₁.setStack.logStack

theorem State.Canon.rebuildBlock {m pa} (h : s.Canon) : (s.rebuildBlock m pa).1.Canon := by
  unfold State.rebuildBlock
  extract_lets
  split
  · exact h
  split
  · exact h
  · exact h.healBlock

theorem State.Canon.loseBlock {m pa} (h : s.Canon) : (s.loseBlock m pa).Canon := by
  unfold State.loseBlock
  extract_lets _ _ s₁
  have hs₁ : s₁.Canon := List.foldlRecOn _ _ h fun _ hu _ _ => hu.poisonLine
  split
  · exact h
  · exact hs₁.setStack.moduleEvent

theorem State.Canon.readBlock {m pa partner} (h : s.Canon) : (s.readBlock m pa partner).1.Canon := by
  unfold State.readBlock
  split
  · exact h
  extract_lets _ own lose failed
  have hown : own.1.Canon := h.rebuildBlock
  have hlose : ∀ (u : State) (w : Nat), u.Canon → (lose u w).Canon := fun _ _ hu₁ => hu₁.loseBlock
  have hfailed : ∀ (u : State), u.Canon → (failed u).1.Canon := fun _ hu₁ => hu₁
  split
  · exact hown
  split
  · split
    · exact hfailed _ (hlose _ _ h)
    extract_lets other
    have hother : other.1.Canon := h.rebuildBlock
    split
    · exact hother.healBlock
    refine hfailed _ (hlose _ _ ?_)
    split
    · exact hother
    · exact hlose _ _ h
  · exact hfailed _ (hlose _ _ h)

theorem State.Canon.readPhys {m pa n partner ctx vt kslot} (h : s.Canon) : (s.readPhys m pa n partner ctx vt kslot).1.Canon := by
  unfold State.readPhys
  extract_lets r t
  have hr : r.1.Canon := h.readBlock
  have ht : t.Canon := by
    unfold t
    split
    next ctx _ _ => exact hr.setCtx hr.ctx
    · exact hr
  exact ht

theorem State.Canon.fillWalkCache {die e} (h : s.Canon) : (s.fillWalkCache die e).Canon := by
  unfold State.fillWalkCache
  split
  · exact h
  · exact h.setDie

theorem State.Canon.walkTable {die c m va t write lvls} (h : s.Canon) : (s.walkTable die c m va write lvls t).1.Canon := by
  induction lvls generalizing s t with
  | nil => exact h
  | cons lvl r ih =>
    unfold State.walkTable
    extract_lets _ rd _ _ _ _ src s₂
    have hrd : rd.1.Canon := h.readPhys
    have hsrc : src.Canon := hrd.mod
    have hs₂ : s₂.Canon := by
      unfold s₂
      split
      · exact hrd
      · exact .moduleEvent (hrd.setMod hsrc)
    split
    · exact hs₂
    split
    · exact hrd
    split
    · exact hrd
    split
    · exact hrd
    split
    · exact hrd
    split
    · exact hrd
    · exact ih hrd.fillWalkCache

theorem State.Canon.walkLeaf {die c m va write} (h : s.Canon) : (s.walkLeaf die c m va write).1.Canon := h.walkTable
theorem State.Canon.walk {die c m va write} (h : s.Canon) : (s.walk die c m va write).1.Canon := h.walkLeaf
theorem State.Canon.walkAny {c m va} (h : s.Canon) : (s.walkAny c m va).1.Canon := h.walkLeaf
theorem State.Canon.fillCache {t c va leaf size} (h : s.Canon) : (s.fillCache t c va leaf size).Canon := h.setCluster h.cluster

theorem State.Canon.translate {t c va write} (h : s.Canon) : (s.translate t c va write).1.Canon := by
  unfold State.translate
  split
  · split
    next e₁ => exact h.walk.of_fst e₁
    next e₁ => exact (h.walk.of_fst e₁).fillCache
  · exact h

theorem State.Canon.startRead {a} (h : s.Canon) : (s.startRead a).Canon := by
  unfold State.startRead
  split
  · exact h.setMe
  · split <;> exact h.setMe

theorem State.Canon.orphan (h : s.Canon) : s.orphan.Canon := by
  unfold State.orphan
  split
  · exact h.setHere h.here
  · exact h

theorem State.Canon.globalLoad {i a n l} {get : State → Line} {post : State → Line → State} {put : State → BitVec 512 → State}
    (h : s.Canon) (hpost : ∀ (u : State) l, u.Canon → (post u l).Canon) (hput : ∀ (u : State) l, u.Canon → (put u l).Canon) :
    OnNext State.Canon (s.globalLoad i a n l get post put) := by
  unfold State.globalLoad
  extract_lets run s₁
  have hrun : ∀ (s : State) (e : Except Stop State), s.Canon → OnOk State.Canon e → OnNext State.Canon (run s e) :=
    fun _ _ hs₂ he₁ => hs₂.finishPone (fun _ _ hu => hpost _ _ hu) he₁
  have hs₁ : s₁.Canon := by
    unfold s₁
    split
    · exact h.startRead
    · exact h
  split
  · exact hrun _ _ h h
  split
  · exact hrun _ _ h trivial
  split
  · trivial
  refine hrun _ _ hs₁ ?_
  split
  · trivial
  · split
    · trivial
    · trivial
    · exact (hput _ _ hs₁).setWst.note
    · trivial
  · exact hs₁.orphan.setWst.note

theorem execLdg_canon {d a l y} (h : s.Canon) : OnNext State.Canon (execLdg d a l y s) :=
  h.globalLoad (fun _ _ hu => hu.setS) (fun _ _ hu => hu.setS)

theorem execVldg_canon {d a l} (h : s.Canon) : OnNext State.Canon (execVldg d a l s) :=
  h.globalLoad (fun _ _ hu => hu.setV) (fun _ _ hu => hu.setV)

theorem State.Canon.startWalk {a} (h : s.Canon) : (s.startWalk a).Canon := h

theorem State.Canon.globalStore {i a n} {body : Nat → DeltaBody} (h : s.Canon) : OnNext State.Canon (s.globalStore i a n body) := by
  unfold State.globalStore
  split
  · exact h.finishSeq trivial
  split
  · trivial
  · exact h.finishSeq trivial
  · exact h.startWalk.finishSeq trivial
  · exact h.finishSeq (OnOk.map h.sendOne fun _ ht => ht.note)

theorem execStg_canon {d a n} (h : s.Canon) : OnNext State.Canon (execStg d a n s) := h.globalStore
theorem execRedg_canon {d a f} (h : s.Canon) : OnNext State.Canon (execRedg d a f s) := h.globalStore

theorem State.Canon.sendLane {i o} (h : s.Canon) : (s.sendLane i o).Canon := by
  unfold State.sendLane
  extract_lets _ _ src s₁ _ _ s₂
  have hsrc : src.Canon := h.here
  have hs₁ : s₁.Canon := by
    unfold s₁
    split
    · exact h.setHere hsrc
    · exact h
  have hs₂ : s₂.Canon := hs₁.setMe
  exact hs₂.send

theorem State.Canon.scatter {addr : Nat → Nat} {n} {body : Nat → Nat → DeltaBody} {l} (h : s.Canon) :
    (State.scatter addr n body l s).1.Canon := by
  induction l generalizing s with
  | nil => exact h
  | cons i r ih =>
    unfold State.scatter
    extract_lets
    split
    · exact h
    split
    · exact h
    · exact h
    · exact h.startWalk
    extract_lets
    split
    · exact h
    · exact ih h.sendLane

theorem State.Canon.globalScatter {i x b p w} {body : Nat → Nat → Nat → DeltaBody} (h : s.Canon) :
    OnNext State.Canon (s.globalScatter i x b p w body) := by
  unfold State.globalScatter
  extract_lets
  split
  · exact h.finishSeq h
  split
  next e₂ => exact (h.scatter.of_fst e₂).finishSeq trivial
  · trivial
  next e₁ =>
    extract_lets t₁
    have ht₁ : t₁.Canon := List.foldlRecOn _ _ (h.scatter.of_fst e₁) fun _ hu _ _ => hu.note
    exact ht₁.finishSeq ht₁.setMe

theorem execVstg_canon {x b p z} (h : s.Canon) : OnNext State.Canon (execVstg x b p z s) := h.globalScatter
theorem execVredg_canon {x b p f} (h : s.Canon) : OnNext State.Canon (execVredg x b p f s) := h.globalScatter

theorem LineBuf.Canon.apply {b : LineBuf} {base d} (hb : b.Canon) : (b.apply base d).1.Canon := by
  unfold LineBuf.apply
  split
  · exact List.foldlRecOn _ _ hb fun _ hb₁ _ _ => Memory.wf_write _ _ _ hb₁
  · extract_lets
    refine List.foldlRecOn (motive := fun r : LineBuf × BitVec 3 => r.1.Canon) _ _ hb fun r hr e₁ _ => ?_
    extract_lets
    split
    · exact Memory.wf_setNum _ _ _ _ hr
    · exact hr
  · exact hb

theorem LineBuf.Canon.applyItem {m} {b : LineBuf} {line d} (hb : b.Canon) : (s.applyItem m b line d).1.Canon := by
  unfold State.applyItem
  extract_lets _ turn r
  have hturn : ∀ (way : Bool) (l : Memory), l.wf = true → (turn way l).wf = true := fun _ _ _ => Memory.wf_setNum _ _ _ _ rfl
  have hr : r.1.Canon := .apply (hturn _ _ hb)
  split
  · exact hb.apply
  · exact hturn _ _ hr

theorem State.Canon.journal {c m k line num} (h : s.Canon) : (s.journal c m k line num).Canon := by
  unfold State.journal
  extract_lets _ _ _ u src
  have hu : u.Canon := h.setStack.emit
  have hsrc : src.Canon := hu.ctx
  split
  · exact h
  split
  · split
    · exact h
    · exact hu.setCtx hsrc
  · exact h.setStack

theorem State.Canon.reportLine {c m line num} (h : s.Canon) : (s.reportLine c m line num).Canon := by
  unfold State.reportLine
  refine List.foldlRecOn _ _ h fun u hu t _ => List.foldlRecOn _ _ hu fun u₁ hu₁ e _ => ?_
  split
  · exact List.foldlRecOn _ _ hu₁ fun _ hu₂ _ _ => hu₂.send
  · exact hu₁

theorem State.Canon.keepOld {c m line poison mine} {start : LineBuf} (h : s.Canon) :
    (s.keepOld c m line poison mine start).Canon := by
  unfold State.keepOld
  extract_lets x
  have hx : x.Canon := h.ctx
  split
  · exact h
  · exact h.setCtx hx

theorem State.Canon.lostAtCommit {c} (h : s.Canon) : (s.lostAtCommit c).Canon := by
  unfold State.lostAtCommit
  extract_lets x src
  have hx : x.Canon := h.ctx
  have hsrc : src.Canon := h.setCtx hx
  split
  · exact h
  · exact hsrc

theorem State.Canon.cleanLine {m k line} (h : s.Canon) : (s.cleanLine m k line).Canon := h.setStack

theorem State.Canon.commitLine {c m k num items line} (h : s.Canon) : (s.commitLine c m k num items line).Canon := by
  unfold State.commitLine
  extract_lets _ _ _ r _ s₁ start s₂ r₁ s₃ src s₄ src₁ s₅
  have hr : r.1.Canon := h.readBlock
  have hs₁ : s₁.Canon := by
    unfold s₁
    split
    · exact hr.lostAtCommit
    · exact hr
  have hstart : start.Canon := Memory.wf_slice _ _ _ hs₁.mod.mem
  have hs₂ : s₂.Canon := hs₁.keepOld
  have hr₁ : r₁.1.Canon := List.foldlRecOn (motive := fun r : LineBuf × BitVec 3 => r.1.Canon) _ _ hstart fun _ hr₂ _ _ => hr₂.applyItem
  have hs₃ : s₃.Canon := hs₂.journal
  have hsrc : src.Canon := hs₃.mod
  have hs₄ : s₄.Canon := .cleanLine (hs₃.setMod ⟨Memory.wf_blit _ _ _ _ hsrc.mem hr₁, hsrc.mbox, hsrc.staging, hsrc.threads⟩)
  have hsrc₁ : src₁.Canon := hs₄.ctx
  have hs₅ : s₅.Canon := hs₄.setCtx hsrc₁
  split
  · exact List.foldlRecOn _ _ hs₂ fun _ hu _ _ => hu.logStack
  · exact hs₅.reportLine

theorem State.Canon.commitStack {c m k num} (h : s.Canon) : (s.commitStack c m k num).Canon := by
  unfold State.commitStack
  extract_lets _ _ s₁ s₂
  have hs₁ : s₁.Canon := h.setStack
  have hs₂ : s₂.Canon := List.foldlRecOn _ _ hs₁ fun _ hu _ _ => hu.commitLine
  split
  · exact hs₂.send
  · exact hs₂

end Sys2Proof.Machine
end

section
/-! The commit barrier: the tree's decision, and the commit and the abort of a tile. -/
namespace Sys2Proof.Machine
variable {s : State}

theorem State.Canon.arriveCbar {i d a l k o} (h : s.Canon) : (s.arriveCbar i d a l k o).Canon := h.enterWait.setMe.formArrival

theorem execCbar_canon {d a l k o} (h : s.Canon) : OnNext State.Canon (execCbar d a l k o s) := by
  unfold execCbar
  extract_lets _ _ head
  have hhead : OnOk (fun r => ∀ t, r = some t → t.Canon) head := by
    refine OnOk.seq fun _ => OnOk.seq fun _ => ?_
    split
    · rintro _ ⟨⟩
      exact State.Canon.setWst h.setMe
    split
    · trivial
    split
    · trivial
    · exact nofun
    · rintro _ ⟨⟩
      exact h.setWst
  clear_value head
  split
  next => exact h.finishSeq trivial
  next t => exact h.finishSeq (hhead t rfl)
  next => exact h.arriveCbar

theorem execAbortv_canon {c} (h : s.Canon) : OnNext State.Canon (execAbortv c s) := by
  unfold execAbortv
  extract_lets _ src
  have hsrc : src.Canon := h.here
  exact h.finishSeq (OnOk.seq fun _ => .voteAbort (h.setHere hsrc))

theorem Tile.Canon.irrev {x : Tile} (hx : x.Canon) : x.irrev.Canon := by
  unfold Tile.irrev
  split <;> exact hx

theorem execIrrev_canon (h : s.Canon) : OnNext State.Canon (execIrrev s) := by
  unfold execIrrev
  refine h.finishSeq (OnOk.seq fun u => ?_)
  split
  · exact h
  split
  · trivial
  · exact h.setHere h.here.irrev

theorem State.Canon.endWithdrawn {t n} (h : s.Canon) : (s.endWithdrawn t n).Canon := by
  unfold State.endWithdrawn
  split
  · exact h
  extract_lets _ _ u
  have hu : u.Canon := State.Canon.setMe h
  split
  next v e =>
    show v.Canon
    refine OnNext.of_eq ?_ e
    exact hu.finishSeq hu.setWst
  next => exact h

theorem execCbarDeadlineExpiry_canon (h : s.Canon) : OnNext State.Canon (execCbarDeadlineExpiry s) := by
  unfold execCbarDeadlineExpiry
  extract_lets _ _ x _ marked
  have hx : x.Canon := h.tile
  have hmarked : marked.Canon := hx.setStrand
  split
  · exact h
  split
  · exact h.endWithdrawn
  · exact .send (h.setTile hmarked)
  · exact h.setTile hmarked

theorem Ctx.Canon.setNode {c : Ctx} {n} (hc : c.Canon) : (c.setNode n).Canon := hc
theorem State.Canon.voidFrom {c a} (h : s.Canon) : (s.voidFrom c a).Canon := h

theorem State.Canon.holdItem {d} (h : s.Canon) : (s.holdItem d).Canon := by
  unfold State.holdItem
  split
  next w _ _ =>
    extract_lets _ put s₁
    have hput : ∀ (s : State) (w : Nat), s.Canon → (put s w).Canon := fun _ _ hs₂ => hs₂.setStack
    have hs₁ : s₁.Canon := hput _ _ h
    split
    · exact hput _ _ hs₁
    · exact hs₁
  · exact h

theorem State.Canon.holdDelta {d} (h : s.Canon) : (s.holdDelta d).Canon := by
  unfold State.holdDelta
  extract_lets s₁
  have hs₁ : s₁.Canon := h.holdItem
  split
  · exact hs₁.holdItem
  · exact hs₁

theorem State.Canon.flushPart {c num va l} (h : s.Canon) : (s.flushPart c num va l).Canon := by
  unfold State.flushPart
  split
  next e => exact List.foldlRecOn _ _ (h.walkAny.of_fst e) fun _ hu₁ _ _ => hu₁.holdItem
  next e => exact h.walkAny.of_fst e

theorem State.Canon.flushLog {c num} (h : s.Canon) : (s.flushLog c num).Canon := by
  unfold State.flushLog
  extract_lets x _ s₁
  have hx : x.Canon := h.ctx
  have hs₁ : s₁.Canon := h.setCtx hx
  exact List.foldlRecOn _ _ hs₁ fun _ hu _ _ => List.foldlRecOn _ _ hu fun _ hu₁ _ _ => hu₁.flushPart

theorem State.Canon.dropTentative {c num} (h : s.Canon) : (s.dropTentative c num).Canon := by
  unfold State.dropTentative
  refine ⟨h.tiles, h.clusters, h.mods.map ?_, h.ctxs⟩
  exact fun _ h₁ => h₁

theorem State.Canon.standCheckpoint {c} (h : s.Canon) : (s.standCheckpoint c).Canon := by
  unfold State.standCheckpoint
  extract_lets x
  have hx : x.Canon := h.ctx
  split
  · exact h
  extract_lets s₁ s₂
  have hs₁ : s₁.Canon := h.setCtx hx
  have hs₂ : s₂.Canon := by
    unfold s₂
    refine ⟨hs₁.tiles, hs₁.clusters, hs₁.mods.map ?_, hs₁.ctxs⟩
    exact fun _ h₁ => h₁
  exact hs₂.emit

theorem State.Canon.notice {m code c seq value} (h : s.Canon) : (s.notice m code c seq value).Canon := by
  unfold State.notice
  extract_lets md
  have hmd : md.Canon := h.mod
  exact h.setMod hmd

theorem State.Canon.ctxNotice {c code value} (h : s.Canon) : (s.ctxNotice c code value).Canon := h.notice

theorem State.Canon.postResult {m box code value} (h : s.Canon) : (s.postResult m box code value).Canon := by
  unfold State.postResult
  extract_lets md mem
  have hmd : md.Canon := h.mod
  have hmem : mem.wf = true := Memory.wf_setNum _ _ _ _ hmd.mbox
  exact h.setMod ⟨hmd.mem, Memory.wf_write _ _ _ hmem, hmd.staging, hmd.threads⟩

theorem State.Canon.answerSyncs {c} (h : s.Canon) : (s.answerSyncs c).Canon := by
  unfold State.answerSyncs
  split
  · exact h
  · exact List.foldlRecOn _ _ (h.setCtx h.ctx) fun _ hu _ _ => hu.postResult

theorem State.Canon.commitRoot {c n} (h : s.Canon) : (s.commitRoot c n).Canon := by
  unfold State.commitRoot
  extract_lets s₁ s₂ l s₃ src
  have hs₁ : s₁.Canon := h.applyPushes.expose.triggerAll
  have hs₂ : s₂.Canon := hs₁.retryPushes.flushLog
  have hs₃ : s₃.Canon := List.foldlRecOn _ _ hs₂ fun _ hu _ _ => hu.send
  have hsrc : src.Canon := hs₃.ctx
  clear_value l
  exact .answerSyncs (.setCtx hs₃ hsrc)

theorem State.Canon.passDecide {c id d} (h : s.Canon) : (s.passDecide c id d).Canon := by
  unfold State.passDecide
  split
  · exact h
  · exact List.foldlRecOn _ _ (h.setCtx h.ctx.setNode) fun _ hu _ _ => hu.send

theorem State.Canon.stopInstances {c} (h : s.Canon) : (s.stopInstances c).Canon :=
  List.foldlRecOn _ _ h fun _ hu _ _ => hu.stopThreads

theorem State.Canon.tellDeps {c} {met : LaunchDep → DepSt} (h : s.Canon) : (s.tellDeps c met).Canon := by
  unfold State.tellDeps
  refine ⟨h.tiles, h.clusters, h.mods.map ?_, h.ctxs⟩
  exact fun _ h₁ => h₁

theorem State.Canon.meetDeps {c n} (h : s.Canon) : (s.meetDeps c n).Canon := h.tellDeps

theorem State.Canon.decideRoot {c v a held limit} (h : s.Canon) : (s.decideRoot c v a held limit).Canon := by
  unfold State.decideRoot
  extract_lets s₁ x _ v₁ _ _ _ _ _ s₂ ev s₃ s₄ s₅
  have hs₁ : s₁.Canon := h.standCheckpoint
  have hx : x.Canon := hs₁.ctx
  have hs₂ : s₂.Canon := hs₁.setCtx hx
  have hev : ∀ (s : State) (code : BitVec 16) (value : Nat), s.Canon → (ev s code value).Canon := fun _ _ _ hs₆ => hs₆.emit
  have hs₃ : s₃.Canon := by
    unfold s₃
    clear_value v₁
    split
    · exact hs₂.commitRoot.meetDeps
    · exact hs₂.dropTentative.dropPushes
  have hs₄ : s₄.Canon := by
    unfold s₄
    split
    · exact hev _ _ _ hs₃
    · exact hs₃
  have hs₅ : s₅.Canon := by
    unfold s₅
    split
    · exact (hev _ _ _ hs₄).stopInstances
    · exact hs₄
  exact hs₅.passDecide

theorem State.Canon.tryDecide {c} (h : s.Canon) : (s.tryDecide c).Canon := by
  unfold State.tryDecide
  extract_lets
  split
  · exact h
  split
  · exact h
  extract_lets
  split
  · exact h.decideRoot
  split
  · exact h.decideRoot
  · exact h

theorem State.Canon.demandNow {c} (h : s.Canon) : (s.demandNow c).Canon := by
  unfold State.demandNow
  extract_lets x
  have hx : x.Canon := h.ctx
  split
  · exact h
  split
  · exact h
  · exact .decideRoot (h.setCtx hx)
  · exact .decideRoot (h.setCtx hx)

theorem State.Canon.demandDecision {c d} (h : s.Canon) : (s.demandDecision c d).Canon := by
  unfold State.demandDecision
  extract_lets x
  have hx : x.Canon := h.ctx
  split
  · exact h
  · exact .demandNow (h.setCtx hx)

theorem State.Canon.ssnMismatch {c} (h : s.Canon) : (s.ssnMismatch c).Canon := .demandDecision h

theorem State.Canon.nodeArrive {c src dst a} (h : s.Canon) : (s.nodeArrive c src dst a).Canon := by
  unfold State.nodeArrive
  extract_lets x
  have hx : x.Canon := h.ctx
  split
  · exact h
  split
  · exact h.ssnMismatch
  extract_lets _ s₁
  have hs₁ : s₁.Canon := h.setCtx hx.setNode
  split
  · exact hs₁.tryDecide
  split
  · exact (hs₁.setCtx hx.setNode).send
  · exact hs₁

theorem execTreeArrive_canon (h : s.Canon) : OnNext State.Canon (execTreeArrive s) := by
  unfold execTreeArrive
  split
  · split
    · exact h
    extract_lets u
    have hu : u.Canon := h
    split
    · exact hu
    · exact hu.nodeArrive
  · exact h

theorem State.Canon.nodeWithdraw {c src dst num} (h : s.Canon) : (s.nodeWithdraw c src dst num).Canon := by
  unfold State.nodeWithdraw
  extract_lets x
  have hx : x.Canon := h.ctx
  split
  · exact h
  split
  · exact h.ssnMismatch
  split
  · exact h
  split
  · extract_lets s₁
    have hs₁ : s₁.Canon := h.setCtx hx.setNode
    split
    · exact hs₁.send
    · exact hs₁
  · exact (h.setCtx hx.setNode).send

theorem execTreeWithdraw_canon (h : s.Canon) : OnNext State.Canon (execTreeWithdraw s) := by
  unfold execTreeWithdraw
  split
  · split
    · exact h
    extract_lets u
    have hu : u.Canon := h
    split
    · exact hu
    · exact hu.nodeWithdraw
  · exact h

theorem State.Canon.nodeWconf {c dst num} (h : s.Canon) : (s.nodeWconf c dst num).Canon := by
  unfold State.nodeWconf
  extract_lets x
  have hx : x.Canon := h.ctx
  split
  · exact h
  · exact List.foldlRecOn _ _ (h.setCtx hx.setNode) fun _ hu _ _ => hu.send

theorem State.Canon.tileWconf {t} (h : s.Canon) : (s.tileWconf t).Canon := by
  unfold State.tileWconf
  extract_lets x s₁ _ s₂
  have hx : x.Canon := h.tile
  have hs₁ : s₁.Canon := h.setTile hx
  have hs₂ : s₂.Canon := List.foldlRecOn _ _ hs₁ fun _ hu _ _ => hu.endWithdrawn
  split
  · exact h
  split
  · exact hs₂.formArrival
  · exact hs₂

theorem execTreeWconf_canon (h : s.Canon) : OnNext State.Canon (execTreeWconf s) := by
  unfold execTreeWconf
  split
  · split
    · exact h
    extract_lets u
    have hu : u.Canon := h
    split
    · exact hu.tileWconf
    · exact hu.nodeWconf
  · exact h

theorem Tile.Canon.writeFree {x : Tile} {a l} (hx : x.Canon) : (x.writeFree a l).1.Canon := by
  unfold Tile.writeFree
  extract_lets
  refine List.foldlRecOn _ _ hx fun y hy c _ => ?_
  split
  · exact hy
  · exact hy.writeBytes

theorem Tile.Canon.tryFree {x : Tile} {q rec} {y : Tile × Bool} (hx : x.Canon) (e : x.tryFree q rec = some y) : y.1.Canon := by
  unfold Tile.tryFree at e
  split at e
  · obtain ⟨z, hz, rfl⟩ := Option.map_eq_some_iff.mp e
    exact hx.tryAppend hz
  · obtain ⟨r, -, rfl⟩ := Option.map_eq_some_iff.mp e
    exact Tile.Canon.setTail (List.foldlRecOn (motive := fun w : Tile × Bool => w.1.Canon) _ _ hx fun _ hw _ _ => hw.writeFree)

theorem Applied.Canon.apply {p : Applied} {d} (hp : p.Canon) : (p.apply d).Canon := by
  unfold Applied.apply
  split
  · exact List.foldlRecOn _ _ hp fun _ hy _ _ => hy.writeBytes
  · exact List.foldlRecOn _ _ hp fun _ hq _ _ => hq.writeBytes
  · extract_lets
    split
    · exact hp.appendRecord
    split
    next r e => exact (Tile.Canon.tryFree hp e : r.1.Canon)
    · exact hp.setOverflow
  · exact hp

theorem Applied.Canon.drain {q l} {p : Applied} (hp : p.Canon) : (Applied.drain q l p).Canon := by
  induction l generalizing p with
  | nil => exact Tile.Canon.setOverflow hp
  | cons r l ih =>
    unfold Applied.drain
    split
    next y e => exact ih (Tile.Canon.tryFree hp e)
    · exact Tile.Canon.setOverflow hp

theorem Applied.Canon.commitRings {p : Applied} (hp : p.Canon) : p.commitRings.Canon := by
  unfold Applied.commitRings
  extract_lets
  exact List.foldlRecOn _ _ hp fun _ hp₁ _ _ => hp₁.drain

theorem Tile.Canon.restart {x : Tile} {f : BitVec 2 → Strand} (hx : x.Canon) : (x.restart f).Canon := hx
theorem State.Canon.dropPosts {t} (h : s.Canon) : (s.dropPosts t).Canon := h.setTile h.tile

theorem Tile.Canon.exposeColl {x : Tile} {l} (hx : x.Canon) : (x.exposeColl l).Canon :=
  List.foldlRecOn _ _ hx fun _ hy _ _ => hy.endColl

theorem State.Canon.startCapture {c t num} (h : s.Canon) : (s.startCapture c t num).Canon := by
  unfold State.startCapture
  extract_lets s₁ _ _ _ _ s₂ s₃ _ s₄ src
  have hs₁ : s₁.Canon := h.imageReads
  have hs₂ : s₂.Canon := hs₁.writeImage
  have hs₃ : s₃.Canon := by
    unfold s₃
    split
    · exact hs₂
    · exact hs₂.writeImage
  have hs₄ : s₄.Canon := hs₃.writeOverflow
  have hsrc : src.Canon := hs₄.tile
  exact hs₄.setTile hsrc

theorem State.Canon.commitReads {t num} (h : s.Canon) : (s.commitReads t num).Canon := by
  unfold State.commitReads
  extract_lets
  split
  · exact h
  · exact List.foldlRecOn _ _ h.correctAt fun _ hu _ _ => hu.correctAt

theorem State.Canon.commitTile {c t d} (h : s.Canon) : (s.commitTile c t d).Canon := by
  unfold State.commitTile
  extract_lets s₁ s₂ x _ _ _ _ p _ _ _ _ x₃ x₄ x₅ _ s₃ s₄ s₅ s₆ src₂
  have hs₁ : s₁.Canon := h.dropPosts
  have hs₂ : s₂.Canon := hs₁.commitReads
  have hx : x.Canon := hs₂.tile.performAll
  have hp : p.Canon := List.foldlRecOn _ _ (.commitRings hx) fun _ hu _ _ => .apply hu
  have hx₃ : x₃.Canon := .restart hp
  have hx₄ : x₄.Canon := hx₃.exposeColl
  have hx₅ : x₅.Canon := by
    unfold x₅
    split <;> exact hx₄
  have hs₃ : s₃.Canon := .finishNext (hs₂.setTile hx₅)
  have hs₄ : s₄.Canon := by
    unfold s₄
    split
    · exact hs₃.startCapture
    · exact hs₃
  have hs₅ : s₅.Canon := hs₄.barrierRecord
  have hs₆ : s₆.Canon := List.foldlRecOn _ _ hs₅ fun _ hu _ _ => hu.countError
  have hsrc₂ : src₂.Canon := hs₆.ctx
  split
  · exact hs₅
  split
  · exact hs₆
  · exact hs₆.setCtx hsrc₂

theorem Tile.Canon.restorePre {x : Tile} (hx : x.Canon) : x.restorePre.Canon := by
  unfold Tile.restorePre
  extract_lets y y₁
  have hy : y.Canon := List.foldlRecOn _ _ hx fun _ hy₂ _ _ => hy₂.writeBytes.setBand
  have hy₁ : y₁.Canon := List.foldlRecOn _ _ hy fun _ hy₂ _ _ => hy₂.setAcc
  exact hy₁

theorem State.Canon.unfix {t loose pre lines} (h : s.Canon) : (s.unfix t loose pre lines).Canon := by
  unfold State.unfix
  extract_lets s₁ s₂
  have hs₁ : s₁.Canon := by
    unfold s₁
    refine List.foldlRecOn _ _ h fun u hu k _ => ?_
    split
    · exact hu
    · exact hu.forget
  have hs₂ : s₂.Canon := by
    unfold s₂
    refine List.foldlRecOn _ _ hs₁ fun u hu e _ => ?_
    split
    · exact hu
    · exact List.foldlRecOn _ _ hu fun _ hu₁ _ _ => hu₁.forget
  refine List.foldlRecOn _ _ hs₂ fun u hu r _ => ?_
  split
  · exact hu.forget
  · exact hu

theorem Tile.Canon.scratchSpan {x : Tile} {r} (hx : x.Canon) : (x.scratchSpan r).Canon := by
  unfold Tile.scratchSpan
  refine List.foldlRecOn _ _ hx fun y hy g _ => ?_
  extract_lets
  split <;> exact hy

theorem Tile.Canon.cancelAttempt {x : Tile} (hx : x.Canon) : x.cancelAttempt.Canon := by
  unfold Tile.cancelAttempt
  extract_lets y
  have hy : y.Canon := List.foldlRecOn _ _ hx fun _ hy₁ _ _ => hy₁.cancelEng
  refine List.foldlRecOn _ _ hy fun y₁ hy₁ n _ => List.foldlRecOn _ _ hy₁ fun y₂ hy₂ k _ => ?_
  extract_lets
  split
  · exact hy₂.unlock
  · exact hy₂

theorem Tile.Canon.stopAll {x : Tile} (hx : x.Canon) : x.stopAll.Canon := hx.performAll

theorem State.Canon.countRefusals {c t num} (h : s.Canon) : (s.countRefusals c t num).Canon := by
  unfold State.countRefusals
  refine List.foldlRecOn _ _ h fun u hu q _ => ?_
  extract_lets y _ u₁
  have hy : y.Canon := hu.tile
  have hu₁ : u₁.Canon := hu.setTile hy
  split
  · exact hu₁.tileEvent
  · exact hu₁

theorem State.Canon.abortReads {t} (h : s.Canon) : (s.abortReads t).Canon := by
  unfold State.abortReads
  extract_lets
  split
  · exact h.countError.setTile h.countError.tile.irrev
  · exact List.foldlRecOn _ _ h fun _ hu _ _ => hu.correctAt

theorem State.Canon.abortTile {c t d} (h : s.Canon) : (s.abortTile c t d).Canon := by
  unfold State.abortTile
  extract_lets s₁ x ops lines nexts y y₁ y₂ rings y₃ lives y₄ y₅ y₆ s₂ src s₃
  have hs₁ : s₁.Canon := h.dropPosts.countRefusals.abortReads
  have hx : x.Canon := hs₁.tile.performAll
  have hy : y.Canon := hx.cancelAttempt.restorePre
  clear_value y
  have hy₂ : y₂.Canon := List.foldlRecOn (motive := Tile.Canon) _ _ hy fun _ hz _ _ => hz.scratchSpan
  clear_value y₂
  have hy₄ : y₄.Canon := Tile.Canon.restart hy₂
  clear_value y₄
  have hy₅ : y₅.Canon := by
    unfold y₅
    split <;> exact hy₄
  clear_value y₅
  have hs₂ : s₂.Canon := State.Canon.unfix (hs₁.setTile hy₅)
  have hsrc : src.Canon := hs₂.ctx
  have hs₃ : s₃.Canon := by
    unfold s₃
    split
    · exact .tileEvent (.setCtx hs₂ hsrc)
    · exact hs₂
  exact hs₃.barrierRecord

theorem State.Canon.fatalTile {t d} (h : s.Canon) : (s.fatalTile t d).Canon :=
  (h.dropPosts.setTile h.dropPosts.tile.stopAll).barrierRecord

theorem State.Canon.reportDone {c} (h : s.Canon) : (s.reportDone c).Canon := by
  unfold State.reportDone
  extract_lets x
  have hx : x.Canon := h.ctx
  split
  · exact h
  split
  · exact h
  · exact .ctxNotice (.emit (h.setCtx hx))

theorem State.Canon.finishDecision {c} (h : s.Canon) : (s.finishDecision c).Canon := by
  unfold State.finishDecision
  extract_lets x
  have hx : x.Canon := h.ctx
  split
  · extract_lets s₁ s₂ src s₃
    have hs₁ : s₁.Canon := h.setCtx hx
    have hs₂ : s₂.Canon := by
      unfold s₂
      split <;> exact hs₁
    have hsrc : src.Canon := hs₂.ctx
    have hs₃ : s₃.Canon := by
      unfold s₃
      split
      · exact .reportDone (.tellDeps (hs₂.setCtx hsrc))
      · exact hs₂
    split
    · exact hs₃
    split
    · exact hs₃.demandNow
    · exact List.foldlRecOn _ _ hs₃ fun _ hu _ _ => hu.formArrival
  · exact h

theorem State.Canon.runDecision {c t d} (h : s.Canon) : (s.runDecision c t d).Canon := by
  unfold State.runDecision
  extract_lets s₁ s₂ s₃ src
  have hs₁ : s₁.Canon := h.voidFrom
  have hs₂ : s₂.Canon := by
    unfold s₂
    split
    · exact hs₁.commitTile
    · exact hs₁.abortTile
    · exact hs₁.fatalTile
  have hs₃ : s₃.Canon := hs₂.placeWithheld
  have hsrc : src.Canon := hs₃.ctx
  exact .finishDecision (hs₃.setCtx hsrc)

theorem State.Canon.tileDecide {c t d} (h : s.Canon) : (s.tileDecide c t d).Canon := by
  unfold State.tileDecide
  extract_lets x
  have hx : x.Canon := h.tile
  split
  · exact .voidFrom (h.setTile hx)
  · exact h.runDecision

theorem State.Canon.lostDecide {c t v} (h : s.Canon) : (s.lostDecide c t v).Canon := by
  unfold State.lostDecide
  extract_lets u src
  have hu : u.Canon := h.voidFrom
  have hsrc : src.Canon := hu.ctx
  exact .finishDecision (hu.setCtx hsrc)

theorem execTreeDecide_canon (h : s.Canon) : OnNext State.Canon (execTreeDecide s) := by
  unfold execTreeDecide
  split
  · split
    · exact h
    extract_lets u
    have hu : u.Canon := h
    split
    · show State.Canon _
      split
      · exact hu.lostDecide
      · exact hu.tileDecide
    · exact hu.voidFrom.passDecide
  · exact h

end Sys2Proof.Machine
end

section
/-! Control registers and the fetch of blocks. -/
namespace Sys2Proof.Machine
variable {s : State}

theorem Module.Canon.setIsland {md : Module} {i x} (hmd : md.Canon) : (md.setIsland i x).Canon := hmd

theorem State.Canon.writeIslctl {m v} (h : s.Canon) : (s.writeIslctl m v).Canon := by
  unfold State.writeIslctl
  extract_lets _ _ md
  have hmd : md.Canon := h.mod
  split
  · exact h.setMod hmd
  · exact .setMod h (.setIsland hmd)

theorem State.Canon.writeHref {m v} (h : s.Canon) : (s.writeHref m v).Canon := h.setMod h.mod

theorem State.Canon.writeSup {m r v} {u : State} (h : s.Canon) (e : s.writeSup m r v = some u) : u.Canon := by
  refine OnSome.of_eq ?_ e
  unfold State.writeSup
  split
  · exact h.setMod h.mod
  · exact h.setMod h.mod
  · exact h.writeHref
  · exact h.writeIslctl
  · trivial

theorem Tile.Canon.writeQcfg {x : Tile} {mgmt q v} (hx : x.Canon) : (x.writeQcfg mgmt q v).Canon := by
  unfold Tile.writeQcfg
  extract_lets
  split <;> exact hx.setQcfg

theorem State.Canon.writeReg {t r n v} {u : State} (h : s.Canon) (e : s.writeReg t n r v = some u) : u.Canon := by
  refine OnSome.of_eq ?_ e
  unfold State.writeReg
  extract_lets x z put
  have hx : x.Canon := h.tile
  have hput : ∀ y, OnSome State.Canon (put y) := fun _ => h.setTile hx.setStrand
  split
  iterate 8 exact hput _
  · split
    · exact hput _
    · trivial
  iterate 14 exact hput _
  iterate 2 exact h.setTile hx
  iterate 4 exact h.setTile hx.writeQcfg
  trivial

theorem execMfs_canon {d r} (h : s.Canon) : OnNext State.Canon (execMfs d r s) := by
  unfold execMfs
  refine h.finishSeq ?_
  split
  · trivial
  split
  · trivial
  · exact h.setS

theorem execMts_canon {a r} (h : s.Canon) : OnNext State.Canon (execMts a r s) := by
  unfold execMts
  refine h.finishSeq ?_
  split
  · trivial
  split
  · split
    · trivial
    · trivial
    next e₃ => exact h.writeSup e₃
  · split
    · trivial
    · trivial
    next e₃ => exact h.writeReg e₃

theorem execNow_canon {d} (h : s.Canon) : OnNext State.Canon (execNow d s) := h.finishSeq h.setS
theorem execSetdl_canon {a} (h : s.Canon) : OnNext State.Canon (execSetdl a s) := h.finishSeq h.setMe

theorem execNextt_canon {d} (h : s.Canon) : OnNext State.Canon (execNextt d s) := by
  unfold execNextt
  refine h.finishSeq (OnOk.seq fun u => ?_)
  extract_lets _ _ t
  have ht : t.Canon := h.setS
  split
  · exact h.setMe
  · exact ht.setMe

theorem execPrio_canon {c p} (h : s.Canon) : OnNext State.Canon (execPrio c p s) := h.finishSeq h.setMe
theorem execProfrd_canon {d a} (h : s.Canon) : OnNext State.Canon (execProfrd d a s) := h.finishSeq h.setS

theorem execProfrdClr_canon {d a} (h : s.Canon) : OnNext State.Canon (execProfrdClr d a s) :=
  h.finishSeq (h.setS.setHere h.setS.here)

theorem State.Canon.request {b} (h : s.Canon) : (s.request b).Canon := by
  unfold State.request
  split
  · exact h
  · exact h.setMe

theorem State.Canon.requestUnit (h : s.Canon) : s.requestUnit.Canon := by
  unfold State.requestUnit
  extract_lets
  split
  · exact h.request
  · exact h.setMe.request

theorem State.Canon.prefetch (h : s.Canon) : s.prefetch.Canon := by
  unfold State.prefetch
  extract_lets _ _ s₁
  have hs₁ : s₁.Canon := h.setMe
  split
  · exact hs₁
  · exact hs₁.request

theorem execFetchBlockServed_canon (h : s.Canon) : OnNext State.Canon (execFetchBlockServed s) := by
  unfold execFetchBlockServed
  extract_lets _ src
  have hsrc : src.Canon := h.cluster
  split
  · exact h
  extract_lets _ s₁
  have hs₁ : s₁.Canon := h.setCluster hsrc
  refine show State.Canon _ from List.foldlRecOn _ _ hs₁ fun u hu t _ => ?_
  extract_lets x₁
  have hx₁ : x₁.Canon := hu.tile
  split
  · exact hu.setTile hx₁
  · exact hu

theorem Tile.Canon.older {n t} {x : Tile} (hx : x.Canon) : (s.older n t x).Canon := hx

theorem Tile.Canon.issued {x : Tile} {n vec} (hx : x.Canon) : (x.issued n vec).Canon := by
  unfold Tile.issued
  extract_lets _ y
  have hy : y.Canon := hx.setStrand
  split <;> exact hy

end Sys2Proof.Machine
end

section
/-! The events of global memory, of the engine and of waits. -/
namespace Sys2Proof.Machine
variable {s : State}

theorem State.Canon.walkResult {w r} (h : s.Canon) : (s.walkResult w r).Canon := by
  unfold State.walkResult
  extract_lets
  split
  · split
    · split
      · split
        · exact h.setStrand
        · exact h
      · split
        · exact h.setStrand
        · exact h
    · exact h
  · split
    · split
      · exact h.setStrand
      · exact h
    · exact h

theorem State.Canon.walkServe {r w} (h : s.Canon) : (s.walkServe r w).Canon := by
  unfold State.walkServe
  extract_lets e s₁
  have hs₁ : s₁.Canon := by
    unfold s₁
    clear_value e
    split
    · exact h.fillCache
    · exact h
  exact hs₁.walkResult

theorem execPageWalkComplete_canon (h : s.Canon) : OnNext State.Canon (execPageWalkComplete s) := by
  unfold execPageWalkComplete
  split
  · exact h
  split
  · exact h
  extract_lets _ r
  have hr : r.1.Canon := .walkLeaf h
  exact State.Canon.demandNow (List.foldlRecOn _ _ hr fun _ hu _ _ => hu.walkServe)

theorem execGlobalReadResponse_canon (h : s.Canon) : OnNext State.Canon (execGlobalReadResponse s) := by
  unfold execGlobalReadResponse
  extract_lets t n x z c
  have hx : x.Canon := h.tile
  split
  · split
    · exact h
    · exact .setTile h (.account hx)
  generalize z.gread = g, z.loadOf = l
  split
  · extract_lets partner r y _ u
    have hr : r.1.Canon := h.readPhys
    have hu : u.Canon := hr.setTile hr.tile.account.setStrand
    clear_value c
    split
    · split
      · exact h
      · exact hu.demandNow
    · exact hu
  · exact h

theorem State.Canon.writeNow {m d} (h : s.Canon) : (s.writeNow m d).Canon := by
  unfold State.writeNow
  extract_lets _ _ r _ _ start b src
  have hr : r.1.Canon := h.readBlock
  have hstart : start.Canon := Memory.wf_slice _ _ _ hr.mod.mem
  have hb : b.Canon := hstart.apply
  have hsrc : src.Canon := hr.mod
  split
  · exact hr.logStack
  · exact .cleanLine (hr.setMod ⟨Memory.wf_blit _ _ _ _ hsrc.mem hb, hsrc.mbox, hsrc.staging, hsrc.threads⟩)

theorem execGlobalDeltaArrival_canon (h : s.Canon) : OnNext State.Canon (execGlobalDeltaArrival s) := by
  unfold execGlobalDeltaArrival
  split
  · split
    · extract_lets u
      have hu : u.Canon := h
      split
      · exact hu.writeNow.send
      split
      · exact hu.send
      split
      · exact hu.holdDelta.send
      · exact hu.send
    · exact h
  · exact h

theorem execBaseDieCommit_canon (h : s.Canon) : OnNext State.Canon (execBaseDieCommit s) := by
  unfold execBaseDieCommit
  split
  · split
    · exact h
    extract_lets u
    have hu : u.Canon := .commitStack h
    exact (State.Canon.answerSyncs (List.foldlRecOn _ _ hu fun _ hu₁ _ _ => hu₁.finishNext)).reportDone.tryDecide.demandNow
  · exact h

theorem State.Canon.showNew {c k} (h : s.Canon) : (s.showNew c k).Canon := by
  unfold State.showNew
  extract_lets _ x
  have hx : x.Canon := h.ctx
  split
  · exact h
  · exact h.setCtx hx

theorem execArrayAcknowledgement_canon (h : s.Canon) : OnNext State.Canon (execArrayAcknowledgement s) := by
  unfold execArrayAcknowledgement
  split
  · extract_lets u x₁ _ y
    have hu : u.Canon := h
    have hx₁ : x₁.Canon := hu.ctx
    have hy : y.Canon := by
      unfold y
      split <;> exact hx₁
    split
    · exact (hu.setCtx hy).tryDecide
    · exact .reportDone (.tryDecide (.showNew (hu.setCtx hx₁)))
  · exact h

theorem State.Canon.syncArrives {i} (h : s.Canon) : (s.syncArrives i).Canon := by
  unfold State.syncArrives
  split
  · exact h.setCtx h.ctx
  · exact h

theorem execCheckpointCaptureDone_canon (h : s.Canon) : OnNext State.Canon (execCheckpointCaptureDone s) := by
  unfold execCheckpointCaptureDone
  extract_lets _ src
  have hsrc : src.Canon := h.tile
  split
  · exact .send (h.setTile hsrc)
  · exact h

theorem State.Canon.issueEng {op want} (h : s.Canon) : OnOk State.Canon (s.issueEng op want) := by
  unfold State.issueEng
  split
  · trivial
  split
  · trivial
  split
  · trivial
  extract_lets s₁ x₁ _ t
  have hs₁ : s₁.Canon := h.settle
  have hx₁ : x₁.Canon := hs₁.here
  have ht : t.Canon := hs₁.setHere hx₁
  exact ht.setTok

theorem State.Canon.fetchl {a k g next} (h : s.Canon) : OnOk State.Canon (s.fetchl a k g next) := by
  unfold State.fetchl
  extract_lets
  refine OnOk.seq fun u => OnOk.seq fun u₁ => ?_
  split
  · trivial
  · exact h.issueEng

theorem execFetchl_canon {a k g} (h : s.Canon) : OnNext State.Canon (execFetchl a k g s) := h.finishSeq h.fetchl
theorem execFetchlNext_canon {a k g} (h : s.Canon) : OnNext State.Canon (execFetchlNext a k g s) := h.finishSeq h.fetchl

theorem execWbl_canon {a k} (h : s.Canon) : OnNext State.Canon (execWbl a k s) :=
  h.finishSeq (OnOk.seq fun _ => OnOk.bind h.issueEng fun _ ht => ht.setHere ht.here)

theorem State.Canon.copy {a k g glob} (h : s.Canon) : OnOk State.Canon (s.copy a k g glob) := by
  unfold State.copy
  extract_lets
  split
  · trivial
  split
  · trivial
  split
  · split
    · trivial
    split
    · trivial
    split
    · trivial
    · exact h.issueEng
  · split
    · trivial
    split
    · trivial
    split
    · trivial
    · exact h.issueEng

theorem execCopy_canon {a k g} (h : s.Canon) : OnNext State.Canon (execCopy a k g s) := h.finishSeq h.copy
theorem execCopyG_canon {a k g} (h : s.Canon) : OnNext State.Canon (execCopyG a k g s) := h.finishSeq h.copy

theorem execRlstatLock_canon {d a} (h : s.Canon) : OnNext State.Canon (execRlstatLock d a s) := by
  unfold execRlstatLock
  refine h.finishSeq ?_
  split
  · trivial
  · exact h.setS

theorem execRlstatProg_canon {d k} (h : s.Canon) : OnNext State.Canon (execRlstatProg d k s) := h.finishSeq h.setS
theorem execRlstatFaddr_canon {d k} (h : s.Canon) : OnNext State.Canon (execRlstatFaddr d k s) := h.finishSeq h.setS
theorem State.Canon.setEng {t i e} (h : s.Canon) : (s.setEng t i e).Canon := h.setTile h.tile

theorem State.Canon.engFault {t e cause sub addr} (h : s.Canon) : (s.engFault t e cause sub addr).Canon := by
  unfold State.engFault
  extract_lets s₁
  have hs₁ : s₁.Canon := by
    unfold s₁
    split
    · exact h.voteAbort
    · exact h
  exact hs₁.endEng

theorem State.Canon.engTranslate {t va write} (h : s.Canon) : (s.engTranslate t va write).1.Canon := by
  unfold State.engTranslate
  split
  · exact h
  split
  · exact h.translate
  · exact h

theorem State.Canon.engXlate {t va write} (h : s.Canon) : (s.engXlate t va write).1.Canon := by
  unfold State.engXlate
  split
  next e => exact h.engTranslate.of_fst e
  next e => exact h.engTranslate.of_fst e
  next e =>
    split
    · split
      next e₂ => exact (h.engTranslate.of_fst e).engTranslate.of_fst e₂
      next e₂ => exact (h.engTranslate.of_fst e).engTranslate.of_fst e₂
      next e₂ => exact (h.engTranslate.of_fst e).engTranslate.of_fst e₂
    · exact h.engTranslate.of_fst e

theorem State.Canon.engPages {t write l} (h : s.Canon) : (State.engPages t write l s).1.Canon := by
  induction l generalizing s with
  | nil => exact h
  | cons va r ih =>
    unfold State.engPages
    split
    next e =>
      split
      next e₁ => exact (ih (h.engXlate.of_fst e)).of_fst e₁
      · exact ih (h.engXlate.of_fst e)
    next e => exact h.engXlate.of_fst e
    next e => exact h.engXlate.of_fst e

theorem State.Canon.engPhys {t leaf pa n} (h : s.Canon) : (s.engPhys t leaf pa n).1.Canon := h.readPhys

theorem State.Canon.engReadAt {t l} (h : s.Canon) : (s.engReadAt t l).1.Canon := by
  unfold State.engReadAt
  extract_lets _ r
  have hr : r.1.Canon := h.engPhys
  split
  · exact h
  split
  · exact hr
  split
  · exact hr
  extract_lets d
  have hd : d.1.Canon := hr.engPhys
  split <;> exact hd

theorem State.Canon.engRead {t va} (h : s.Canon) : (s.engRead t va).1.Canon := by
  unfold State.engRead
  split
  next e => exact h.engXlate.of_fst e
  next e => exact h.engXlate.of_fst e
  next e => exact (h.engXlate.of_fst e).engReadAt

theorem State.Canon.engFetch {t e} {got : State × LineRead} {locals} {next : State → State} (h : s.Canon) (hgot : got.1.Canon)
    (hnext : ∀ u : State, u.Canon → (next u).Canon) : (s.engFetch t e got locals next).Canon := by
  unfold State.engFetch
  split
  · exact h
  · exact hgot.engFault
  · exact (hgot.setTile hgot.tile.account).engFault
  extract_lets s₂
  have hs₂ : s₂.Canon := hgot.setTile hgot.tile.account
  exact hnext _ (List.foldlRecOn _ _ hs₂ fun _ hu _ _ => hu.engineWrite)

theorem State.Canon.engEntry {t i e} (h : s.Canon) : (s.engEntry t i e).Canon := by
  unfold State.engEntry
  split
  next e₁ => exact (h.engineReads.of_fst e₁).endEng
  next e₁ =>
    extract_lets s₂
    have hs₂ : s₂.Canon := (h.engineReads.of_fst e₁).setEng
    split
    · exact hs₂.setTile hs₂.tile.unlock
    · exact hs₂

theorem State.Canon.engBegin {t i e n write} (h : s.Canon) : (s.engBegin t i e n write).Canon := by
  unfold State.engBegin
  split
  · exact h.engFault
  split
  next e₂ => exact (h.engPages.of_fst e₂).engFault
  next e₂ => exact (h.engPages.of_fst e₂).setEng
  · exact h

theorem State.Canon.stepFetchl {t i e} (h : s.Canon) : (s.stepFetchl t i e).Canon := by
  unfold State.stepFetchl
  split
  · split
    · exact h.engBegin
    split
    · exact h
    refine h.engFetch h.engReadAt ?_
    intro _ hu
    extract_lets _ s₁
    have hs₁ : s₁.Canon := hu.setEng
    split
    · exact hs₁.endEng
    · exact hs₁.finishNext
  · split
    · exact h.engEntry
    split
    · exact h.finishNext
    split
    · exact h
    · exact h.engFetch h.engReadAt (fun _ hu => hu.setEng.finishNext)

theorem State.Canon.stepCopyG {t i e} (h : s.Canon) : (s.stepCopyG t i e).Canon := by
  unfold State.stepCopyG
  refine h.engFetch h.engRead ?_
  intro _ hu
  split
  · exact hu.setEng.endEng
  · exact hu.setEng

theorem State.Canon.afterEngine {t} (h : s.Canon) : (s.afterEngine t).Canon := by
  unfold State.afterEngine
  split
  · exact h.demandNow
  · exact h

theorem execEngineLineArrival_canon (h : s.Canon) : OnNext State.Canon (execEngineLineArrival s) := by
  unfold execEngineLineArrival
  extract_lets
  split
  · exact h
  split
  · exact h
  split
  · trivial
  split
  · exact h.stepFetchl.afterEngine
  · split
    · exact h.stepCopyG.afterEngine
    · exact h
  · exact h

theorem State.Canon.engineReadsSide {t k} (h : s.Canon) : (s.engineReadsSide t k).1.Canon := by
  unfold State.engineReadsSide
  split
  · exact h.tileError
  · exact h.correctAt

theorem State.Canon.engLocal {t k} (h : s.Canon) : (s.engLocal t k).1.Canon := by
  unfold State.engLocal
  split
  next e => exact h.engineReads.of_fst e
  next e =>
    split
    next e₁ => exact (h.engineReads.of_fst e).engineReadsSide.of_fst e₁
    next e₁ => exact (h.engineReads.of_fst e).engineReadsSide.of_fst e₁

theorem State.Canon.stepCopy {t i e} (h : s.Canon) : (s.stepCopy t i e).Canon := by
  unfold State.stepCopy
  extract_lets
  split
  next e₁ => exact (h.engLocal.of_fst e₁).endEng
  next e₁ =>
    extract_lets s₂
    have hs₂ : s₂.Canon := (h.engLocal.of_fst e₁).engineWrite
    split
    · exact hs₂.setEng.endEng
    · exact hs₂.setEng

theorem State.Canon.captureWbl {t i e n l} (h : s.Canon) : (s.captureWbl t i e n l).Canon := by
  unfold State.captureWbl
  extract_lets
  split
  · exact h
  split
  next e₂ => exact (h.engLocal.of_fst e₂).endEng
  next e₂ =>
    extract_lets _ _ s₂ s₃ s₄
    have hs₂ : s₂.Canon := (h.engLocal.of_fst e₂).setStrand
    have hs₃ : s₃.Canon := List.foldlRecOn _ _ hs₂ fun _ hu _ _ => hu.send
    have hs₄ : s₄.Canon := hs₃.setEng
    split
    · exact hs₄.setTile hs₄.tile.unlock
    · exact hs₄

theorem State.Canon.stepWbl {t i e} (h : s.Canon) : (s.stepWbl t i e).Canon := by
  unfold State.stepWbl
  split
  · exact h.endEng
  split
  · split
    · exact h.engBegin
    split
    · exact h.captureWbl
    · exact h
  · split
    · exact h.engEntry
    split
    · exact h.endEng
    · exact h

theorem execEngineLocalLine_canon (h : s.Canon) : OnNext State.Canon (execEngineLocalLine s) := by
  unfold execEngineLocalLine
  extract_lets
  split
  · exact h
  split
  · trivial
  split
  · exact h.stepWbl.afterEngine
  · split
    · exact h
    · exact h.stepCopy
  · exact h

theorem execRefetchReport_canon (h : s.Canon) : OnNext State.Canon (execRefetchReport s) := by
  unfold execRefetchReport
  split
  · extract_lets u x₁
    have hu : u.Canon := h
    have hx₁ : x₁.Canon := hu.tile
    exact .finishNext (hu.setTile hx₁)
  · exact h

theorem State.Canon.focus (h : s.Canon) : s.focus.Canon := h

theorem retest_canon {i} (h : s.Canon) : OnNext State.Canon (retest i s) := by
  unfold retest
  split
  · exact execKwait_canon h
  · exact execKwany_canon h
  · exact execWaitc_canon h
  · exact execFence_canon h
  · exact execRealign_canon h
  · exact execCbar_canon h
  · exact execMrecv_canon h
  · exact execLdg_canon h
  · exact execVldg_canon h
  · exact h

theorem State.Canon.awake {w expire} (h : s.Canon) : (s.awake w expire).Canon := h.setMe

theorem State.Canon.testWait {w expire} (h : s.Canon) : OnNext State.Canon (s.testWait w expire) := by
  unfold State.testWait
  split
  · extract_lets t u
    have ht : t.Canon := h.serve
    have hu : u.Canon := h.awake
    split
    · exact hu.finishSeq hu.setWst
    · exact ht
  · exact retest_canon h.awake

theorem State.Canon.testExam {w dl d} (h : s.Canon) : (s.testExam w dl d).Canon := h.awake.examine.afterRetire

theorem execWaitMet_canon (h : s.Canon) : OnNext State.Canon (execWaitMet s) := by
  unfold execWaitMet
  extract_lets u
  have hu : u.Canon := h.focus
  split
  · split
    · exact hu.testWait
    · split
      · exact h
      · exact hu.testExam
    · split
      · exact h
      · exact hu.setMe
    · exact h
    · exact h
  · exact h

theorem execWaitTimeout_canon (h : s.Canon) : OnNext State.Canon (execWaitTimeout s) := by
  unfold execWaitTimeout
  extract_lets u
  have hu : u.Canon := h.focus
  split
  · split
    · split
      · exact hu.testWait
      · exact h
    · split
      · exact hu.testExam
      · exact h
    · exact h
  · exact h

theorem execImplicitDeadline_canon (h : s.Canon) : OnNext State.Canon (execImplicitDeadline s) := by
  unfold execImplicitDeadline
  extract_lets u
  have hu : u.Canon := h.focus
  split
  · split
    · split
      · exact show State.Canon _ from hu.setMe.trapUnit.afterRetire
      · exact h
    · exact h
  · exact h

end Sys2Proof.Machine
end

section
/-! The chunk instructions and their events. -/
namespace Sys2Proof.Machine
variable {s : State}

theorem State.Canon.thread {m th} {t : Thread} (h : s.Canon) (e : s.thread m th = some t) : t.Canon := h.mod.threads.find e

theorem State.Canon.setThread {m th} {t : Thread} (h : s.Canon) (ht : t.Canon) : (s.setThread m th t).Canon :=
  h.setMod ⟨h.mod.mem, h.mod.mbox, h.mod.staging, h.mod.threads.set ht⟩

theorem State.Canon.thr (h : s.Canon) : s.thr.Canon := getD_keeps rfl (fun _ e => h.thread e)
theorem State.Canon.setThr {t : Thread} (h : s.Canon) (ht : t.Canon) : (s.setThr t).Canon := h.setThread ht
theorem Thread.Canon.setG {t : Thread} {r v} (ht : t.Canon) : (t.setG r v).Canon := ht
theorem State.Canon.setG {r v} (h : s.Canon) : (s.setG r v).Canon := h.setThr h.thr.setG

theorem State.Canon.peer {id k m th} {t : Thread} (h : s.Canon) (e : s.peer id k = some (m, th, t)) : t.Canon := by
  obtain ⟨d, hd, hf⟩ := List.exists_of_findSome?_eq_some e
  obtain ⟨p, hp, hq⟩ := List.exists_of_findSome?_eq_some hf
  split at hq
  · cases hq
    exact (h.mods d hd).threads p hp
  · cases hq

theorem State.Canon.threadFault {m th code abortc} (h : s.Canon) : (s.threadFault m th code abortc).Canon := by
  unfold State.threadFault
  split
  · exact h
  split
  · exact h
  · exact h.faultInst.collFault.send

theorem Thread.Canon.goTo {t : Thread} {pc} (ht : t.Canon) : (t.goTo pc).Canon := ht

theorem State.Canon.chunkEnd {u : State} {pc e} (h : s.Canon) (hu : u.Canon) (he : OnOk State.Canon e) :
    OnNext State.Canon (s.chunkEnd u pc e) := by
  unfold State.chunkEnd
  show State.Canon _
  split
  · exact he.setThr he.thr.goTo
  · exact h.threadFault
  split
  · exact hu
  · exact hu.setThr hu.thr

theorem State.Canon.chunkNext {e} (h : s.Canon) (he : OnOk State.Canon e) : OnNext State.Canon (s.chunkNext e) := h.chunkEnd h he

theorem State.Canon.chunkWait {cond} {met : State → Except ChunkStop State} {gone : State → State} (h : s.Canon)
    (hmet : ∀ u : State, u.Canon → OnOk State.Canon (met u)) (hgone : ∀ u : State, u.Canon → (gone u).Canon) :
    OnOk State.Canon (s.chunkWait cond met gone) := by
  unfold State.chunkWait
  split
  · exact OnOk.map (hmet _ h) fun _ ht => ht.setG
  split
  · exact (hgone _ h).setG
  · trivial

theorem State.Canon.boundWait {cond} {met : State → Except ChunkStop State} (h : s.Canon)
    (hmet : ∀ u : State, u.Canon → OnOk State.Canon (met u)) : OnOk State.Canon (s.boundWait cond met) := by
  unfold State.boundWait
  split
  · exact hmet _ h
  · trivial

theorem execChunkNop_canon (h : s.Canon) : OnNext State.Canon (execChunkNop s) := h.chunkNext h
theorem execSetg_canon (h : s.Canon) : OnNext State.Canon (execSetg s) := h.chunkNext h.setG
theorem execSetgh_canon (h : s.Canon) : OnNext State.Canon (execSetgh s) := h.chunkNext h.setG
theorem execMovg_canon (h : s.Canon) : OnNext State.Canon (execMovg s) := h.chunkNext h.setG
theorem execAddg_canon (h : s.Canon) : OnNext State.Canon (execAddg s) := h.chunkNext h.setG
theorem execAddgr_canon (h : s.Canon) : OnNext State.Canon (execAddgr s) := h.chunkNext h.setG
theorem execSubgr_canon (h : s.Canon) : OnNext State.Canon (execSubgr s) := h.chunkNext h.setG
theorem execMulgr_canon (h : s.Canon) : OnNext State.Canon (execMulgr s) := h.chunkNext h.setG

theorem execRemgr_canon (h : s.Canon) : OnNext State.Canon (execRemgr s) := by
  unfold execRemgr
  refine h.chunkNext ?_
  split
  · trivial
  · exact h.setG

theorem execBnzg_canon (h : s.Canon) : OnNext State.Canon (execBnzg s) := h.chunkEnd h h
theorem execLoopg_canon (h : s.Canon) : OnNext State.Canon (execLoopg s) := h.chunkEnd h h.setG
theorem execAbortc_canon (h : s.Canon) : OnNext State.Canon (execAbortc s) := h.chunkNext trivial
theorem Thread.Canon.put {t : Thread} {off l} (ht : t.Canon) : (t.put off l).Canon := Memory.wf_writeBytes _ _ _ ht

theorem execChunkCopy_canon (h : s.Canon) : OnNext State.Canon (execChunkCopy s) := by
  unfold execChunkCopy
  extract_lets t
  have ht : t.Canon := h.thr
  refine h.chunkNext ?_
  split
  · trivial
  split
  · trivial
  split
  · trivial
  · exact h.setThr ht.put

theorem execReduce_canon (h : s.Canon) : OnNext State.Canon (execReduce s) := by
  unfold execReduce
  extract_lets t
  have ht : t.Canon := h.thr
  refine h.chunkNext ?_
  split
  · trivial
  split
  · trivial
  split
  · trivial
  split
  · trivial
  split
  · trivial
  · exact h.setThr ht.put

theorem State.Canon.pairUp {a b tag j} (h : s.Canon) : OnOk State.Canon (s.pairUp a b tag j) := by
  unfold State.pairUp
  split
  next dst _ e₁ =>
    split
    · split
      · split
        · trivial
        split
        · trivial
        · exact .setThread h (show Thread.Canon dst from State.Canon.thread h e₁)
      · exact h
    · exact h
  · exact h

theorem execSend_canon (h : s.Canon) : OnNext State.Canon (execSend s) := by
  unfold execSend
  extract_lets _ _ _ _ _ post u paired checks
  have hpost : ∀ (s : State), s.Canon → (post s).Canon := fun _ hs₁ => hs₁.setThr hs₁.thr
  have hu : u.Canon := hpost _ h
  have hpaired : OnOk State.Canon paired := by
    unfold paired
    split
    · exact hu.pairUp
    · exact hu
  clear_value checks
  split
  · exact h.chunkNext trivial
  split
  · exact h.chunkNext (h.chunkWait (fun _ hu₁ => hu₁) (fun _ hu₁ => hu₁))
  clear_value paired
  split
  · exact h.chunkNext hpaired.setG
  split
  · exact h.chunkNext trivial
  · exact h.threadFault

theorem Thread.Canon.leaveRecv {t : Thread} (ht : t.Canon) : t.leaveRecv.Canon := ht

theorem execRecv_canon (h : s.Canon) : OnNext State.Canon (execRecv s) := by
  unfold execRecv
  extract_lets _ _ _ _ _ _ src u paired
  have hsrc : src.Canon := h.thr
  have hu : u.Canon := h.setThr hsrc
  have hpaired : OnOk State.Canon paired := by
    unfold paired
    split
    · exact hu.pairUp
    · exact hu
  split
  · exact h.chunkNext (h.chunkWait (fun _ hu₁ => hu₁) (fun _ hu₁ => hu₁))
  split
  · exact h.chunkNext trivial
  split
  · exact h.chunkNext trivial
  split
  · exact h.chunkNext trivial
  clear_value paired
  split
  · exact h.chunkEnd hpaired (hpaired.chunkWait (fun _ hu₂ => hu₂) (fun _ hu₂ => hu₂.setThr hu₂.thr.leaveRecv))
  split
  · exact h.chunkNext trivial
  · exact h.threadFault

theorem execChunkTransferComplete_canon (h : s.Canon) : OnNext State.Canon (execChunkTransferComplete s) := by
  unfold execChunkTransferComplete
  split
  · exact h
  split
  · exact h
  split
  next src _ e₃ =>
    split
    · exact h
    extract_lets _ u
    have hu : u.Canon := .setThread h (show Thread.Canon src from State.Canon.peer h e₃)
    split
    · exact h
    next e₅ => exact show State.Canon _ from hu.setThread (hu.thread e₅).put
  · exact h

theorem execSignal_canon (h : s.Canon) : OnNext State.Canon (execSignal s) := by
  unfold execSignal
  extract_lets
  refine h.chunkNext ?_
  split
  · trivial
  · exact h.boundWait (fun _ hu => hu.setThr hu.thr)

theorem execSignalApply_canon (h : s.Canon) : OnNext State.Canon (execSignalApply s) := by
  unfold execSignalApply
  split
  · exact h
  next t e =>
    split
    · extract_lets u
      have hu : u.Canon := .setThread h (show Thread.Canon t from State.Canon.thread h e)
      split
      next snd e₂ =>
        split
        · exact h
        · exact .setThread hu (show Thread.Canon snd from State.Canon.peer hu e₂)
      · exact h
    · exact h

theorem execWaitSig_canon (h : s.Canon) : OnNext State.Canon (execWaitSig s) :=
  h.chunkNext (h.chunkWait (fun _ hu => hu) (fun _ hu => hu))

theorem execWaitArm_canon (h : s.Canon) : OnNext State.Canon (execWaitArm s) := by
  unfold execWaitArm
  extract_lets
  refine h.chunkNext ?_
  split
  · trivial
  · exact h.chunkWait (fun _ hu => hu) (fun _ hu => hu)

theorem execFencec_canon (h : s.Canon) : OnNext State.Canon (execFencec s) :=
  h.chunkNext (h.chunkWait (fun _ hu => hu) (fun _ hu => hu))

theorem execHalt_canon (h : s.Canon) : OnNext State.Canon (execHalt s) := by
  unfold execHalt
  split
  · extract_lets src u
    have hsrc : src.Canon := h.thr
    have hu : u.Canon := h.setThr hsrc
    split
    · exact hu.retryPushes.tryDecide
    · exact hu
  · exact h.chunkNext (h.boundWait (fun _ hu => hu))

theorem execArmred_canon (h : s.Canon) : OnNext State.Canon (execArmred s) := by
  unfold execArmred
  extract_lets t _ _ _ _ _ _ _ _ _ _ src u
  have ht : t.Canon := h.thr
  have hsrc : src.Canon := ht.put
  have hu : u.Canon := h.setThr hsrc
  refine h.chunkNext ?_
  split
  · trivial
  split
  · trivial
  split
  · trivial
  show State.Canon _
  split
  · exact hu.retryPushes
  · exact hu

theorem State.Canon.seqReads {t l} (h : s.Canon) : (s.seqReads t l).1.Canon := by
  induction l generalizing s with
  | nil => exact h
  | cons k r ih =>
    unfold State.seqReads
    split
    · exact h.countError
    · exact ih h.correctAt

/-- A member's transfer: both the state in which it may fault and the one that it leaves. -/
theorem State.Canon.moveMember {i k land} {r : State × Except ChunkStop State} (h : s.Canon) (e : s.moveMember i k land = some r) :
    r.1.Canon ∧ OnOk State.Canon r.2 := by
  have key : OnSome (fun r : State × Except ChunkStop State => r.1.Canon ∧ OnOk State.Canon r.2) (s.moveMember i k land) := by
    unfold State.moveMember
    extract_lets a off n acc
    split
    · trivial
    split
    · trivial
    split
    next g t _ _ =>
      split
      · trivial
      extract_lets lo
      split
      · split
        · exact ⟨h, trivial⟩
        · have hu : State.Canon ((linesOf lo n).foldl (fun u l => u.captureLine t l) s) :=
            List.foldlRecOn _ _ h fun _ hv _ _ => hv.captureLine
          exact ⟨h, hu.setTile hu.tile.writeBytes⟩
      · split
        next u e₁ => exact ⟨h.seqReads.of_fst e₁, trivial⟩
        next u e₁ =>
          have hu : u.Canon := h.seqReads.of_fst e₁
          split
          · exact ⟨hu, trivial⟩
          · exact ⟨hu, hu.setThr hu.thr.put⟩
    · trivial
  exact key.of_eq e

theorem State.Canon.xfer {land many} (h : s.Canon) : OnNext State.Canon (s.xfer land many) := by
  unfold State.xfer
  split
  · exact h
  split
  · split
    · exact h.chunkNext (h.chunkWait (fun _ hu => hu) (fun _ hu => hu))
    split
    · exact h
    next w _ e =>
      obtain ⟨hw, -⟩ := h.moveMember e
      exact hw.chunkNext trivial
    next u e =>
      obtain ⟨-, hu⟩ := h.moveMember e
      extract_lets _ v
      have hv : v.Canon := State.Canon.setThr hu (State.Canon.thr hu)
      split
      · exact h.chunkNext (hv.chunkWait (fun _ hu₁ => hu₁) (fun _ hu₁ => hu₁))
      · exact hv
  · extract_lets _ src u src₁
    have hsrc : src.Canon := h.thr
    have hu : u.Canon := h.setThr hsrc
    have hsrc₁ : src₁.Canon := hu.thr
    split
    · exact h.chunkNext trivial
    split
    · exact h.chunkNext (h.chunkWait (fun _ hu₁ => hu₁) (fun _ hu₁ => hu₁))
    split
    · exact hu.setThr hsrc₁
    · exact h.chunkEnd hu (hu.chunkWait (fun _ hu₁ => hu₁) (fun _ hu₁ => hu₁))

theorem execGather_canon (h : s.Canon) : OnNext State.Canon (execGather s) := h.xfer
theorem execDeliver_canon (h : s.Canon) : OnNext State.Canon (execDeliver s) := h.xfer
theorem execMcast_canon (h : s.Canon) : OnNext State.Canon (execMcast s) := h.xfer

theorem chunkRetest_canon {i} (h : s.Canon) : OnNext State.Canon (chunkRetest i s) := by
  unfold chunkRetest
  split
  · exact execSend_canon h
  · exact execRecv_canon h
  · exact execWaitSig_canon h
  · exact execWaitArm_canon h
  · exact execGather_canon h
  · exact execDeliver_canon h
  · exact execMcast_canon h
  · exact execSignal_canon h
  · exact execHalt_canon h
  · exact execFencec_canon h
  · exact h

theorem State.Canon.focusThread (h : s.Canon) : s.focusThread.Canon := h

theorem execChunkWaitMet_canon (h : s.Canon) : OnNext State.Canon (execChunkWaitMet s) := by
  unfold execChunkWaitMet
  extract_lets u
  have hu : u.Canon := h.focusThread
  split
  · exact chunkRetest_canon hu
  · exact h

theorem execChunkWaitExpiry_canon (h : s.Canon) : OnNext State.Canon (execChunkWaitExpiry s) := by
  unfold execChunkWaitExpiry
  extract_lets u t t₁
  have hu : u.Canon := h.focusThread
  have ht : t.Canon := by
    unfold t
    split
    · exact hu.thr.leaveRecv
    · exact hu.thr
  have ht₁ : t₁.Canon := ht.setG.setG
  split
  · exact h
  split
  · exact h
  split
  · exact chunkRetest_canon hu
  split
  · exact hu.threadFault
  · exact hu.setThr ht₁.goTo

theorem execChunkBoundExpiry_canon (h : s.Canon) : OnNext State.Canon (execChunkBoundExpiry s) := by
  unfold execChunkBoundExpiry
  split
  · extract_lets u
    have hu : u.Canon := h.focusThread
    split
    · exact h
    split
    · exact h
    split
    · exact chunkRetest_canon hu
    · exact hu.threadFault
  · split
    · exact h
    split
    · exact show State.Canon _ from h.faultInst.collFault.send
    · exact h

theorem execThreadStart_canon (h : s.Canon) : OnNext State.Canon (execThreadStart s) := by
  unfold execThreadStart
  extract_lets
  split
  · extract_lets _ _ _ _ _ u
    have hu : u.Canon := h.setThread rfl
    split
    · exact h
    · exact hu
  · exact h

theorem execAbortToken_canon (h : s.Canon) : OnNext State.Canon (execAbortToken s) := by
  unfold execAbortToken
  split
  · extract_lets u
    have hu : u.Canon := h
    split
    · exact hu.stopInstances.demandDecision
    · exact hu
  · exact h

end Sys2Proof.Machine
end

section
/-! The supervisor's operations, and the dumps. -/
namespace Sys2Proof.Machine
variable {s : State}

theorem State.Canon.readSpan {m a n} (h : s.Canon) : (s.readSpan m a n).1.Canon := by
  refine List.foldlRecOn (motive := fun r : State × List Byte × Bool => r.1.Canon) _ _ h fun _ hr _ _ => ?_
  extract_lets lo hi q
  have hq : q.1.Canon := hr.readPhys
  exact hq

theorem ctxOfBlock_canon {m owner l} : (ctxOfBlock m owner l).Canon := ⟨.nil, .nil⟩
theorem State.Canon.bindCluster {k c} (h : s.Canon) : (s.bindCluster k c).Canon := h.setCluster h.cluster

theorem State.Canon.unbindCluster {k} (h : s.Canon) : (s.unbindCluster k).Canon := by
  unfold State.unbindCluster
  extract_lets x u u₁
  have hx : x.Canon := h.cluster
  have hu : u.Canon := h.setCluster hx
  have hu₁ : u₁.Canon := List.foldlRecOn _ _ hu fun _ hv _ _ => hv.setTile hv.tile
  split
  · exact hu
  split
  · split
    · exact hu₁.setCtx hu₁.ctx
    · exact hu₁
  · exact hu₁

theorem State.Canon.mapCluster {c v k} (h : s.Canon) : (s.mapCluster c v k).Canon := by
  unfold State.mapCluster
  extract_lets x s₁ s₂ src s₃
  have hx : x.Canon := h.ctx
  have hs₁ : s₁.Canon := h.setCtx hx
  have hs₂ : s₂.Canon := by
    unfold s₂
    split
    · split
      · exact hs₁.setCluster hs₁.cluster
      · exact hs₁
    · exact hs₁
  have hsrc : src.Canon := hs₂.cluster
  have hs₃ : s₃.Canon := hs₂.setCluster hsrc
  exact List.foldlRecOn _ _ hs₃ fun _ hu _ _ => hu.setTile hu.tile

theorem State.Canon.dropCached {c va scope} (h : s.Canon) : (s.dropCached c va scope).Canon := by
  unfold State.dropCached
  refine ⟨h.tiles, h.clusters.map ?_, h.mods, h.ctxs⟩
  exact fun _ h₁ => h₁

theorem State.Canon.invalidate {c va scope} (h : s.Canon) : (s.invalidate c va scope).Canon := by
  unfold State.invalidate
  extract_lets _ _ clean src
  have hclean : ∀ (m : Nat) (md : Module), md.Canon → (clean m md).Canon := by
    unfold clean
    intro _ _ hmd₁
    split <;> exact hmd₁
  have hsrc : src.Canon := h.dropCached
  refine ⟨hsrc.tiles, hsrc.clusters, h.mods.map (fun e₁ h₁ => hclean _ _ ?_), hsrc.ctxs⟩
  exact h₁

theorem State.Canon.setGroup {c g members} (h : s.Canon) : (s.setGroup c g members).Canon := by
  unfold State.setGroup
  extract_lets x s₁
  have hx : x.Canon := h.ctx
  have hs₁ : s₁.Canon := h.setCtx hx
  refine List.foldlRecOn _ _ hs₁ fun u hu v _ => ?_
  split
  · exact hu.setTile hu.tile
  · exact hu

theorem State.Canon.groupBitmap {args} (h : s.Canon) : (s.groupBitmap args).1.Canon := h.readSpan
theorem State.Canon.storeCode {k l} (h : s.Canon) : (s.storeCode k l).Canon := h.setCluster (Memory.wf_writeBytes _ _ _ rfl)
theorem State.Canon.spoilCode {k} (h : s.Canon) : (s.spoilCode k).Canon := h.setCluster (Memory.wf_writeBytes _ _ _ rfl)

theorem Tile.Canon.placeDescs {x : Tile} {dst descs} (hx : x.Canon) : (x.placeDescs dst descs).Canon :=
  List.foldlRecOn _ _ hx fun _ hy _ _ => hy.setDesc

theorem State.Canon.storeLocal {tiles dst l descs} (h : s.Canon) : (s.storeLocal tiles dst l descs).Canon :=
  List.foldlRecOn _ _ h fun _ hu _ _ => hu.setTile hu.tile.writeBytes.placeDescs

theorem State.Canon.forceReg {t n r v} (h : s.Canon) : (s.forceReg t n r v).Canon := by
  unfold State.forceReg
  extract_lets x _ _ put src u src₁ _ _ src₂
  have hx : x.Canon := h.tile
  have hput : ∀ (a : Strand), (put a).Canon := fun _ => h.setTile hx.setStrand
  have hsrc : src.Canon := h.cluster
  have hu : u.Canon := h.setCluster hsrc
  have hsrc₁ : src₁.Canon := hx.window
  have hsrc₂ : src₂.Canon := hx.setQcfg
  split
  · exact .setTile h (.setStrand hx)
  · exact hput _
  · exact hput _
  · exact hput _
  · exact hput _
  · exact hput _
  · exact h.setTile hx
  · exact hput _
  · exact hput _
  · exact h.setTile hx
  · exact hput _
  · exact hput _
  · exact hput _
  · exact hput _
  · exact hput _
  · exact hu.setTile hx.setStrand
  · split
    · exact h.setCtx h.ctx
    · exact h
  · exact h.setTile hx
  · exact h.setTile hx
  · exact h.setTile hx
  · exact h.setTile hsrc₁
  · split
    · exact h.setTile hsrc₂
    split
    · exact h.setTile hx
    · exact getD_keeps h (fun _ e₂₃ => h.writeReg e₂₃)

theorem State.Canon.storeReg {tiles r strands v} (h : s.Canon) : (s.storeReg tiles r strands v).Canon := by
  unfold State.storeReg
  refine List.foldlRecOn _ _ h fun u hu t _ => ?_
  split
  · exact hu.forceReg
  split
  · exact hu
  · exact List.foldlRecOn _ _ hu fun _ hw _ _ => hw.forceReg

theorem State.Canon.storeChunk {m first l} (h : s.Canon) : (s.storeChunk m first l).Canon := h.setMod h.mod
theorem Tile.Canon.start {x : Tile} {c : Ctx} {low} (hx : x.Canon) : (x.start c low).Canon := hx

theorem State.Canon.keepStart {c} (h : s.Canon) : (s.keepStart c).Canon := by
  unfold State.keepStart
  extract_lets
  split
  · exact h
  refine h.setCtx ⟨List.foldlRecOn _ _ .nil fun _ hm _ _ => hm.set h.tile, List.foldlRecOn _ _ .nil fun m hm v _ => ?_⟩
  split
  · exact hm.set h.cluster
  · exact hm

theorem State.Canon.startLaunchCtx {c} (h : s.Canon) : (s.startLaunchCtx c).Canon := by
  unfold State.startLaunchCtx
  extract_lets s₁ _ x _ s₂ s₃
  have hs₁ : s₁.Canon := h.keepStart
  have hx : x.Canon := hs₁.ctx
  have hs₂ : s₂.Canon := hs₁.setCtx hx
  have hs₃ : s₃.Canon := List.foldlRecOn _ _ hs₂ fun _ hu _ _ => hu.setCluster hu.cluster
  exact List.foldlRecOn _ _ hs₃ fun _ hu _ _ => hu.setTile hu.tile.start

theorem State.Canon.readList {t e} (h : s.Canon) : (s.readList t e).Canon := by
  unfold State.readList
  split
  next e₁ => exact (h.engineReads.of_fst e₁).endEng
  next e₁ =>
    extract_lets x₁
    have hx₁ : x₁.Canon := (h.engineReads.of_fst e₁).tile
    exact .setTile (State.Canon.of_fst (.engineReads h) e₁) (.unlock hx₁)

theorem State.Canon.readLists {t} (h : s.Canon) : (s.readLists t).Canon := List.foldlRecOn _ _ h fun _ hu _ _ => hu.readList
theorem Tile.Canon.resume {x : Tile} {go low} (hx : x.Canon) : (x.resume go low).Canon := hx

theorem State.Canon.unparkTransfers {c} (h : s.Canon) : (s.unparkTransfers c).Canon := by
  refine ⟨h.tiles, h.clusters, SMap.Each.map h.mods fun e he => ?_, h.ctxs⟩
  refine ⟨he.mem, he.mbox, he.staging, SMap.Each.map he.threads fun t ht => ?_⟩
  show Thread.Canon (if _ then _ else _)
  split_ifs <;> exact ht

theorem State.Canon.renewPreempt {c} (h : s.Canon) : (s.renewPreempt c).Canon := by
  unfold State.renewPreempt
  extract_lets x
  have hx : x.Canon := h.ctx
  split
  · exact h.setCtx hx
  · exact h

theorem State.Canon.resumeCtx {c num} (h : s.Canon) : (s.resumeCtx c num).1.Canon := by
  unfold State.resumeCtx
  extract_lets _ _ x _ _ _ s₁ s₂ s₃ s₄ src s₅ s₆ s₇
  have hx : x.Canon := h.ctx
  have hs₁ : s₁.Canon := h.setCtx hx
  have hs₂ : s₂.Canon := List.foldlRecOn _ _ hs₁ fun _ hu _ _ => hu.setCluster hu.cluster
  have hs₃ : s₃.Canon := List.foldlRecOn _ _ hs₂ fun _ hu _ _ => hu.setTile hu.tile.resume
  have hs₄ : s₄.Canon := List.foldlRecOn _ _ hs₃ fun _ hu _ _ => hu.readLists
  have hsrc : src.Canon := hs₄.ctx
  have hs₅ : s₅.Canon := hs₄.setCtx hsrc
  have hs₆ : s₆.Canon := hs₅.unparkTransfers
  have hs₇ : s₇.Canon := hs₆.renewPreempt.demandNow
  split
  · exact hs₆.ssnMismatch
  split
  · exact hs₇
  · exact List.foldlRecOn _ _ hs₇ fun _ hu _ _ => hu.formArrival

theorem State.Canon.resumeStrand {t n addr atTpc results l} (h : s.Canon) : (s.resumeStrand t n addr atTpc results l).Canon := by
  unfold State.resumeStrand
  extract_lets _ _ _ pc _ src u _ goOn
  have hsrc : src.Canon := h.setStrand
  have hu : u.Canon := hsrc
  have hgoOn : ∀ (pc : Nat) (q : Vector Word 4 × Landing), (goOn pc q).Canon := by
    unfold goOn
    intro _ _
    split
    · split
      · exact hu.takeTrap
      · exact hu.setMe.arriveAt
    · exact hu.setMe.arriveAt.examine
  split
  · exact h.setStrand
  extract_lets v
  have hv : v.Canon := by
    unfold v
    split
    · exact (hgoOn _ _).afterRetire
    · exact hgoOn _ _
    · exact hu
  exact hv

theorem State.Canon.parkTiles {c} {mine : Nat → Bool} (h : s.Canon) : (s.parkTiles c mine).Canon :=
  List.foldlRecOn _ _ h fun _ hu _ _ => hu.setTile hu.tile

theorem State.Canon.parkAll {c} (h : s.Canon) : (s.parkAll c).Canon := h.parkTiles

theorem Tile.Canon.atLull {x : Tile} (hx : x.Canon) : x.atLull.Canon := by
  unfold Tile.atLull
  extract_lets y y₁
  have hy : y.Canon := List.foldlRecOn _ _ hx fun _ hy₂ _ _ => hy₂.cancelEng
  have hy₁ : y₁.Canon := List.foldlRecOn _ _ hy fun _ hy₂ _ _ => hy₂.unlock
  exact hy₁

theorem State.Canon.reportLull {c} (h : s.Canon) : (s.reportLull c).Canon := by
  unfold State.reportLull
  extract_lets s₁ src
  have hs₁ : s₁.Canon := List.foldlRecOn _ _ h fun _ hu _ _ => hu.setTile hu.tile.atLull
  have hsrc : src.Canon := hs₁.ctx
  exact hs₁.setCtx hsrc

theorem State.Canon.saveImage {t kind a} (h : s.Canon) : (s.saveImage t kind a).Canon := h.imageReads.writeImage.writeOverflow

theorem Tile.Canon.carryOver {x : Tile} {l} (hx : x.Canon) : (x.carryOver l).Canon := by
  unfold Tile.carryOver
  extract_lets _ _ _ _ _ take
  have htake : ∀ (y : Tile) (use : TokUse), y.Canon → (take y use).Canon := fun _ _ hy₁ => hy₁.setStrand
  split
  · exact htake _ _ hx
  · exact htake _ _ hx
  · exact hx

theorem Tile.Canon.fromImage {x : Tile} {mem : Memory} {base free overflow} (hmem : mem.wf = true) :
    (x.fromImage mem base free overflow).Canon := by
  unfold Tile.fromImage
  extract_lets src _ y₁
  have hsrc : src.Canon := Tile.Canon.ofImage hmem
  have hy₁ : y₁.Canon := List.foldlRecOn _ _ hsrc fun _ hy₂ _ _ => hy₂.carryOver
  exact hy₁

theorem State.Canon.restoreImage {t a} (h : s.Canon) : (s.restoreImage t a).Canon := by
  unfold State.restoreImage
  extract_lets _ mem _ _ _ src u src₁
  have hmem : mem.wf = true := h.mod.mem
  have hsrc : src.Canon := h.setTile (Tile.Canon.fromImage hmem)
  have hu : u.Canon := hsrc
  have hsrc₁ : src₁.Canon := hu.ctx
  exact hu.setCtx hsrc₁

theorem State.Canon.moveImage {t dst} (h : s.Canon) : (s.moveImage t dst).Canon :=
  h.imageReads.setTile (Tile.Canon.fromImage h.imageReads.writeImage.mod.mem)

theorem Tile.wiped_canon {x : Tile} : x.wiped.Canon := rfl

theorem State.Canon.wipeCluster {k} (h : s.Canon) : (s.wipeCluster k).Canon := by
  unfold State.wipeCluster
  extract_lets s₁
  have hs₁ : s₁.Canon := List.foldlRecOn _ _ h fun _ hu _ _ => hu.setTile Tile.wiped_canon
  exact hs₁.setCluster rfl

theorem State.Canon.wipePages {m page pages} (h : s.Canon) : (s.wipePages m page pages).Canon :=
  h.setMod ⟨Memory.wf_clear _ _ _ h.mod.mem, h.mod.mbox, h.mod.staging, h.mod.threads⟩

theorem State.Canon.beginScrub {m o} (h : s.Canon) : (s.beginScrub m o).Canon := by
  unfold State.beginScrub
  extract_lets s₁ src
  have hs₁ : s₁.Canon := by
    unfold s₁
    split
    · exact h.setCluster h.cluster
    · exact h
  have hsrc : src.Canon := hs₁.mod
  exact hs₁.setMod hsrc

theorem State.Canon.endScrub {m i} (h : s.Canon) : (s.endScrub m i).Canon := by
  unfold State.endScrub
  split
  · exact h
  extract_lets src s₁
  have hsrc : src.Canon := h.mod
  have hs₁ : s₁.Canon := h.setMod hsrc
  split
  · exact hs₁.wipeCluster.setCluster hs₁.wipeCluster.cluster
  · exact hs₁.wipePages

theorem State.Canon.scrubPage {m i p} (h : s.Canon) : (s.scrubPage m i p).Canon := by
  unfold State.scrubPage
  split
  · exact h
  split
  · exact h
  · exact .wipePages (h.setMod h.mod)

/-- A section of a dump: the bytes of its entry stand below 64, where its body begins. -/
theorem Memory.wf_section {entry : List Byte} {body : Memory} (hl : entry.length ≤ 64) (hb : body.wf = true) :
    Memory.wfFrom 0 (Memory.writeBytes [] 0 entry ++ body.map fun c => (c.1 + 64, c.2)) = true := by
  have hhead : Memory.wfFrom 0 (Memory.writeBytes [] 0 entry) = true := Memory.wf_writeBytes [] 0 entry rfl
  refine Memory.wfFrom_append _ 0 64 _ hhead (fun c hc => ?_) (by omega) ?_
  · have hlt := Memory.cells_lt entry 0 c (by simpa [Memory.writeBytes] using hc)
    omega
  · have hshift := Memory.wfFrom_shiftUp 64 body 0 hb
    simpa only [Nat.add_comm] using hshift

theorem State.Canon.writeDump {kind subject dst limit} {body : Memory} {len header} (h : s.Canon) (hbody : body.wf = true) :
    (s.writeDump kind subject dst limit body len header).Canon := by
  unfold State.writeDump
  extract_lets m _ n status entry section_
  have hentry : entry.length ≤ 64 := by simp [entry, toBytes]
  have hsection : Memory.wf section_ = true := by
    unfold section_
    split
    · rw [List.append_nil]
      exact Memory.wf_writeBytes [] 0 entry rfl
    · exact Memory.wf_section hentry hbody
  exact h.setMod ⟨Memory.wf_blit _ _ _ _ h.mod.mem hsection, h.mod.mbox, h.mod.staging, h.mod.threads⟩

/-- Said once as a lemma: the kernel would otherwise compare what a long read answers with a status. -/
theorem State.Canon.mk_fst {α : Type} {a : α} (h : s.Canon) : (s, a).1.Canon := h

theorem State.Canon.ctxBody {c} (h : s.Canon) : (s.ctxBody c).wf = true := by
  unfold State.ctxBody
  extract_lets _ _ u
  have hu : u.Canon := by
    unfold u
    refine List.foldlRecOn _ _ h fun u₁ hu₁ v _ => ?_
    split
    · exact hu₁.writeImage
    · exact hu₁
  exact Memory.wf_slice _ _ _ hu.mod.mem

theorem State.Canon.beginOp {m i a l} (h : s.Canon) : (s.beginOp m i a l).Canon := by
  unfold State.beginOp
  split
  · exact h.beginScrub
  · exact h.beginScrub
  · exact h.demandDecision
  · exact h.parkAll
  · exact h

theorem State.Canon.opEffect {m o} (h : s.Canon) : (s.opEffect m o).1.Canon := by
  unfold State.opEffect
  extract_lets _ _ _ _ _ read src₁ r r₁ n _ _ src₂ src₃ src₄ _ r₃ _ u _ s₁
  have hread : ∀ (n : Nat), (read n).1.Canon := fun _ => h.readSpan
  have hsrc₁ : src₁.Canon := h.cluster
  have hr : r.1.Canon := h.groupBitmap
  have hr₁ : r₁.1.Canon := hread _
  have hsrc₂ : src₂.Canon := hr₁.storeChunk
  have hsrc₃ : src₃.Canon := h.mod
  have hsrc₄ : src₄.Canon := h.ctx
  have hr₃ : r₃.1.Canon := hread _
  have hu : u.Canon := h.setMod hsrc₃
  have hs₁ : s₁.Canon := by
    unfold s₁
    split
    · exact h
    · exact List.foldlRecOn _ _ h fun _ hu₁ _ _ => hu₁.imageReads
  split
  · exact h.bindCluster
  · exact h.unbindCluster
  · exact h.setCluster hsrc₁
  · exact h.setCluster hsrc₁
  · exact h.mapCluster
  · exact h.invalidate
  · split
    · exact hr
    · exact hr.setGroup
  · split
    · exact hr₁.spoilCode
    · exact hr₁.storeCode
  · split
    · exact List.foldlRecOn _ _ hr₁ fun _ hu₁ _ _ => hu₁.forget
    · exact hr₁.storeLocal
  · exact h.storeReg
  · split
    · exact hsrc₂
    · exact hr₁.storeChunk
  · exact h.setMod hsrc₃
  · exact h.startLaunchCtx
  · exact h.resumeCtx
  · exact h.resumeStrand
  · exact h.setCtx hsrc₄
  · exact h.setCtx hsrc₄
  · exact h.setCtx hsrc₄
  · split
    · exact h.countError
    · exact h.saveImage
  · split
    · exact hr₃.mk_fst
    · exact hr₃.restoreImage
  · split
    · exact h.countError
    · exact h.moveImage
  · exact hu.setTile hu.tile.writeBytes
  · exact h.setMod hsrc₃
  · exact h.writeDump (Memory.wf_writeBytes _ _ _ rfl)
  · refine hs₁.writeDump ?_
    split
    · rfl
    · exact hs₁.ctxBody
  · exact h.writeDump (Memory.wf_writeBytes _ _ _ rfl)
  · exact h

theorem State.Canon.startOp {m i} (h : s.Canon) : (s.startOp m i).Canon := by
  unfold State.startOp
  split
  · split
    · exact .beginOp (h.setMod h.mod)
    · exact h
  · exact h

theorem State.Canon.endOp {m i o status} (h : s.Canon) : (s.endOp m i o status).Canon := by
  unfold State.endOp
  extract_lets src s₁
  have hsrc : src.Canon := h.mod
  have hs₁ : s₁.Canon := h.setMod hsrc
  exact hs₁.setStrand

theorem execSupervisorOpComplete_canon (h : s.Canon) : OnNext State.Canon (execSupervisorOpComplete s) := by
  unfold execSupervisorOpComplete
  extract_lets
  split
  · exact h
  split
  · show State.Canon _
    split
    · exact h
    · exact h.endOp
  · split
    · exact h
    extract_lets _ r
    have hr : r.1.Canon := h.opEffect
    split
    · exact h.endOp
    split
    · exact h.endOp
    split
    · exact h.startOp
    · exact hr.endOp

theorem State.Canon.supBlock {b n} (h : s.Canon) : OnOk (fun a => a.1.Canon) (s.supBlock b n) := by
  unfold State.supBlock
  split
  · exact h
  extract_lets
  split
  · trivial
  split
  · trivial
  · exact OnOk.map h.readLines fun _ ht => ht

theorem State.Canon.supIssue {i d a b k} (h : s.Canon) : OnNext State.Canon (s.supIssue i d a b k) := by
  unfold State.supIssue
  extract_lets
  refine h.finishSeq ?_
  split
  · trivial
  split
  · trivial
  refine OnOk.bind_fst h.supBlock fun r hr => ?_
  extract_lets _ _ _ _ _ _ _ t₁ src₁
  have ht₁ : t₁.Canon := hr.setS.setTok
  have hsrc₁ : src₁.Canon := ht₁.mod
  split
  · exact hr.setS
  · exact .startOp (ht₁.setMod hsrc₁)

theorem execLaunch_canon {d a b k} (h : s.Canon) : OnNext State.Canon (execLaunch d a b k s) := by
  unfold execLaunch
  extract_lets
  refine h.finishSeq ?_
  split
  · trivial
  split
  · trivial
  refine OnOk.bind_fst h.supBlock fun r hr => ?_
  extract_lets
  split
  · split
    · exact hr.setS
    extract_lets u
    have hu : u.Canon := hr.setCtx ctxOfBlock_canon
    exact hu.setS.setTok
  · exact hr.setS

theorem execEventDelivery_canon (h : s.Canon) : OnNext State.Canon (execEventDelivery s) := by
  unfold execEventDelivery
  extract_lets
  split
  · exact h
  split
  next e₂ => exact (h.deliverEvent e₂).setMod (h.deliverEvent e₂).mod
  · exact h

theorem execPlimExpiry_canon (h : s.Canon) : OnNext State.Canon (execPlimExpiry s) := by
  unfold execPlimExpiry
  extract_lets
  split
  · split
    · exact h.demandDecision
    · exact h
  · exact h

theorem execScrubRestart_canon (h : s.Canon) : OnNext State.Canon (execScrubRestart s) := by
  unfold execScrubRestart
  extract_lets _ src
  have hsrc : src.Canon := h.mod
  split
  · split
    · exact h.setMod hsrc
    · exact h
  · exact h

end Sys2Proof.Machine
end

section
/-! Bring-up, trace and the debug port. -/
namespace Sys2Proof.Machine
variable {s : State}

theorem State.Canon.bootTile {m j code} (h : s.Canon) : (s.bootTile m j code).Canon := by
  unfold State.bootTile
  extract_lets _ _ s₁ src₁
  have hs₁ : s₁.Canon := h.setCluster (Memory.wf_writeBytes _ _ _ rfl)
  have hsrc₁ : src₁.Canon := hs₁.tile
  exact hs₁.setTile hsrc₁

theorem State.Canon.clearModule {m} (h : s.Canon) : (s.clearModule m).Canon := by
  unfold State.clearModule
  extract_lets _ _ s₁ s₂ md kept _ _ wipe
  have hs₁ : s₁.Canon := List.foldlRecOn _ _ (List.foldlRecOn _ _ h fun _ hu _ _ => hu.unbindCluster) fun _ hu _ _ => hu.tellDeps
  have hs₂ : s₂.Canon := by
    unfold s₂
    refine ⟨hs₁.tiles, hs₁.clusters, hs₁.mods.map ?_, hs₁.ctxs⟩
    exact fun _ h₁ => h₁
  have hmd : md.Canon := hs₂.mod
  have hkept : kept.Canon := ⟨hmd.mem, rfl, rfl, .nil⟩
  have hwipe : ∀ (e : Nat × Cluster), e.2.Canon → (wipe e).2.Canon := by
    unfold wipe
    intro _ h₁
    split
    · rfl
    · exact h₁
  refine ⟨hs₂.tiles.filter, hs₂.clusters.map (fun e₁ h₁ => hwipe _ ?_), hs₂.mods.set hkept, hs₂.ctxs.filter⟩
  exact h₁

theorem State.Canon.boot {m strap} (h : s.Canon) : (s.boot m strap).Canon := by
  unfold State.boot
  extract_lets md
  have hmd : md.Canon := h.mod
  split
  · exact h.setMod hmd
  · exact List.foldlRecOn _ _ (h.setMod hmd) fun _ hu _ _ => hu.bootTile

theorem State.Canon.resetModule {m strap} (h : s.Canon) : (s.resetModule m strap).Canon := by
  unfold State.resetModule
  extract_lets u src
  have hu : u.Canon := h.clearModule
  have hsrc : src.Canon := hu.mod
  exact .boot (hu.setMod hsrc)

theorem execModuleReset_canon (h : s.Canon) : OnNext State.Canon (execModuleReset s) := h.resetModule

theorem State.Canon.loseTiles {k} (h : s.Canon) : (s.loseTiles k).Canon := by
  unfold State.loseTiles
  extract_lets s₁
  have hs₁ : s₁.Canon := List.foldlRecOn _ _ h fun _ hu _ _ => ⟨hu.tiles.del, hu.clusters, hu.mods, hu.ctxs⟩
  exact hs₁.setCluster rfl

theorem State.Canon.islandDown {m i} (h : s.Canon) : (s.islandDown m i).Canon := by
  unfold State.islandDown
  extract_lets s₁ _ _ md _ s₂ s₃
  have hs₁ : s₁.Canon := List.foldlRecOn _ _ h fun _ hu _ _ => hu.loseTiles.setCluster hu.loseTiles.cluster
  have hmd : md.Canon := hs₁.mod.setIsland
  have hs₂ : s₂.Canon := .setMod hs₁ hmd
  have hs₃ : s₃.Canon := by
    unfold s₃
    refine ⟨hs₂.tiles, hs₂.clusters, hs₂.mods, hs₂.ctxs.map ?_⟩
    intro _ h₁
    split <;> exact h₁
  exact hs₃.moduleEvent

theorem execIslandPowerLoss_canon (h : s.Canon) : OnNext State.Canon (execIslandPowerLoss s) := by
  unfold execIslandPowerLoss
  split
  · exact h
  · exact h.islandDown

theorem execThermalThrottle_canon (h : s.Canon) : OnNext State.Canon (execThermalThrottle s) := by
  unfold execThermalThrottle
  extract_lets _ _ _ _ _ _ u
  have hu : u.Canon := h.setMod h.mod.setIsland
  split
  · exact hu.moduleEvent
  · exact h.setMod h.mod.setIsland

theorem execThermalRecover_canon (h : s.Canon) : OnNext State.Canon (execThermalRecover s) :=
  show State.Canon _ from h.setMod h.mod.setIsland

theorem execThermalShutdown_canon (h : s.Canon) : OnNext State.Canon (execThermalShutdown s) := by
  unfold execThermalShutdown
  extract_lets _ _ _ u
  have hu : u.Canon := h.setMod h.mod.setIsland
  split
  · exact hu.islandDown
  · exact hu

theorem execLowCoolantFlow_canon (h : s.Canon) : OnNext State.Canon (execLowCoolantFlow s) :=
  show State.Canon _ from h.setMod h.mod

theorem Module.Canon.release {md : Module} (hmd : md.Canon) : md.release.Canon := hmd

theorem execCoolantFlowRestored_canon (h : s.Canon) : OnNext State.Canon (execCoolantFlowRestored s) := by
  unfold execCoolantFlowRestored
  extract_lets _ md
  have hmd : md.Canon := h.mod
  show State.Canon _
  split
  · exact h.setMod hmd.release
  · exact h

theorem execIslctlWrite_canon (h : s.Canon) : OnNext State.Canon (execIslctlWrite s) := h.writeIslctl
theorem execHrefWrite_canon (h : s.Canon) : OnNext State.Canon (execHrefWrite s) := h.writeHref

theorem execIslandTransitionDone_canon (h : s.Canon) : OnNext State.Canon (execIslandTransitionDone s) := by
  unfold execIslandTransitionDone
  extract_lets _ _ u
  have hu : u.Canon := h.setMod h.mod.setIsland
  split
  · exact h
  show State.Canon _
  split
  · exact List.foldlRecOn _ _ hu fun _ hv _ _ => hv.loseTiles
  split
  · exact List.foldlRecOn _ _ hu fun _ hv _ _ => hv.setCluster hv.cluster
  · exact hu

theorem State.Canon.bringupEnd {m} (h : s.Canon) : (s.bringupEnd m).Canon := by
  unfold State.bringupEnd
  extract_lets md
  have hmd : md.Canon := h.mod
  split
  · exact h
  split
  · exact h.setMod hmd
  split
  · exact h.setMod hmd
  · exact .notice (h.setMod hmd.release)

theorem State.Canon.failCluster {k} (h : s.Canon) : (s.failCluster k).Canon := h.setCluster h.cluster

theorem execSelfTestComplete_canon (h : s.Canon) : OnNext State.Canon (execSelfTestComplete s) := by
  unfold execSelfTestComplete
  extract_lets _ _ _ _ _ u u₁ u₂ md _ src u₃ src₁ u₄
  have hu : u.Canon := List.foldlRecOn _ _ h fun _ hu₅ _ _ => hu₅.moduleEvent.notice
  have hu₁ : u₁.Canon := List.foldlRecOn _ _ hu fun _ hv _ _ => hv.setCluster hv.cluster
  have hu₂ : u₂.Canon := List.foldlRecOn _ _ hu₁ fun _ hu₅ _ _ => hu₅.failCluster
  have hmd : md.Canon := hu₂.mod
  have hsrc : src.Canon := hmd.setIsland
  have hu₃ : u₃.Canon := hu₂.setMod hsrc
  have hsrc₁ : src₁.Canon := hu₃.mod
  have hu₄ : u₄.Canon := hu₃.setMod hsrc₁
  split
  · exact h
  · exact hu₄.bringupEnd

theorem execStackTrainingDone_canon (h : s.Canon) : OnNext State.Canon (execStackTrainingDone s) := by
  unfold execStackTrainingDone
  extract_lets _ _ _ u _ _ src v
  have hu : u.Canon := h.setStack
  have hsrc : src.Canon := hu.mod
  have hv : v.Canon := hu.setMod hsrc
  split
  · exact h
  split
  · exact hv.moduleEvent.bringupEnd
  · exact hu.bringupEnd

theorem State.Canon.traceDie {d l} (h : s.Canon) : (s.traceDie d l).Canon := by
  unfold State.traceDie
  extract_lets _ _ _ _ _ _ _ _ _ _ _ _ src
  have hsrc : src.Canon := h.cluster
  split
  · exact h.setDie.setCluster hsrc
  · exact h

theorem State.Canon.traceAll {l} (h : s.Canon) : (s.traceAll l).Canon := by
  unfold State.traceAll
  split
  · exact h
  · exact List.foldlRecOn _ _ h fun _ hu _ _ => hu.traceDie

theorem State.Canon.traceCycle {i} (h : s.Canon) : (s.traceCycle i).Canon := h.traceAll
theorem State.Canon.setDbg {t d} (h : s.Canon) : (s.setDbg t d).Canon := h.setTile h.tile

theorem State.Canon.restartClock {t} (h : s.Canon) : (s.restartClock t).Canon := by
  unfold State.restartClock
  split
  · split
    · exact h.setCtx h.ctx
    · exact h
  · exact h

theorem State.Canon.passBreakpoints {t} (h : s.Canon) : (s.passBreakpoints t).Canon := h.setTile h.tile

theorem State.Canon.debugHalt {t} (h : s.Canon) : (s.debugHalt t).Canon := by
  unfold State.debugHalt
  split
  · exact h
  · exact h.haltTile

theorem State.Canon.debugResume {t} (h : s.Canon) : (s.debugResume t).Canon := by
  unfold State.debugResume
  extract_lets x _ _ s₁ s₂
  have hx : x.Canon := h.tile
  have hs₁ : s₁.Canon := h.setTile hx
  have hs₂ : s₂.Canon := by
    unfold s₂
    split
    · exact hs₁.runDecision
    · exact hs₁
  split
  · exact h
  · exact hs₂.placeWithheld.restartClock.formArrival.passBreakpoints

theorem State.Canon.debugStep {t mask} (h : s.Canon) : (s.debugStep t mask).Canon := by
  unfold State.debugStep
  extract_lets x
  have hx : x.Canon := h.tile
  split
  · exact h
  · exact .restartClock (h.setTile hx)

theorem State.Canon.dctlFields {t v} (h : s.Canon) : (s.dctlFields t v).Canon := h.setDbg

theorem State.Canon.accessReg {t i n w} {u : State} (h : s.Canon) (e : s.accessReg t n i w = some u) : u.Canon := by
  unfold State.accessReg at e
  split at e
  · cases e
  split at e
  · cases e
    exact State.Canon.setTile h (Tile.Canon.setStrand h.tile)
  split at e
  · exact h.writeReg e
  · cases e

theorem State.Canon.accessWrite {t v w} (h : s.Canon) : (s.accessWrite t v w).1.Canon := by
  unfold State.accessWrite
  extract_lets x _ _ _ put
  have hx : x.Canon := h.tile
  have hput : ∀ (y : Strand), (put y).1.Canon := fun _ => h.setTile hx.setStrand
  split
  · split
    · split
      · exact h
      · exact hput _
    · exact h
  · split
    · exact hput _
    · exact h
  · split
    · split
      · exact h
      · exact hput _
    · exact h
  · split
    · exact hput _
    · exact h
  · split
    next e₂ => exact h.accessReg e₂
    · exact h
  · split
    · exact h
    split
    · exact h
    split
    · exact h
    · exact h.setTile hx.touchAcc.setAcc
  · split
    · exact h
    · exact hput _
  · split
    · exact h
    split
    · exact h
    · exact h.setTile hx.storeBytes
  · split
    · exact h.setTile hx
    · exact h
  · exact hput _
  · exact h

theorem State.Canon.command {t v} (h : s.Canon) : (s.command t v).Canon := h.setDbg
theorem State.Canon.endAccess {t st data} (h : s.Canon) : (s.endAccess t st data).Canon := h.setDbg

theorem State.Canon.debugRead {t v} (h : s.Canon) : (s.debugRead t v).Canon := by
  unfold State.debugRead
  extract_lets s₁
  have hs₁ : s₁.Canon := h.command
  split
  · exact hs₁.endAccess
  split
  · exact hs₁.endAccess
  · split <;> exact hs₁.endAccess

theorem State.Canon.debugWrite {t v} (h : s.Canon) : (s.debugWrite t v).Canon := by
  unfold State.debugWrite
  extract_lets s₁ r
  have hs₁ : s₁.Canon := h.command
  have hr : r.1.Canon := hs₁.accessWrite
  split
  · exact hs₁.endAccess
  split
  · exact hs₁.endAccess
  · exact hr.endAccess

theorem State.Canon.debugWait {t v} (h : s.Canon) : (s.debugWait t v).Canon := by
  unfold State.debugWait
  extract_lets s₁
  have hs₁ : s₁.Canon := h.command
  split
  · exact hs₁.endAccess
  split
  · exact hs₁.endAccess
  split
  · exact hs₁.setDbg
  · exact hs₁.endAccess

theorem State.Canon.writeBtctl {t v} (h : s.Canon) : (s.writeBtctl t v).Canon := by
  unfold State.writeBtctl
  extract_lets _ s₁
  have hs₁ : s₁.Canon := by
    unfold s₁
    split
    · exact h.branchFlush
    · exact h
  exact hs₁.setDbg

theorem State.Canon.writeItctl {t v} (h : s.Canon) : (s.writeItctl t v).Canon := h.setDie.setCluster h.cluster
theorem State.Canon.writeDropd {t v} (h : s.Canon) : (s.writeDropd t v).Canon := h.setDbg

theorem State.Canon.writePlain {t r v} (h : s.Canon) : (s.writePlain t r v).Canon := by
  unfold State.writePlain
  extract_lets
  split
  · exact h.dctlFields
  · exact h.setDbg
  · exact h.setDbg
  · exact h.setDbg
  · exact h.setDbg
  · split
    · exact h.setDie
    · exact h
  · split
    · exact h.setDbg
    split
    · exact h.setDbg
    split
    · exact h.setDbg
    · exact h

theorem State.Canon.portWrite {t r v} (h : s.Canon) : (s.portWrite t r v).Canon := by
  unfold State.portWrite
  split
  · split
    · exact h.debugRead
    · exact h.debugWrite
    · exact h.debugWait
    split
    · exact h.command.endAccess
    · exact h.command
  · split
    · exact h
    split
    · extract_lets u
      have hu : u.Canon := h.dctlFields
      split
      · exact hu.debugHalt
      split
      · exact hu.debugResume
      split
      · exact hu
      · exact hu.debugStep
    · exact h.writeDropd
    · exact h.writeBtctl
    · split
      · exact h.writeItctl
      · exact h
    · exact h.writePlain

theorem execDctlHalt_canon (h : s.Canon) : OnNext State.Canon (execDctlHalt s) := by
  unfold execDctlHalt
  show State.Canon _
  split
  · exact h.dctlFields.debugHalt
  · exact h

theorem execDctlResume_canon (h : s.Canon) : OnNext State.Canon (execDctlResume s) := by
  unfold execDctlResume
  show State.Canon _
  split
  · exact h.dctlFields.debugResume
  · exact h

theorem execDctlStep_canon (h : s.Canon) : OnNext State.Canon (execDctlStep s) := by
  unfold execDctlStep
  show State.Canon _
  split
  · exact h.dctlFields.debugStep
  · exact h

theorem execHaltRequest_canon (h : s.Canon) : OnNext State.Canon (execHaltRequest s) := by
  unfold execHaltRequest
  split
  · extract_lets u
    have hu : u.Canon := h
    show State.Canon _
    split
    · exact hu.haltTile
    · exact hu
  · exact h

theorem execDaccRead_canon (h : s.Canon) : OnNext State.Canon (execDaccRead s) := by
  unfold execDaccRead
  show State.Canon _
  split
  · exact h
  · exact h.debugRead

theorem execDaccWrite_canon (h : s.Canon) : OnNext State.Canon (execDaccWrite s) := by
  unfold execDaccWrite
  show State.Canon _
  split
  · exact h
  · exact h.debugWrite

theorem execDaccWaitToken_canon (h : s.Canon) : OnNext State.Canon (execDaccWaitToken s) := by
  unfold execDaccWaitToken
  extract_lets
  split
  · exact h
  split
  · exact h.debugWait
  split
  · exact h.endAccess
  · exact h

theorem execDaccWaitTimeout_canon (h : s.Canon) : OnNext State.Canon (execDaccWaitTimeout s) := by
  unfold execDaccWaitTimeout
  extract_lets
  split
  · split
    · exact h
    · exact h.endAccess
  · exact h

theorem execDropdWrite_canon (h : s.Canon) : OnNext State.Canon (execDropdWrite s) := by
  unfold execDropdWrite
  show State.Canon _
  split
  · exact h.writeDropd
  · exact h

theorem execItctlWrite_canon (h : s.Canon) : OnNext State.Canon (execItctlWrite s) := by
  unfold execItctlWrite
  show State.Canon _
  split
  · exact h.writeItctl
  · exact h

theorem execBtctlWrite_canon (h : s.Canon) : OnNext State.Canon (execBtctlWrite s) := by
  unfold execBtctlWrite
  show State.Canon _
  split
  · exact h.writeBtctl
  · exact h

theorem execIssueTraceStop_canon (h : s.Canon) : OnNext State.Canon (execIssueTraceStop s) := by
  unfold execIssueTraceStop
  extract_lets
  show State.Canon _
  split
  · exact h.setDie
  · exact h

theorem execRegisterWrite_canon (h : s.Canon) : OnNext State.Canon (execRegisterWrite s) := by
  unfold execRegisterWrite
  extract_lets
  show State.Canon _
  split
  · exact getD_keeps h (fun _ e₁ => h.writeSup e₁)
  split
  · exact h.writePlain
  · exact h

theorem execContextClockStop_canon (h : s.Canon) : OnNext State.Canon (execContextClockStop s) := by
  unfold execContextClockStop
  extract_lets _ src
  have hsrc : src.Canon := h.ctx
  show State.Canon _
  split
  · exact h.setCtx hsrc
  · exact h

theorem execEgressQueueChange_canon (h : s.Canon) : OnNext State.Canon (execEgressQueueChange s) := by
  unfold execEgressQueueChange
  extract_lets _ x _ u
  have hx : x.Canon := h.ctx
  have hu : u.Canon := h.setCtx hx
  split
  · exact h
  · exact show State.Canon _ from List.foldlRecOn _ _ hu fun _ hv _ _ => hv.setTile hv.tile

end Sys2Proof.Machine
end

section
/-! The host's requests, routes and reliability: a launch places a page-table image counted from its root (R492). -/
namespace Sys2Proof.Machine
variable {s : State}

theorem State.Canon.countHref {m} (h : s.Canon) : (s.countHref m).Canon := h.setMod h.mod
theorem State.Canon.refuseHost {m} (h : s.Canon) : (s.refuseHost m).Canon := h.setMod h.mod
theorem State.Canon.hostAccess {m} (h : s.Canon) : (s.hostAccess m).Canon := h.setMod h.mod

theorem State.Canon.hostLeaf {c va} (h : s.Canon) : (s.hostLeaf c va).1.Canon := by
  unfold State.hostLeaf
  split
  next e => exact h.walkAny.of_fst e
  next e => exact h.walkAny.of_fst e

theorem State.Canon.windowPart {c va n} (h : s.Canon) : (s.windowPart c va n).1.Canon := by
  unfold State.windowPart
  split
  next e => exact h.hostLeaf.of_fst e
  next e => exact (h.hostLeaf.of_fst e).readPhys

theorem State.Canon.windowRead {c va n} (h : s.Canon) : (s.windowRead c va n).1.Canon :=
  List.foldlRecOn (motive := fun r : State × List Byte => r.1.Canon) _ _ h fun _ hr _ _ => hr.windowPart

theorem State.Canon.hostRead {m a n} (h : s.Canon) : (s.hostRead m a n).1.Canon := by
  unfold State.hostRead
  split
  · exact h
  · exact h
  · exact h
  · exact h
  · exact h
  · split
    · exact h.windowRead
    · exact h.refuseHost
  · exact h.refuseHost

theorem execHostRead_canon (h : s.Canon) : OnNext State.Canon (execHostRead s) := by
  unfold execHostRead
  extract_lets _ r src
  have hr : r.1.Canon := h.hostAccess.hostRead
  have hsrc : src.Canon := hr.mod
  split
  · exact h
  · exact hr.setMod hsrc

theorem State.Canon.attachWrite {m o l} (h : s.Canon) : (s.attachWrite m o l).Canon := by
  unfold State.attachWrite
  split
  · exact h
  split
  · exact h.writeHref
  split
  · exact h.setMod h.mod
  · exact h

theorem State.Canon.hostWrite {m a l} (h : s.Canon) : (s.hostWrite m a l).Canon := by
  generalize e : s.hostWrite m a l = u
  unfold State.hostWrite at e
  extract_lets md at e
  have hmd : md.Canon := h.mod
  split at e
  · split at e <;> subst e
    · exact h.refuseHost
    · exact h.setMod ⟨hmd.mem, Memory.wf_writeBytes _ _ _ hmd.mbox, hmd.staging, hmd.threads⟩
  · subst e; exact h.attachWrite
  · subst e; exact h
  · subst e; exact h.portWrite
  · subst e; exact h.setMod ⟨hmd.mem, hmd.mbox, Memory.wf_writeBytes _ _ _ hmd.staging, hmd.threads⟩
  · split at e
    · subst e; exact h.refuseHost
    extract_lets x at e
    have hx : x.Canon := h.ctx
    split at e <;> subst e
    · exact h
    · exact h.setCtx hx
  · subst e; exact h.refuseHost

theorem execHostWrite_canon (h : s.Canon) : OnNext State.Canon (execHostWrite s) := by
  unfold execHostWrite
  show State.Canon _
  split
  · exact h
  · exact h.hostAccess.hostWrite

theorem State.Canon.takeRequest {kind} (h : s.Canon) : (s.takeRequest kind).1.Canon := by
  unfold State.takeRequest
  extract_lets _ _ md _ v u
  have hmd : md.Canon := h.mod
  have hv : v.Canon := h.setMod hmd
  have hu : u.Canon := by
    unfold u
    split
    · exact h
    split
    · exact hv
    · exact hv.moduleEvent
  split
  · exact h
  split
  · exact h.countHref
  split
  · exact hu.postResult
  · exact hu

theorem State.Canon.serveRequest {kind} {f : State → Nat → Nat → State} (h : s.Canon)
    (hf : ∀ (u : State) m box, u.Canon → (f u m box).Canon) : OnNext State.Canon (s.serveRequest kind f) := by
  unfold State.serveRequest
  extract_lets r
  have hr : r.1.Canon := h.takeRequest
  show State.Canon _
  split
  · exact hf _ _ _ hr
  · exact hr

theorem State.Canon.ofCtx {f : State → Nat → Nat → Nat → State} {m box} (hf : ∀ (u : State) m box c, u.Canon → (f u m box c).Canon)
    (h : s.Canon) : (State.ofCtx f s m box).Canon := by
  unfold State.ofCtx
  extract_lets
  split
  · exact hf _ _ _ _ h
  · exact h.postResult

theorem State.Canon.hostSync {m box c} (h : s.Canon) : (s.hostSync m box c).Canon := by
  unfold State.hostSync
  extract_lets x
  have hx : x.Canon := h.ctx
  split
  · exact h
  split
  · exact .answerSyncs (h.setCtx hx)
  · exact .send (h.setCtx hx)

theorem execHostSync_canon (h : s.Canon) : OnNext State.Canon (execHostSync s) :=
  h.serveRequest (fun _ _ _ hu => State.Canon.ofCtx (fun _ _ _ _ hu₁ => hu₁.hostSync) hu)

theorem State.Canon.hostRecord {m box c} (h : s.Canon) : (s.hostRecord m box c).Canon := by
  unfold State.hostRecord
  extract_lets
  split
  · exact h.postResult
  split
  · exact h.postResult
  split
  · exact h.postResult
  extract_lets y z
  have hy : y.Canon := h.tile
  have hz : z.Canon := hy.appendRecord
  split
  · exact h.postResult
  split
  · exact h.postResult
  · exact (h.setTile hz).postResult

theorem execRecord_canon (h : s.Canon) : OnNext State.Canon (execRecord s) :=
  h.serveRequest (fun _ _ _ hu => State.Canon.ofCtx (fun _ _ _ _ hu₁ => hu₁.hostRecord) hu)

theorem State.Canon.hostPreempt {m box c} (h : s.Canon) : (s.hostPreempt m box c).Canon := by
  unfold State.hostPreempt
  extract_lets x
  have hx : x.Canon := h.ctx
  split
  · exact h
  split
  · exact h.postResult
  split
  · exact h.postResult
  · exact h.setCtx hx

theorem execPreempt_canon (h : s.Canon) : OnNext State.Canon (execPreempt s) :=
  h.serveRequest (fun _ _ _ hu => State.Canon.ofCtx (fun _ _ _ _ hu₁ => hu₁.hostPreempt) hu)

theorem Ctx.Canon.launchTile {x : Ctx} {y : Tile} (hy : y.Canon) : (x.launchTile y).Canon := by
  unfold Ctx.launchTile
  extract_lets f v sched y₁
  refine List.foldlRecOn (motive := Tile.Canon) _ _ hy fun z hz q _ => ?_
  extract_lets w
  have hw : (z.setQcfg q (qPack (qHead w) (qTail w) (qEn w) (qLog w) (qBase w))).Canon := hz.setQcfg
  exact hw

theorem State.Canon.placeCode {c v k} (h : s.Canon) : (s.placeCode c v k).Canon := by
  unfold State.placeCode
  extract_lets x
  have hx : x.Canon := h.ctx
  split
  · exact h.storeCode
  split
  next store clim e =>
    have hstore : Memory.wf store = true := hx.code.find e
    exact h.setCluster hstore
  · exact h

theorem State.Canon.placeCluster {c v k} (h : s.Canon) : (s.placeCluster c v k).Canon := by
  unfold State.placeCluster
  extract_lets u u₁
  have hu : u.Canon := by
    unfold u
    split
    · exact h
    · exact h.bindCluster
  have hu₁ : u₁.Canon := hu.mapCluster.placeCode
  exact List.foldlRecOn _ _ hu₁ fun _ hw _ _ => hw.setTile (Ctx.Canon.launchTile hw.tile)

theorem State.Canon.placeCtx {c ks} (h : s.Canon) : (s.placeCtx c ks).Canon :=
  List.foldlRecOn _ _ h fun _ hu _ _ => hu.placeCluster

theorem State.Canon.placeLocal {c ks} (h : s.Canon) : (s.placeLocal c ks).Canon :=
  List.foldlRecOn _ _ h fun _ hu _ _ => hu.storeLocal

theorem State.Canon.placeStart {c ks} (h : s.Canon) : (s.placeStart c ks).Canon := by
  unfold State.placeStart
  extract_lets x
  have hx : x.Canon := h.ctx
  split
  · exact h.placeLocal
  refine List.foldlRecOn _ _ h fun u hu t _ => ?_
  extract_lets
  split
  next y₁ e₁ => exact .setTile hu (show Tile.Canon y₁ from hx.tiles.find e₁)
  · exact hu

theorem Memory.le_of_wfFrom {lo} : ∀ {m : Memory}, Memory.wfFrom lo m = true → ∀ c ∈ m, lo ≤ c.1 := by
  intro m
  induction m generalizing lo with
  | nil => exact nofun
  | cons e r ih =>
    intro h c hc
    simp only [Memory.wfFrom, Bool.and_eq_true, decide_eq_true_eq] at h
    obtain rfl | hc := List.mem_cons.mp hc
    · exact h.1.1
    · have := ih h.2 c hc
      omega

theorem Memory.wfFrom_writeBytes {m : Memory} {lo a l} (h : Memory.wfFrom lo m = true) (ha : lo ≤ a) :
    Memory.wfFrom lo (Memory.writeBytes m a l) = true := by
  have hw : Memory.wf (Memory.writeBytes m a l) = true := Memory.wf_writeBytes _ _ _ (Memory.wfFrom_mono (Nat.zero_le lo) m h)
  refine Memory.wfFrom_ge _ 0 lo hw fun c hc => ?_
  simp only [Memory.writeBytes, List.mem_append, List.mem_filter] at hc
  obtain (⟨hc, -⟩ | hc) | ⟨hc, -⟩ := hc
  · exact Memory.le_of_wfFrom h c hc
  · exact ha.trans (Memory.le_of_wfFrom (Memory.wfFrom_cells l a) c hc)
  · exact Memory.le_of_wfFrom h c hc

/-- A page-table image stands at its root, so that no cell of it lies below. -/
theorem rebase_wfFrom {img root} : Memory.wfFrom root (rebase img root) = true := by
  refine List.foldlRecOn (motive := fun m => Memory.wfFrom root m = true) _ _ (Memory.wfFrom_writeBytes rfl le_rfl) fun m hm t _ => ?_
  refine List.foldlRecOn (motive := fun m => Memory.wfFrom root m = true) _ _ hm fun m hm i _ => ?_
  extract_lets o e
  split
  · exact Memory.wfFrom_writeBytes hm (Nat.le_add_right root o)
  · exact hm

/-- The image as a launch places it: counted from its root (R492). -/
theorem rebase_shift_wf {img root} : Memory.wf ((rebase img root).map fun e => (e.1 - root, e.2)) = true := by
  have h := Memory.wfFrom_shiftDown root (rebase img root) root rebase_wfFrom le_rfl
  rwa [Nat.sub_self] at h

theorem State.Canon.copyTables {c ks} (h : s.Canon) : (s.copyTables c ks).Canon :=
  List.foldlRecOn _ _ h fun _ hu _ _ => List.foldlRecOn _ _ hu fun _ hv _ _ => hv.poke

theorem State.Canon.pokeKeyed {m pa kslot l} (h : s.Canon) : (s.pokeKeyed m pa kslot l).Canon := by
  unfold State.pokeKeyed
  split <;> exact h.poke

theorem State.Canon.placeBytes {c va l descs} (h : s.Canon) : (s.placeBytes c va l descs).1.Canon := by
  unfold State.placeBytes
  split
  next e => exact h.walkAny.of_fst e
  next u _ _ e =>
    split
    · exact h.walkAny.of_fst e
    extract_lets _ _ clean u₁
    have hclean : ∀ (u : State) (w : Nat), u.Canon → (clean u w).Canon := by
      unfold clean
      intro _ _ hu₂
      split
      · exact hu₂.cleanLine
      · exact hu₂
    have hu₁ : u₁.Canon := hclean _ _ (h.walkAny.of_fst e).pokeKeyed
    split
    · split
      · exact hu₁
      · exact hclean _ _ hu₁.poke
    · exact hu₁

theorem State.Canon.placeData {c e data descs} (h : s.Canon) : (s.placeData c e data descs).1.Canon := by
  unfold State.placeData
  extract_lets
  refine List.foldlRecOn (motive := fun r : State × Bool => r.1.Canon) _ _ h fun r hr i _ => ?_
  split
  · exact hr
  extract_lets _ a
  have ha : a.1.Canon := hr.placeBytes
  split
  · exact ha
  · exact ha.placeBytes

theorem State.Canon.dependency {m box q} (h : s.Canon) : (s.dependency m box q).1.Canon := by
  unfold State.dependency
  extract_lets _ _ _ src
  have hsrc : src.Canon := h.mod
  split
  · exact h
  split
  · exact h
  · exact h.setMod hsrc

theorem State.Canon.postLaunch {m box code value} (h : s.Canon) : (s.postLaunch m box code value).Canon :=
  h.postResult.setMod h.postResult.mod

theorem State.Canon.launchCtx {m c seq q ks} (h : s.Canon) : (s.launchCtx m c seq q ks).1.Canon := by
  unfold State.launchCtx
  extract_lets src x s₁ s₂ tables s₃ entries r
  have hsrc : src.Canon := ctxOfBlock_canon
  have hs₁ : s₁.Canon := h.setCtx hsrc
  have hs₂ : s₂.Canon := List.foldlRecOn (motive := State.Canon) _ _ hs₁ fun u hu e _ => State.Canon.setMod hu hu.mod
  have hs₃ : s₃.Canon := by
    refine List.foldlRecOn (motive := State.Canon) _ _ hs₂ fun u hu w _ => ?_
    exact hu.setMod ⟨Memory.wf_blit _ _ _ _ hu.mod.mem rebase_shift_wf, hu.mod.mbox, hu.mod.staging, hu.mod.threads⟩
  have hr : r.1.Canon := by
    refine List.foldlRecOn (motive := fun r : State × Bool => r.1.Canon) _ _ hs₃ fun u hu i _ => ?_
    extract_lets d
    split
    · exact hu.placeData
    · exact hu
  exact hr.placeCtx.placeLocal.startLaunchCtx

theorem State.Canon.hostLaunch {m box} (h : s.Canon) : (s.hostLaunch m box).Canon := by
  unfold State.hostLaunch
  extract_lets _ _ d
  have hd : d.1.Canon := h.dependency
  split
  · exact h.postLaunch
  split
  · exact h.postLaunch
  split
  · exact hd.notice.postLaunch
  · split
    · exact hd
    extract_lets r
    have hr : r.1.Canon := hd.launchCtx
    split
    · exact hr.postLaunch
    · exact hd.postLaunch
  · exact hd

theorem execLaunchRequest_canon (h : s.Canon) : OnNext State.Canon (execLaunchRequest s) :=
  h.serveRequest (fun _ _ _ hu => hu.hostLaunch)

theorem State.Canon.putAway {c} (h : s.Canon) : (s.putAway c).Canon := by
  unfold State.putAway
  extract_lets _ s₁ s₂ s₃ src s₄ s₅
  have hs₁ : s₁.Canon := h.reportLull
  have hs₂ : s₂.Canon := List.foldlRecOn _ _ hs₁ fun _ hu _ _ => hu.saveImage
  have hs₃ : s₃.Canon := List.foldlRecOn _ _ hs₂ fun _ hu _ _ => hu.unbindCluster
  have hsrc : src.Canon := hs₃.ctx
  have hs₄ : s₄.Canon := hs₃.setCtx hsrc
  have hs₅ : s₅.Canon := hs₄.ctxNotice
  split
  · exact hs₅.postResult
  · exact hs₅

theorem State.Canon.restoreTiles {ks} {at_ : Nat → Nat} (h : s.Canon) : (s.restoreTiles ks at_).Canon :=
  List.foldlRecOn _ _ h fun _ hu _ _ => hu.restoreImage

theorem State.Canon.bringBack {c ks} (h : s.Canon) : (s.bringBack c ks).1.Canon := h.copyTables.placeCtx.restoreTiles.resumeCtx

theorem State.Canon.fromQueue {c ks} (h : s.Canon) : (s.fromQueue c ks).Canon := by
  unfold State.fromQueue
  extract_lets
  split
  · exact h.bringBack
  · exact h

theorem State.Canon.hostResume {m box c} (h : s.Canon) : (s.hostResume m box c).Canon := by
  unfold State.hostResume
  extract_lets _ answer
  have hanswer : ∀ (r : State × Nat), r.1.Canon → (answer r).Canon := fun _ h₁ => h₁.postResult
  split
  · exact h.postResult
  split
  · exact h
  split
  · exact hanswer _ h.resumeCtx
  split
  · exact h
  · exact hanswer _ h.bringBack

theorem execResumeRequest_canon (h : s.Canon) : OnNext State.Canon (execResumeRequest s) :=
  h.serveRequest (fun _ _ _ hu => State.Canon.ofCtx (fun _ _ _ _ hu₁ => hu₁.hostResume) hu)

theorem State.Canon.reverseJournal {c} (h : s.Canon) : (s.reverseJournal c).Canon := by
  unfold State.reverseJournal
  extract_lets undo
  have hundo : ∀ (md : Module) (k : Nat), md.Canon → (undo md k).Canon :=
    fun _ _ hmd₁ => ⟨Memory.wf_foldl hmd₁.mem fun _ hmem _ => Memory.wf_writeBytes _ _ _ hmem, hmd₁.mbox, hmd₁.staging, hmd₁.threads⟩
  refine ⟨h.tiles, h.clusters, h.mods.map (fun e₁ h₁ => List.foldlRecOn _ _ ?_ fun _ hu _ _ => hundo _ _ hu), h.ctxs⟩
  exact h₁

theorem State.Canon.unwind {c n} (h : s.Canon) : (s.unwind c n).Canon := by
  unfold State.unwind
  extract_lets
  refine ⟨h.tiles, h.clusters, h.mods.map (fun e₁ h₁ => ⟨?_, ?_, ?_, SMap.Each.filter ?_⟩), h.ctxs⟩
  · exact h₁.mem
  · exact h₁.mbox
  · exact h₁.staging
  · exact h₁.threads

theorem State.Canon.restartInsts {c} (h : s.Canon) : (s.restartInsts c).Canon :=
  List.foldlRecOn _ _ h fun _ hw _ _ => hw.checkRanks

theorem State.Canon.restoreCtx {c ks} (h : s.Canon) : (s.restoreCtx c ks).Canon := by
  unfold State.restoreCtx
  extract_lets _ _ s₁ _ s₂ src s₃ s₄ s₅ s₆
  have hs₁ : s₁.Canon := h.reportLull.reverseJournal.unwind
  have hs₂ : s₂.Canon := List.foldlRecOn _ _ hs₁ fun _ hu _ _ => hu.unbindCluster.setCluster hu.unbindCluster.cluster
  have hsrc : src.Canon := hs₂.ctx
  have hs₃ : s₃.Canon := hs₂.setCtx hsrc
  have hs₄ : s₄.Canon := by
    unfold s₄
    split
    · exact List.foldlRecOn _ _ hs₃ fun _ hu _ _ => hu.setTile Tile.wiped_canon
    · exact hs₃
  have hs₅ : s₅.Canon := hs₄.copyTables.placeCtx.restartInsts
  have hs₆ : s₆.Canon := by
    unfold s₆
    split
    · exact hs₅.placeStart.startLaunchCtx
    · exact hs₅.restoreTiles.resumeCtx
  exact hs₆.renewPreempt.ctxNotice

theorem State.Canon.beginTear {m box c} (h : s.Canon) : (s.beginTear m box c).Canon := by
  unfold State.beginTear
  extract_lets _ s₁ src s₂
  have hs₁ : s₁.Canon := by
    unfold s₁
    split
    · exact h.postResult
    · exact h
  have hsrc : src.Canon := hs₁.ctx
  have hs₂ : s₂.Canon := hs₁.setCtx hsrc
  split
  · exact hs₂.demandDecision
  · exact hs₂.parkAll

theorem State.Canon.hostTeardown {m box c} (h : s.Canon) : (s.hostTeardown m box c).Canon := by
  unfold State.hostTeardown
  split
  · split
    · exact h
    · exact h.postResult
  · exact h.beginTear

theorem execTeardown_canon (h : s.Canon) : OnNext State.Canon (execTeardown s) :=
  h.serveRequest (fun _ _ _ hu => State.Canon.ofCtx (fun _ _ _ _ hu₁ => hu₁.hostTeardown) hu)

theorem State.Canon.endTear {c} (h : s.Canon) : (s.endTear c).Canon := by
  unfold State.endTear
  extract_lets _ src u
  have hsrc : src.Canon := h.tellDeps
  have hu : u.Canon := ⟨hsrc.tiles, hsrc.clusters, hsrc.mods, h.ctxs.del⟩
  split
  · split
    · exact h
    split
    · exact hu.postResult
    · exact hu
  · exact h

theorem State.Canon.tearApart {c} (h : s.Canon) : (s.tearApart c).Canon := by
  unfold State.tearApart
  extract_lets s₁ x mine onWay s₂ s₃ ks pages s₄ ops s₅ src x₂
  have hs₁ : s₁.Canon := h.reportLull
  have hs₂ : s₂.Canon := List.foldlRecOn (motive := State.Canon) _ _ hs₁ fun _ hu _ _ => hu.postResult
  clear_value s₂
  have hs₃ : s₃.Canon :=
    ⟨hs₂.tiles, hs₂.clusters, SMap.Each.map hs₂.mods fun _ he => ⟨he.mem, he.mbox, he.staging, he.threads.filter⟩, hs₂.ctxs⟩
  have hs₄ : s₄.Canon := List.foldlRecOn (motive := State.Canon) _ _ hs₃ fun _ hu _ _ => hu.unbindCluster
  have hs₅ : s₅.Canon := List.foldlRecOn (motive := State.Canon) _ _ hs₄ fun _ hu _ _ => hu.beginScrub
  have hsrc : src.Canon := hs₅.ctx
  exact .endTear (.setCtx hs₅.dropCached hsrc)

theorem State.Canon.migrateCtx {c v k} (h : s.Canon) : (s.migrateCtx c v k).Canon := by
  unfold State.migrateCtx
  split
  · exact h
  extract_lets s₁ s₂ s₃ s₄ src s₅
  have hs₁ : s₁.Canon := h.reportLull
  have hs₂ : s₂.Canon := hs₁.copyTables.placeCluster
  clear_value s₂
  have hs₃ : s₃.Canon := List.foldlRecOn (motive := State.Canon) _ _ hs₂ fun _ hu _ _ => hu.moveImage
  have hs₄ : s₄.Canon := hs₃.unbindCluster
  have hsrc : src.Canon := hs₄.cluster
  clear_value s₄
  have hs₅ : s₅.Canon := hs₄.setCluster hsrc
  exact State.Canon.resumeCtx hs₅

theorem execLullReport_canon (h : s.Canon) : OnNext State.Canon (execLullReport s) := by
  unfold execLullReport
  extract_lets
  split
  · exact h
  split
  · show State.Canon _
    split
    · split
      · exact h.parkAll
      · exact h
    · exact h
  · split
    · exact h.tearApart
    split
    · split
      · exact h.restoreCtx
      · exact h
    · split
      · split
        · exact h.migrateCtx
        · exact h
      · exact h
    · split
      · exact h.putAway
      split
      · exact h
      · exact h.reportLull

theorem execScrubComplete_canon (h : s.Canon) : OnNext State.Canon (execScrubComplete s) := by
  unfold execScrubComplete
  split
  · split
    · exact h
    split
    · exact h.scrubPage
    · exact show State.Canon _ from List.foldlRecOn _ _ h.endScrub fun _ hu _ _ => hu.endTear
  · exact h

theorem State.Canon.hostAttest {m box} (h : s.Canon) : (s.hostAttest m box).Canon := by
  unfold State.hostAttest
  extract_lets _ _ _ src
  have hsrc : src.Canon := h.mod
  split
  · exact h.postResult
  · exact .postResult (h.setMod ⟨hsrc.mem, Memory.wf_writeBytes _ _ _ hsrc.mbox, hsrc.staging, hsrc.threads⟩)

theorem execAttest_canon (h : s.Canon) : OnNext State.Canon (execAttest s) := h.serveRequest (fun _ _ _ hu => hu.hostAttest)

theorem State.Canon.hostKeys {m box} (h : s.Canon) : (s.hostKeys m box).Canon := by
  unfold State.hostKeys
  extract_lets _ md
  have hmd : md.Canon := h.mod
  split
  · exact h.postResult
  · exact .postResult (h.setMod hmd)

theorem execKeys_canon (h : s.Canon) : OnNext State.Canon (execKeys s) := h.serveRequest (fun _ _ _ hu => hu.hostKeys)

theorem State.Canon.hostRecover {m box} (h : s.Canon) : (s.hostRecover m box).Canon := by
  unfold State.hostRecover
  split
  · exact h.postResult
  extract_lets md _ kept
  have hmd : md.Canon := h.postResult.mod
  have hkept : kept.Canon := ⟨hmd.mem, hmd.mbox, rfl, .nil⟩
  exact ⟨h.tiles.filter, h.clusters.filter, h.mods.set hkept, h.ctxs⟩

theorem execRecover_canon (h : s.Canon) : OnNext State.Canon (execRecover s) := h.serveRequest (fun _ _ _ hu => hu.hostRecover)

theorem State.Canon.hostWriteSlot {m box} (h : s.Canon) : (s.hostWriteSlot m box).Canon := by
  unfold State.hostWriteSlot
  extract_lets _ md
  have hmd : md.Canon := h.mod
  split
  · exact h.postResult
  refine (h.setMod ?_).postResult
  split <;> exact hmd

theorem execWriteSlot_canon (h : s.Canon) : OnNext State.Canon (execWriteSlot s) :=
  h.serveRequest (fun _ _ _ hu => hu.hostWriteSlot)

theorem execReboot_canon (h : s.Canon) : OnNext State.Canon (execReboot s) := h.serveRequest (fun _ _ _ hu => hu.resetModule)

theorem State.Canon.serveSvc {t n value} (h : s.Canon) : (s.serveSvc t n value).Canon := by
  unfold State.serveSvc
  extract_lets
  split
  · exact h
  split
  · exact h
  extract_lets src u
  have hsrc : src.Canon := h.ctx
  have hu : u.Canon := by
    unfold u
    split
    · exact h.ctxNotice
    split
    · exact h.setCtx hsrc
    · exact h
  exact hu.setStrand.resumeStrand

theorem State.Canon.tearOf {c code value} (h : s.Canon) : (s.tearOf c code value).Canon := h.ctxNotice.beginTear

theorem State.Canon.fenceLasting {c} (h : s.Canon) : (s.fenceLasting c).Canon := by
  unfold State.fenceLasting
  extract_lets x
  have hx : x.Canon := h.ctx
  split
  · extract_lets src u
    have hsrc : src.Canon := h.cluster
    have hu : u.Canon := h.setCluster hsrc
    exact hu.setCtx hx
  · exact h

theorem State.Canon.giveUpCtx {c} (h : s.Canon) : (s.giveUpCtx c).Canon := by
  unfold State.giveUpCtx
  extract_lets _ u src
  have hu : u.Canon := h.resumeCtx
  have hsrc : src.Canon := hu.ctx
  split
  · exact h
  split
  · exact h.tearOf
  split
  · exact h
  split
  · split
    · exact h
    split
    · exact h.tearOf
    · split
      · exact hu.setCtx hsrc
      · exact h.tearOf
    · exact h
  · split
    · split
      · exact h.demandDecision
      · exact h
    · exact h.fenceLasting

theorem State.Canon.scrubFinds {t e} (h : s.Canon) : (s.scrubFinds t e).Canon := by
  unfold State.scrubFinds
  extract_lets _ u
  have hu : u.Canon := h.countError
  split
  · exact h.tileError
  · exact h.tileError
  · exact h.tileError
  · exact h.tileError
  · exact h.tileError
  · exact hu.setTile hu.tile.irrev
  · exact h

theorem execScrubLine_canon (h : s.Canon) : OnNext State.Canon (execScrubLine s) := by
  unfold execScrubLine
  extract_lets _ _ x k _ u
  have hx : x.Canon := h.tile
  have hk : k.Canon := h.cluster
  have hu : u.Canon := by
    unfold u
    split
    · exact h.setCluster hk
    · exact h.setTile hx
  split
  · exact h.scrubFinds
  split
  · exact hu.countError
  · exact h

theorem execErrorWindowEnd_canon (h : s.Canon) : OnNext State.Canon (execErrorWindowEnd s) :=
  show State.Canon _ from h.setTile h.tile.window

theorem State.Canon.setLink {m l x} (h : s.Canon) : (s.setLink m l x).Canon := h.setMod h.mod

theorem State.Canon.linkVote {c atile hold link} (h : s.Canon) : (s.linkVote c atile hold link).Canon := by
  unfold State.linkVote
  extract_lets x
  have hx : x.Canon := h.ctx
  split
  · exact .tryDecide (h.setCtx hx)
  · exact h

theorem State.Canon.linkLost {m l c} (h : s.Canon) : (s.linkLost m l c).Canon := by
  unfold State.linkLost
  extract_lets _ _ x x₁ u
  have hx : x.Canon := h.ctx
  have hx₁ : x₁.Canon := by
    unfold x₁
    split <;> exact hx
  have hu : u.Canon := by
    unfold u
    refine h.setCtx ?_
    split <;> exact hx₁
  split
  · exact hu.linkVote
  · exact hu

theorem State.Canon.failLink {m l} (h : s.Canon) : (s.failLink m l).Canon := by
  unfold State.failLink
  extract_lets _ _ s₁ s₂ s₃
  have hs₁ : s₁.Canon := h.setLink
  have hs₂ : s₂.Canon := hs₁.moduleEvent
  have hs₃ : s₃.Canon := List.foldlRecOn _ _ hs₂ fun _ hu _ _ => hu.linkLost
  exact List.foldlRecOn _ _ hs₃ fun _ hu _ _ => List.foldlRecOn _ _ hu fun _ hw _ _ => hw.threadFault

theorem execLinkCrcFailure_canon (h : s.Canon) : OnNext State.Canon (execLinkCrcFailure s) := by
  unfold execLinkCrcFailure
  extract_lets
  split
  · exact h
  split
  · exact h.setLink
  split
  · exact h.setLink
  · exact h.failLink

theorem execLinkLockLoss_canon (h : s.Canon) : OnNext State.Canon (execLinkLockLoss s) := by
  unfold execLinkLockLoss
  extract_lets
  split
  · split
    · exact h
    · exact h.failLink
  · exact h

theorem execLaneLockLost_canon (h : s.Canon) : OnNext State.Canon (execLaneLockLost s) := by
  unfold execLaneLockLost
  extract_lets
  show State.Canon _
  split
  · exact h
  · exact h.setLink

theorem State.Canon.healCuts {l} (h : s.Canon) : (s.healCuts l).Canon := by
  unfold State.healCuts
  extract_lets heal
  have hheal : ∀ (c : Nat) (x : Ctx), x.Canon → (heal c x).Canon := fun _ _ hx₁ => hx₁
  refine ⟨h.tiles, h.clusters, h.mods, h.ctxs.map (fun e₁ h₁ => hheal _ _ ?_)⟩
  exact h₁

theorem execLaneLockRegained_canon (h : s.Canon) : OnNext State.Canon (execLaneLockRegained s) :=
  show State.Canon _ from h.setLink.healCuts

theorem execTreeRouteTimeout_canon (h : s.Canon) : OnNext State.Canon (execTreeRouteTimeout s) := by
  unfold execTreeRouteTimeout
  extract_lets _ _ _ u _ src
  have hu : u.Canon := h.parkTiles
  have hsrc : src.Canon := hu.ctx
  split
  · exact h
  split
  · exact h
  · exact hu.setCtx hsrc

end Sys2Proof.Machine
end

section
/-! Every instruction and event, every turn, and the step. -/
namespace Sys2Proof.Machine
variable {s : State}

/-- Every instruction and event: those that end alike stand together. -/
theorem exec_canon {i} (h : s.Canon) : OnNext State.Canon (exec i s) := by
  cases i with
  | ill => exact execIll_canon h
  | add | sub | and | or | xor | andn | shl | shr | sra | rol | min | max | minn | maxn | adds | subs | mul | mulh
  | mulhn | clz | ctz | popc | brev | seq | sne | slt | sge | sltn | sgen | addi | andi | ori | xori | shli | shri
  | srai | muli | slti | sltni | lea | ldk | ldi | ldih | bext | bins | addpc => exact h.putS
  | div | divn | rem | remn => exact h.putDiv
  | cmov => exact execCmov_canon h
  | ldI8 | ldI16 | ldI32 | ldI64 | ldN8 | ldN16 | ldN32 => exact h.load
  | st8 | st16 | st32 | st64 => exact h.store
  | ldbits => exact execLdbits_canon h
  | stbits => exact execStbits_canon h
  | amoadd32 => exact execAmoadd32_canon h
  | amoand32 => exact execAmoand32_canon h
  | amoor32 => exact execAmoor32_canon h
  | amoxor32 => exact execAmoxor32_canon h
  | amomin32 => exact execAmomin32_canon h
  | amomax32 => exact execAmomax32_canon h
  | amoswp32 => exact execAmoswp32_canon h
  | amoadd64 => exact execAmoadd64_canon h
  | amoand64 => exact execAmoand64_canon h
  | amoor64 => exact execAmoor64_canon h
  | amoxor64 => exact execAmoxor64_canon h
  | amomin64 => exact execAmomin64_canon h
  | amomax64 => exact execAmomax64_canon h
  | amoswp64 => exact execAmoswp64_canon h
  | amocas => exact execAmocas_canon h
  | ldfe => exact execLdfe_canon h
  | ldfeKeep => exact execLdfeKeep_canon h
  | stfe => exact execStfe_canon h
  | fetagSetf => exact execFetagSetf_canon h
  | fetagSete => exact execFetagSete_canon h
  | fetagPeek => exact execFetagPeek_canon h
  | bz | bnz | bltz | bgez | bgtz | blez | bcmp | j | bws | bp => exact h.branch
  | jal => exact execJal_canon h
  | jr => exact execJr_canon h
  | jalr => exact execJalr_canon h
  | loop => exact execLoop_canon h
  | loopi => exact execLoopi_canon h
  | loops => exact execLoops_canon h
  | lbrk => exact execLbrk_canon h
  | mfs => exact execMfs_canon h
  | mts => exact execMts_canon h
  | trap => exact execTrap_canon h
  | svc => exact execSvc_canon h
  | rtt => exact execRtt_canon h
  | nop => exact execNop_canon h
  | brk => exact execBrk_canon h
  | tmark => exact execTmark_canon h
  | retire => exact execRetire_canon h
  | prnd => exact execPrnd_canon h
  | pext => exact execPext_canon h
  | pone => exact execPone_canon h
  | poneRecordArrival => exact execPoneRecordArrival_canon h
  | vadd | vsub | vmul | vfma | vfms | vfnma | vmin | vmax | vabs | vneg | vdiv | vsqrt | vand | vor | vxor | vandn
  | vshl | vshr | vsra | vops => exact h.vecOp
  | vcmp => exact execVcmp_canon h
  | vsel => exact execVsel_canon h
  | vcvt => exact execVcvt_canon h
  | vbcast => exact execVbcast_canon h
  | vext => exact execVext_canon h
  | vins => exact execVins_canon h
  | vperm => exact execVperm_canon h
  | vredsum => exact execVredsum_canon h
  | vredmax => exact execVredmax_canon h
  | vredmin => exact execVredmin_canon h
  | vld => exact execVld_canon h
  | vst => exact execVst_canon h
  | vldb => exact execVldb_canon h
  | vstb => exact execVstb_canon h
  | vgath => exact execVgath_canon h
  | vscat => exact execVscat_canon h
  | vldd => exact execVldd_canon h
  | vstd => exact execVstd_canon h
  | plogAnd => exact execPlogAnd_canon h
  | plogOr => exact execPlogOr_canon h
  | plogXor => exact execPlogXor_canon h
  | plogAndn => exact execPlogAndn_canon h
  | plogNot => exact execPlogNot_canon h
  | pmov => exact execPmov_canon h
  | pmovFrom => exact execPmovFrom_canon h
  | pmovTo => exact execPmovTo_canon h
  | pcnt => exact execPcnt_canon h
  | zacc => exact execZacc_canon h
  | mma => exact execMma_canon h
  | mmaKblock => exact execMmaKblock_canon h
  | accrd => exact execAccrd_canon h
  | accst => exact execAccst_canon h
  | accld => exact execAccld_canon h
  | accsv => exact execAccsv_canon h
  | accadd => exact execAccadd_canon h
  | accanch => exact execAccanch_canon h
  | cbld => exact execCbld_canon h
  | ldd => exact execLdd_canon h
  | setd => exact execSetd_canon h
  | kwait => exact execKwait_canon h
  | kwany => exact execKwany_canon h
  | waitc => exact execWaitc_canon h
  | fence => exact execFence_canon h
  | realign => exact execRealign_canon h
  | setdl => exact execSetdl_canon h
  | now => exact execNow_canon h
  | cbar => exact execCbar_canon h
  | abortv => exact execAbortv_canon h
  | irrev => exact execIrrev_canon h
  | rst => exact execRst_canon h
  | vrst => exact execVrst_canon h
  | rred => exact execRred_canon h
  | vrred => exact execVrred_canon h
  | msend => exact execMsend_canon h
  | msendEos => exact execMsendEos_canon h
  | msendg => exact execMsendg_canon h
  | msendgEos => exact execMsendgEos_canon h
  | mrecv => exact execMrecv_canon h
  | ldg => exact execLdg_canon h
  | stg => exact execStg_canon h
  | redg => exact execRedg_canon h
  | vldg => exact execVldg_canon h
  | vstg => exact execVstg_canon h
  | vredg => exact execVredg_canon h
  | fetchl => exact execFetchl_canon h
  | fetchlNext => exact execFetchlNext_canon h
  | wbl => exact execWbl_canon h
  | copy => exact execCopy_canon h
  | copyG => exact execCopyG_canon h
  | coll => exact execColl_canon h
  | rlstatLock => exact execRlstatLock_canon h
  | rlstatProg => exact execRlstatProg_canon h
  | rlstatFaddr => exact execRlstatFaddr_canon h
  | nextt => exact execNextt_canon h
  | prio => exact execPrio_canon h
  | profrd => exact execProfrd_canon h
  | profrdClr => exact execProfrdClr_canon h
  | launch => exact execLaunch_canon h
  | bindBind | bindUnbind | bindFence | bindUnfence | tmapMap | tmapInval | tmapGroup | codestCode | codestLocal
  | codestReg | codestChunk | codestPtab | startLaunch | startResume | startStrand | quiesceRequest | quiesceCkpt
  | quiesceCancel | quiescePark | imgmvSave | imgmvRestore | imgmvMove | keyld | keyz | scrubCluster | scrubPages
  | forceab | dumpLog | dumpCtx | dumpTrace => exact h.supIssue
  | supervisorOpComplete => exact execSupervisorOpComplete_canon h
  | chunkNop => exact execChunkNop_canon h
  | send => exact execSend_canon h
  | recv => exact execRecv_canon h
  | reduce => exact execReduce_canon h
  | chunkCopy => exact execChunkCopy_canon h
  | waitSig => exact execWaitSig_canon h
  | waitArm => exact execWaitArm_canon h
  | gather => exact execGather_canon h
  | deliver => exact execDeliver_canon h
  | armred => exact execArmred_canon h
  | mcast => exact execMcast_canon h
  | setg => exact execSetg_canon h
  | setgh => exact execSetgh_canon h
  | movg => exact execMovg_canon h
  | addg => exact execAddg_canon h
  | addgr => exact execAddgr_canon h
  | subgr => exact execSubgr_canon h
  | mulgr => exact execMulgr_canon h
  | remgr => exact execRemgr_canon h
  | bnzg => exact execBnzg_canon h
  | loopg => exact execLoopg_canon h
  | signal => exact execSignal_canon h
  | halt => exact execHalt_canon h
  | abortc => exact execAbortc_canon h
  | fencec => exact execFencec_canon h
  | chunkWaitMet => exact execChunkWaitMet_canon h
  | chunkWaitExpiry => exact execChunkWaitExpiry_canon h
  | chunkBoundExpiry => exact execChunkBoundExpiry_canon h
  | chunkTransferComplete => exact execChunkTransferComplete_canon h
  | signalApply => exact execSignalApply_canon h
  | threadStart => exact execThreadStart_canon h
  | collRequestArrival => exact execCollRequestArrival_canon h
  | pushDeltaArrival => exact execPushDeltaArrival_canon h
  | abortToken => exact execAbortToken_canon h
  | waitMet => exact execWaitMet_canon h
  | waitTimeout => exact execWaitTimeout_canon h
  | implicitDeadline => exact execImplicitDeadline_canon h
  | fetchBlockServed => exact execFetchBlockServed_canon h
  | cbarDeadlineExpiry => exact execCbarDeadlineExpiry_canon h
  | treeArrive => exact execTreeArrive_canon h
  | treeWithdraw => exact execTreeWithdraw_canon h
  | treeWconf => exact execTreeWconf_canon h
  | treeDecide => exact execTreeDecide_canon h
  | deltaArrival => exact execDeltaArrival_canon h
  | globalDeltaArrival => exact execGlobalDeltaArrival_canon h
  | deltaAcknowledgement => exact execDeltaAcknowledgement_canon h
  | deltaRefusal => exact execDeltaRefusal_canon h
  | baseDieCommit => exact execBaseDieCommit_canon h
  | arrayAcknowledgement => exact execArrayAcknowledgement_canon h
  | checkpointCaptureDone => exact execCheckpointCaptureDone_canon h
  | pageWalkComplete => exact execPageWalkComplete_canon h
  | globalReadResponse => exact execGlobalReadResponse_canon h
  | engineLineArrival => exact execEngineLineArrival_canon h
  | engineLocalLine => exact execEngineLocalLine_canon h
  | refetchReport => exact execRefetchReport_canon h
  | hostRead => exact execHostRead_canon h
  | hostWrite => exact execHostWrite_canon h
  | launchRequest => exact execLaunchRequest_canon h
  | hostSync => exact execHostSync_canon h
  | record => exact execRecord_canon h
  | preempt => exact execPreempt_canon h
  | resumeRequest => exact execResumeRequest_canon h
  | teardown => exact execTeardown_canon h
  | attest => exact execAttest_canon h
  | keys => exact execKeys_canon h
  | recover => exact execRecover_canon h
  | writeSlot => exact execWriteSlot_canon h
  | reboot => exact execReboot_canon h
  | eventDelivery => exact execEventDelivery_canon h
  | plimExpiry => exact execPlimExpiry_canon h
  | lullReport => exact execLullReport_canon h
  | scrubComplete => exact execScrubComplete_canon h
  | scrubRestart => exact execScrubRestart_canon h
  | scrubLine => exact execScrubLine_canon h
  | errorWindowEnd => exact execErrorWindowEnd_canon h
  | linkCrcFailure => exact execLinkCrcFailure_canon h
  | linkLockLoss => exact execLinkLockLoss_canon h
  | treeRouteTimeout => exact execTreeRouteTimeout_canon h
  | islandPowerLoss => exact execIslandPowerLoss_canon h
  | thermalThrottle => exact execThermalThrottle_canon h
  | thermalRecover => exact execThermalRecover_canon h
  | thermalShutdown => exact execThermalShutdown_canon h
  | lowCoolantFlow => exact execLowCoolantFlow_canon h
  | moduleReset => exact execModuleReset_canon h
  | stackTrainingDone => exact execStackTrainingDone_canon h
  | islctlWrite => exact execIslctlWrite_canon h
  | islandTransitionDone => exact execIslandTransitionDone_canon h
  | hrefWrite => exact execHrefWrite_canon h
  | dropdWrite => exact execDropdWrite_canon h
  | dctlHalt => exact execDctlHalt_canon h
  | dctlResume => exact execDctlResume_canon h
  | dctlStep => exact execDctlStep_canon h
  | haltRequest => exact execHaltRequest_canon h
  | daccRead => exact execDaccRead_canon h
  | daccWrite => exact execDaccWrite_canon h
  | daccWaitToken => exact execDaccWaitToken_canon h
  | daccWaitTimeout => exact execDaccWaitTimeout_canon h
  | itctlWrite => exact execItctlWrite_canon h
  | issueTraceStop => exact execIssueTraceStop_canon h
  | registerWrite => exact execRegisterWrite_canon h
  | egressQueueChange => exact execEgressQueueChange_canon h
  | contextClockStop => exact execContextClockStop_canon h
  | laneLockLost => exact execLaneLockLost_canon h
  | laneLockRegained => exact execLaneLockRegained_canon h
  | btctlWrite => exact execBtctlWrite_canon h
  | selfTestComplete => exact execSelfTestComplete_canon h
  | coolantFlowRestored => exact execCoolantFlowRestored_canon h

theorem Ctx.Canon.tickCtx {k c} {x : Ctx} (hx : x.Canon) : (s.tickCtx k c x).Canon := by
  unfold State.tickCtx
  split
  · exact hx
  extract_lets
  split <;> exact hx

theorem State.Canon.ticks {k} (h : s.Canon) : (s.ticks k).Canon := by
  unfold State.ticks
  split
  · exact h
  extract_lets by_ step s₁
  have hs₁ : s₁.Canon := ⟨h.tiles, h.clusters, h.mods, SMap.Each.map h.ctxs fun _ hc => Ctx.Canon.tickCtx hc⟩
  split
  · exact hs₁
  · exact ⟨hs₁.tiles, hs₁.clusters, SMap.Each.map hs₁.mods fun _ he =>
      ⟨he.mem, he.mbox, he.staging, SMap.Each.map he.threads fun _ ht => ht⟩, hs₁.ctxs⟩

theorem State.Canon.performOld (h : s.Canon) : s.performOld.Canon := by
  unfold State.performOld
  split
  · exact h
  exact ⟨SMap.Each.map h.tiles fun _ hx => Tile.Canon.performWhere hx, h.clusters, h.mods, h.ctxs⟩

theorem State.Canon.ageAll {n} (h : s.Canon) : (s.ageAll n).Canon := by
  unfold State.ageAll
  split
  · exact h
  exact ⟨SMap.Each.map h.tiles fun _ hx => Tile.Canon.older hx, h.clusters, h.mods, h.ctxs⟩

theorem State.Canon.advance {n} (h : s.Canon) : (s.advance n).Canon := .performOld (.ticks (.ageAll h))

theorem State.Canon.traceIdle {n} (h : s.Canon) : (s.traceIdle n).Canon := by
  induction n generalizing s with
  | zero => exact h
  | succ n ih => exact ih h.traceCycle

theorem State.Canon.traceSkip {n} (h : s.Canon) : (s.traceSkip n).Canon := h

theorem State.Canon.passTime {n} (h : s.Canon) : (s.passTime n).Canon := by
  unfold State.passTime
  extract_lets u
  have hu : u.Canon := h.advance
  split
  · exact hu
  · exact hu.traceIdle.traceSkip.traceIdle

theorem State.Canon.correctStore (h : s.Canon) : s.correctStore.Canon := by
  unfold State.correctStore
  extract_lets k
  have hk : k.Canon := h.cluster
  split
  · exact h
  · exact List.foldlRecOn _ _ (h.setCluster hk) fun _ hu _ _ => hu.countError

theorem execUnit_canon {ps i} (h : s.Canon) : OnNext State.Canon (execUnit ps i s) := by
  induction ps generalizing s with
  | nil => exact exec_canon h
  | cons p r ih =>
    have hp : OnNext State.Canon (exec p s) := exec_canon h
    unfold execUnit
    split
    next t e => exact ih (hp.of_eq e)
    next => exact hp

theorem State.Canon.issueMark {u : State} {i} (hu : u.Canon) : (s.issueMark u i).1.Canon := by
  unfold State.issueMark
  extract_lets _ _ _ _ _ u₁
  have hu₁ : u₁.Canon := hu.setTile hu.tile.setStrand.issued
  split
  · exact hu
  · exact hu₁

theorem State.Canon.issueUnit (h : s.Canon) : OnNext (fun r => r.1.Canon) s.issueUnit := by
  unfold State.issueUnit
  extract_lets s₁
  have hs₁ : s₁.Canon := h.correctStore
  split
  next stop _ =>
    have hend : OnNext State.Canon (s₁.finish .nop (.error stop)) := hs₁.finish trivial
    split
    next u e => exact (hend.of_eq e).issueMark
    · trivial
    · trivial
  next ps i _ =>
    have hunit : OnNext State.Canon (execUnit ps i s₁) := execUnit_canon hs₁
    split
    next u e => exact (hunit.of_eq e).issueMark
    · trivial
    · trivial

theorem State.Canon.unitTurn (h : s.Canon) : OnNext (fun a => a.1.Canon) s.unitTurn := by
  unfold State.unitTurn
  split
  · exact h
  extract_lets _ u
  have hu : u.Canon := h.setMe
  split
  · exact hu.requestUnit
  · exact hu.prefetch.issueUnit

theorem State.Canon.turnOf {t n late} (h : s.Canon) : (s.turnOf t n late).Canon := h

theorem strandTurn_canon {t n late} (h : s.Canon) : OnNext State.Canon (strandTurn t n late s) := by
  have hturn : OnNext (fun r => r.1.Canon) ((s.advance 1).turnOf t n late).unitTurn := h.advance.turnOf.unitTurn
  unfold strandTurn
  split
  next r e => exact (hturn.of_eq e).traceCycle
  · trivial
  · trivial

theorem State.Canon.issueAll {es l} (h : s.Canon) : OnNext State.Canon (State.issueAll es l s) := by
  induction es generalizing s l with
  | nil => exact State.Canon.traceAll h
  | cons e r ih =>
    have hturn : OnNext (fun r => r.1.Canon) (s.turnOf e.1 e.2 false).unitTurn := h.turnOf.unitTurn
    unfold State.issueAll
    split
    next u e₁ => exact ih (hturn.of_eq e₁)
    · trivial
    · trivial

theorem togetherTurn_canon {l} (h : s.Canon) : OnNext State.Canon (togetherTurn l s) := by
  unfold togetherTurn
  extract_lets u
  have hu : u.Canon := h.advance
  exact State.Canon.issueAll hu

theorem performTurn_canon {t i} (h : s.Canon) : (performTurn t i s).Canon := by
  unfold performTurn
  extract_lets x
  have hx : x.Canon := h.tile
  split
  · exact h
  split
  · exact h
  · exact .setTile h (.performPart hx)

theorem readPartTurn_canon {t n a} (h : s.Canon) : (readPartTurn t n a s).Canon := by
  unfold readPartTurn
  extract_lets
  split
  · exact h
  split
  · split
    · extract_lets
      split
      · exact h
      · exact h.setStrand
    · exact h
  · exact h

theorem mmaPartTurn_canon {t q j a} (h : s.Canon) : (mmaPartTurn t q j a s).Canon := by
  unfold mmaPartTurn
  extract_lets x
  have hx : x.Canon := h.tile
  split
  · exact h
  extract_lets
  split
  · exact h
  · exact h.setTile hx

theorem scoreboardTurn_canon {t n} (h : s.Canon) : (scoreboardTurn t n s).Canon := by
  unfold scoreboardTurn
  extract_lets u
  have hu : u.Canon := h
  split
  · exact h
  split
  · extract_lets v
    have hv : v.Canon := hu.setMe.enterStall
    split
    · exact hv
    · exact h
  · exact h

theorem threadTurn_canon {m th} (h : s.Canon) : OnNext State.Canon (threadTurn m th s) := by
  unfold threadTurn
  extract_lets src u _ src₁
  have hsrc : src.Canon := h.advance.traceCycle
  have hu : u.Canon := hsrc
  have hsrc₁ : src₁.Canon := hu.thr
  split
  · exact hu
  split
  · exact hu.threadFault
  · exact hu
  split
  · exact hu.threadFault
  · exact exec_canon (hu.setThr hsrc₁)

theorem eventTurn_canon {i a} (h : s.Canon) : OnNext State.Canon (eventTurn i a s) := by
  unfold eventTurn
  split
  · exact exec_canon h
  · exact h

theorem upsetTurn_canon {t e} (h : s.Canon) : (upsetTurn t e s).Canon := h.setTile h.tile
theorem upsetStoreTurn_canon {k e} (h : s.Canon) : (upsetStoreTurn k e s).Canon := h.setCluster h.cluster
theorem upsetMemoryTurn_canon {m k block} (h : s.Canon) : (upsetMemoryTurn m k block s).Canon := h.setStack

theorem upsetChunkTurn_canon {m th block} (h : s.Canon) : (upsetChunkTurn m th block s).Canon := by
  unfold upsetChunkTurn
  split
  next t e => exact .setThread h (show Thread.Canon t from State.Canon.thread h e)
  · exact h

theorem takeTurn_canon {t} (h : s.Canon) : OnNext State.Canon (takeTurn t s) := by
  unfold takeTurn
  split
  · exact strandTurn_canon h
  · exact strandTurn_canon h
  · exact togetherTurn_canon h
  · exact performTurn_canon h
  · exact readPartTurn_canon h
  · exact mmaPartTurn_canon h
  · exact scoreboardTurn_canon h
  · exact threadTurn_canon h
  · exact eventTurn_canon h
  · exact h.passTime
  · exact h.syncArrives
  · exact h.serveSvc
  · exact h.giveUpCtx
  · exact h.fromQueue
  · exact h.setMod h.mod
  · exact upsetTurn_canon h
  · exact upsetStoreTurn_canon h
  · exact upsetMemoryTurn_canon h
  · exact upsetChunkTurn_canon h

theorem autoTurn_canon (h : s.Canon) : OnNext State.Canon (autoTurn s) := by
  unfold autoTurn
  split
  · exact h.passTime
  split
  · exact strandTurn_canon h
  · exact threadTurn_canon h
  · exact takeTurn_canon h.passTime
  · exact h.passTime

theorem step_canon (h : s.Canon) : OnNext State.Canon (step s) := by
  unfold step
  split
  · exact takeTurn_canon h
  · exact autoTurn_canon h

/-- Settles O59: the step carries the form of every part of the state. -/
theorem stepKeepsMemoryForm : Obligations.StepKeepsMemoryForm := by
  unfold Obligations.StepKeepsMemoryForm
  intro s t hs e
  exact t.canon_iff.mpr ((step_canon (s.canon_iff.mp hs)).of_eq e)

end Sys2Proof.Machine
end

section
/-! Registers read back, the values at reset, and the frame of an instruction that writes one scalar register. -/
namespace Sys2Proof.Machine

/-! ### Registers after a write -/

@[simp] theorem State.setS_zero (s : State) (x : Word) : s.setS 0 x = s := if_pos rfl
@[simp] theorem State.setP_zero (s : State) (x : Word) : s.setP 0 x = s := if_pos rfl

theorem State.setS_of_ne (s : State) {d : BitVec 6} (x : Word) (h : d ≠ 0) :
    s.setS d x = s.setMe { s.me with s := s.me.s.set d.toNat x d.isLt } := if_neg h

theorem State.setP_of_ne (s : State) {p : BitVec 3} (x : Word) (h : p ≠ 0) :
    s.setP p x = s.setMe { s.me with p := s.me.p.set p.toNat x p.isLt } := if_neg h

@[simp] theorem State.getS_zero (s : State) : s.getS 0 = 0 := if_pos rfl
@[simp] theorem State.getP_zero (s : State) : s.getP 0 = BitVec.allOnes 64 := if_pos rfl

theorem State.getS_of_ne (s : State) {e : BitVec 6} (h : e ≠ 0) : s.getS e = s.me.s[e.toNat]'e.isLt := if_neg h
theorem State.getP_of_ne (s : State) {q : BitVec 3} (h : q ≠ 0) : s.getP q = s.me.p[q.toNat]'q.isLt := if_neg h

/-- A write to a scalar register changes no field of the strand but the scalar registers. -/
theorem State.me_setS (s : State) (d : BitVec 6) (x : Word) : (s.setS d x).me = { s.me with s := (s.setS d x).me.s } := by
  unfold State.setS; split <;> simp

/-- A write to a predicate register changes no field of the strand but the predicates. -/
theorem State.me_setP (s : State) (p : BitVec 3) (x : Word) : (s.setP p x).me = { s.me with p := (s.setP p x).me.p } := by
  unfold State.setP; split <;> simp

/-- The elements of a vector of registers after one of them is written. -/
theorem getElem_set_reg {α : Type} {w : Nat} (l : Vector α (2 ^ w)) (i j : BitVec w) (x : α) :
    (l.set i.toNat x i.isLt)[j.toNat]'j.isLt = if j = i then x else l[j.toNat]'j.isLt := by
  simp only [Vector.getElem_set, BitVec.toNat_inj, eq_comm]

theorem State.getS_setS (s : State) (d e : BitVec 6) (x : Word) :
    (s.setS d x).getS e = if e = 0 then 0 else if e = d then x else s.getS e := by
  by_cases he : e = 0
  · rw [if_pos he, he, State.getS_zero]
  rw [if_neg he]
  by_cases hd : d = 0
  · rw [hd, State.setS_zero, if_neg he]
  · rw [State.setS_of_ne s x hd, State.getS_of_ne _ he, State.getS_of_ne s he, State.me_setMe]
    exact getElem_set_reg (w := 6) s.me.s d e x

theorem State.getS_setS_ne (s : State) {d e : BitVec 6} (x : Word) (h : e ≠ d) : (s.setS d x).getS e = s.getS e := by
  rw [State.getS_setS, if_neg h]
  by_cases he : e = 0
  · rw [if_pos he, he, State.getS_zero]
  · rw [if_neg he]

theorem State.getP_setP (s : State) (p q : BitVec 3) (x : Word) :
    (s.setP p x).getP q = if q = 0 then BitVec.allOnes 64 else if q = p then x else s.getP q := by
  by_cases hq : q = 0
  · rw [if_pos hq, hq, State.getP_zero]
  rw [if_neg hq]
  by_cases hp : p = 0
  · rw [hp, State.setP_zero, if_neg hq]
  · rw [State.setP_of_ne s x hp, State.getP_of_ne _ hq, State.getP_of_ne s hq, State.me_setMe]
    exact getElem_set_reg (w := 3) s.me.p p q x

theorem State.getV_setV (s : State) (v w : BitVec 5) (l : Line) : (s.setV v l).getV w = if w = v then l else s.getV w := by
  simp only [State.getV, State.setV, State.me_setMe]
  exact getElem_set_reg (w := 5) s.me.v v w l

@[simp] theorem State.getP_setS (s : State) (d : BitVec 6) (x : Word) (q : BitVec 3) : (s.setS d x).getP q = s.getP q := by
  unfold State.getP; rw [State.me_setS]

@[simp] theorem State.getV_setS (s : State) (d : BitVec 6) (x : Word) (w : BitVec 5) : (s.setS d x).getV w = s.getV w := by
  unfold State.getV; rw [State.me_setS]

@[simp] theorem State.getS_setP (s : State) (p : BitVec 3) (x : Word) (e : BitVec 6) : (s.setP p x).getS e = s.getS e := by
  unfold State.getS; rw [State.me_setP]

@[simp] theorem State.getV_setP (s : State) (p : BitVec 3) (x : Word) (w : BitVec 5) : (s.setP p x).getV w = s.getV w := by
  unfold State.getV; rw [State.me_setP]

@[simp] theorem State.getS_setV (s : State) (v : BitVec 5) (l : Line) (e : BitVec 6) : (s.setV v l).getS e = s.getS e := by
  simp [State.setV, State.getS]

@[simp] theorem State.getP_setV (s : State) (v : BitVec 5) (l : Line) (q : BitVec 3) : (s.setV v l).getP q = s.getP q := by
  simp [State.setV, State.getP]

/-- Settles O27, file by file: what the file written reads, then what the two others read. -/
theorem registerFilesReadBack : Obligations.RegisterFilesReadBack := by
  unfold Obligations.RegisterFilesReadBack
  intro s d e p q v w x l
  exact ⟨s.getS_setS d e x, s.getP_setP p q x, s.getV_setV v w l, s.setS_zero x, s.setP_zero x,
    s.getP_setS d x q, s.getV_setS d x w, s.getS_setP p x e, s.getV_setP p x w, s.getS_setV v l e, s.getP_setV v l q⟩

/-! ### Reset -/

/-- Settles O55: at reset no tile is listed, so whichever strand is looked at has the values that its fields start with. -/
theorem resetRegistersAndMemories : Obligations.ResetRegistersAndMemories := by
  unfold Obligations.ResetRegistersAndMemories
  refine ⟨rfl, fun t n => ?_⟩
  intro s
  have hhere : s.here = {} := rfl
  have hme : s.me = {} := by
    rw [State.me, hhere]; simp [Tile.strand]
  refine ⟨?_, ?_, ?_, ?_, ?_, ?_, ?_⟩
  · intro r; simp [State.getS, hme]
  · intro v; simp [State.getV, hme]
  · intro d; simp [State.getD, hme]
  · intro p; simp [State.getP, hme]
  · intro k; simp [State.getTok, Strand.tok, hme]
  · intro a; simp [hhere, Tile.byte, Tile.full, Tile.bandAt, Memory.read, SMap.get, SMap.find]
  · simp [hme]

/-! ### The frame of a scalar write -/

/-- The whole effect of the instruction, from any state, is to write s[d], or nothing. -/
def OnlyWrites (d : BitVec 6) (q : Instr) : Prop :=
  ∀ s : State, exec q s = s.finishSeq q (.ok s) ∨ ∃ v, exec q s = s.putS q d v

/-- CMOV writes its destination or, when s[b] is 0, nothing (R121). -/
theorem cmov_onlyWrites (d a b : BitVec 6) : OnlyWrites d (.cmov d a b) := fun s => by
  by_cases h : s.getS b = 0
  · exact .inl (congrArg (fun u => s.finishSeq (.cmov d a b) (.ok u)) (if_neg (not_not.mpr h)))
  · exact .inr ⟨_, congrArg (fun u => s.finishSeq (.cmov d a b) (.ok u)) (if_pos h)⟩

/-- Such an instruction, in a plain state, ends at the next sequential address with s[d] written or with no register written. -/
theorem OnlyWrites.next {q : Instr} {d : BitVec 6} {s t : State} (h : OnlyWrites d q) (hp : s.plain (wordsOf q) = true)
    (he : exec q s = .next t) : ∃ u, (u = s ∨ ∃ v, u = s.setS d v) ∧ t = u.arriveAt (s.own + 4 * wordsOf q) := by
  obtain h | ⟨v, h⟩ := h s
  · rw [h, State.finishSeq_same hp] at he
    exact ⟨s, .inl rfl, (Host.Outcome.next.inj he).symm⟩
  · rw [h, State.putS_plain hp] at he
    exact ⟨_, .inr ⟨v, rfl⟩, (Host.Outcome.next.inj he).symm⟩

/-- The current strand changes as a whole; what the tile keeps beside its strands, and every other tile, does not. -/
theorem State.setMe_tile_byte (s : State) (r : Strand) (u x : Nat) : ((s.setMe r).tile u).byte x = (s.tile u).byte x := by
  by_cases h : u = s.curTile
  · subst h; rw [State.tile_setMe_self]; rfl
  · rw [State.tile_setMe_ne s r h]

/-- A scalar write, or none, and the strand's going on are together one update of the strand, of its scalar registers and the fields of the
unit. -/
theorem arriveAt_of_scalarWrite (s : State) (d : BitVec 6) (u : State) (a : Nat) (h : u = s ∨ ∃ v, u = s.setS d v) :
    ∃ r : Strand, u.arriveAt a = s.setMe r ∧
      r = { s.me with s := r.s, pc := BitVec.ofNat 16 a, pfx := [], wait := none, stall := none, gread := none, walk := none,
                      vseq := none, early := {} } := by
  obtain rfl | ⟨v, rfl⟩ := h
  · exact ⟨_, rfl, rfl⟩
  · by_cases hd : d = 0
    · subst hd; rw [State.setS_zero]; exact ⟨_, rfl, rfl⟩
    · rw [State.setS_of_ne s v hd, State.arriveAt_setMe]; exact ⟨_, rfl, rfl⟩

/-- The instructions of three registers or two, without a comparison, write s[d] alone. -/
theorem alu_onlyWrites (d a b : BitVec 6) :
    ∀ q ∈ ([.add d a b, .sub d a b, .and d a b, .or d a b, .xor d a b, .andn d a b, .shl d a b, .shr d a b, .sra d a b, .rol d a b, .min d a b,
        .max d a b, .minn d a b, .maxn d a b, .adds d a b, .subs d a b, .mul d a b, .mulh d a b, .mulhn d a b, .clz d a, .ctz d a,
        .popc d a, .brev d a] : List Instr), OnlyWrites d q := by
  intro q hq
  simp only [List.mem_cons, List.not_mem_nil, or_false] at hq
  rcases hq with rfl | rfl | rfl | rfl | rfl | rfl | rfl | rfl | rfl | rfl | rfl | rfl | rfl | rfl | rfl | rfl | rfl | rfl | rfl | rfl |
    rfl | rfl | rfl
  all_goals exact fun s => .inr ⟨_, rfl⟩

/-- So do the comparisons, the immediate forms, the constants, the bit fields, and the moves from the clock and the predicates. -/
theorem others_onlyWrites (d a b lo w : BitVec 6) (i : BitVec 10) (j : BitVec 16) (h : BitVec 3) (k : BitVec 32) :
    ∀ q ∈ ([.seq d a b, .sne d a b, .slt d a b, .sge d a b, .sltn d a b, .sgen d a b, .cmov d a b, .addi d a i, .andi d a i, .ori d a i,
        .xori d a i, .shli d a b, .shri d a b, .srai d a b, .muli d a i, .slti d a i, .sltni d a i, .lea d a b h, .ldk d j, .ldi d k,
        .ldih d k, .bext d a lo w, .bins d a lo w, .addpc d k, .now d, .pcnt 1 d, .pmovTo 2 d] : List Instr), OnlyWrites d q := by
  intro q hq
  simp only [List.mem_cons, List.not_mem_nil, or_false] at hq
  rcases hq with rfl | rfl | rfl | rfl | rfl | rfl | rfl | rfl | rfl | rfl | rfl | rfl | rfl | rfl | rfl | rfl | rfl | rfl | rfl | rfl |
    rfl | rfl | rfl | rfl | rfl | rfl | rfl
  on_goal 7 => exact cmov_onlyWrites d a b
  all_goals exact fun s => .inr ⟨_, rfl⟩

/-- Settles O60: such an instruction is one update of the current strand, which changes only its scalar registers and the fields of the
unit, and of the scalar registers only s[d]. -/
theorem registerInstructionsFrame : Obligations.RegisterInstructionsFrame := by
  unfold Obligations.RegisterInstructionsFrame
  intro s t d a b lo w i j h k q hq hp he
  have hw : OnlyWrites d q := (List.mem_append.mp hq).elim (alu_onlyWrites d a b q) (others_onlyWrites d a b lo w i j h k q)
  obtain ⟨u, hu, rfl⟩ := hw.next hp he
  obtain ⟨r, hr, hfields⟩ := arriveAt_of_scalarWrite s d u (s.own + 4 * wordsOf q) hu
  have hs : ∀ e, (u.arriveAt (s.own + 4 * wordsOf q)).getS e = u.getS e := fun e => by simp only [State.getS, State.arriveAt_me]
  have hd : ∀ e, e ≠ d → u.getS e = s.getS e := by
    intro e hne
    obtain rfl | ⟨v, rfl⟩ := hu
    · rfl
    · exact s.getS_setS_ne v hne
  refine ⟨fun e hne => (hs e).trans (hd e hne), State.getS_zero _, ?_⟩
  rw [hr]
  refine ⟨?_, ?_, ?_, ?_, ?_, ?_, ?_, fun _ _ => State.setMe_tile_byte s r _ _, ?_, ?_, rfl, rfl, rfl, rfl, rfl⟩
  · intro e; unfold State.getV; rw [State.me_setMe, hfields]
  · intro e; unfold State.getP; rw [State.me_setMe, hfields]
  · intro e; unfold State.getD; rw [State.me_setMe, hfields]
  · intro e; unfold State.getTok; rw [State.me_setMe, hfields]; rfl
  · intro e; rw [State.here_setMe]; rfl
  · rw [State.me_setMe]; exact hfields
  · intro m hm; rw [State.here_setMe, Tile.strand_setStrand_ne _ _ hm]
  · intro x; rw [State.here_setMe]; rfl
  · rw [State.here_setMe]; rfl

end Sys2Proof.Machine
end

section
/-! Transfers that fail, and traps, SVC, ILL and RTT. -/
namespace Sys2Proof.Machine

/-! ### An instruction that raises a cause -/

/-- An instruction whose meaning raises a cause below 0x40 takes the trap at its unit (R38). -/
theorem State.finish_raise (s : State) (i : Instr) (c sub : BitVec 8) (tv : Word) (h : c.toNat < 0x40) :
    s.finish i (raise c sub tv) = .next ((s.takeTrap c sub tv s.me.pc.toNat false).afterRetire) := by
  show Host.Outcome.next (s.trapUnit c sub tv false).afterRetire = _
  rw [State.trapUnit, if_neg (by omega)]

/-- One whose meaning raises a cause from 0x40 up returns behind its unit (R38). -/
theorem State.finish_raise_past (s : State) (i : Instr) (c sub : BitVec 8) (tv : Word) (h : 0x40 ≤ c.toNat) :
    s.finish i (raise c sub tv) = .next ((s.takeTrap c sub tv (s.me.pc.toNat + 4) false).afterRetire) := by
  show Host.Outcome.next (s.trapUnit c sub tv false).afterRetire = _
  rw [State.trapUnit, if_pos h]

theorem State.finishSeq_raise (s : State) (i : Instr) (c sub : BitVec 8) (tv : Word) (h : c.toNat < 0x40) :
    s.finishSeq i (raise c sub tv) = .next ((s.takeTrap c sub tv s.me.pc.toNat false).afterRetire) :=
  s.finish_raise i c sub tv h

/-! ### Targets -/

/-- A target of a PC-relative transfer outside the code is refused before its T mark is looked at (R46). -/
theorem State.relTarget_out (s : State) (t : Int) (h : t < 0 ∨ (s.clim : Int) ≤ t) : s.relTarget t = raise cFETCH 0 (wrap64 t) :=
  if_pos (h.imp_right .inl)

theorem State.relTarget_unmarked (s : State) (t : Int) (h0 : 0 ≤ t) (hc : t < s.clim) (h4 : t % 4 = 0)
    (hl : (s.cluster (clusterOf s.curTile)).lands t.toNat = false) : s.relTarget t = raise cLANDING 0 (wrap64 t) := by
  unfold State.relTarget
  rw [if_neg (by omega), if_pos (by simp [hl])]

theorem State.regTarget_out (s : State) (t : Word) (h : 2 ^ 16 ≤ t.toNat ∨ s.clim ≤ t.toNat) : s.regTarget t = raise cFETCH 0 t :=
  if_pos h

theorem State.regTarget_misaligned (s : State) (t : Word) (h : t.toNat < 2 ^ 16) (hc : t.toNat < s.clim) (h4 : t.toNat % 4 ≠ 0) :
    s.regTarget t = raise cMISAL 0 t := by
  unfold State.regTarget
  rw [if_neg (by omega), if_pos h4]

theorem State.regTarget_unmarked (s : State) (t : Word) (h : t.toNat < 2 ^ 16) (hc : t.toNat < s.clim) (h4 : t.toNat % 4 = 0)
    (hl : (s.cluster (clusterOf s.curTile)).lands t.toNat = false) : s.regTarget t = raise cLANDING 0 t := by
  unfold State.regTarget
  rw [if_neg (by omega), if_neg (by omega), if_pos (by simp [hl])]

/-- J and JAL end as the check of their target does, where it refuses the target. -/
theorem exec_jump_raise {s : State} {i : BitVec 22} {c : BitVec 8} {tv : Word} (hc : c.toNat < 0x40)
    (h : s.relTarget ((s.own : Int) + 4 * s.imm i) = raise c 0 tv) :
    ∀ j ∈ [Instr.j i, .jal i], exec j s = .next ((s.takeTrap c 0 tv s.me.pc.toNat false).afterRetire) := by
  simp only [List.forall_mem_cons, List.not_mem_nil]
  refine ⟨?_, ?_, nofun⟩
  · rw [← s.finish_raise (.j i) c 0 tv hc, show exec (.j i) s = s.finish (.j i) ((s.relTarget _).map _) from rfl, h]; rfl
  · rw [← s.finish_raise (.jal i) c 0 tv hc, show exec (.jal i) s = s.finish (.jal i) ((s.relTarget _).map _) from rfl, h]; rfl

/-- So do JR and JALR. -/
theorem exec_jumpReg_raise {s : State} {d a : BitVec 6} {c : BitVec 8} {tv : Word} (hc : c.toNat < 0x40)
    (h : s.regTarget (s.getS a) = raise c 0 tv) :
    ∀ j ∈ [Instr.jr a, .jalr d a], exec j s = .next ((s.takeTrap c 0 tv s.me.pc.toNat false).afterRetire) := by
  simp only [List.forall_mem_cons, List.not_mem_nil]
  refine ⟨?_, ?_, nofun⟩
  · rw [← s.finish_raise (.jr a) c 0 tv hc, show exec (.jr a) s = s.finish (.jr a) ((s.regTarget _).map _) from rfl, h]; rfl
  · rw [← s.finish_raise (.jalr d a) c 0 tv hc, show exec (.jalr d a) s = s.finish (.jalr d a) ((s.regTarget _).map _) from rfl, h]; rfl

/-! ### The last word -/

/-- A unit in no loop whose next sequential address is 0x1_0000 has no effect and raises FETCH_BOUND (R30). -/
theorem State.finishSeq_bound {s t : State} {i : Instr} (hl : innermost t.me.lstk = none) (hn : s.own + 4 * wordsOf i = 0x10000) :
    s.finishSeq i (.ok t) = .next ((s.takeTrap cFETCH 0 0x10000 s.me.pc.toNat false).afterRetire) := by
  have hc : completeLoops s.me.pc.toNat (s.own + 4 * wordsOf i) t.me.lstk = (t.me.lstk, .at 0x10000) := by
    simp [completeLoops, hl, hn]
  show Host.Outcome.next (s.retireSeq t (wordsOf i)) = _
  unfold State.retireSeq
  simp only [hc, if_true]

/-- Settles O12: the check of the target decides how a transfer ends; ADD in the last word ends with the bound. -/
theorem transferAndSequenceBounds : Obligations.TransferAndSequenceBounds := by
  unfold Obligations.TransferAndSequenceBounds
  refine ⟨fun s d a i => ⟨fun j hj => ⟨fun h => ?_, fun h0 hc h4 hl => ?_⟩, fun j hj => ⟨fun h => ?_, fun h hc h4 => ?_, fun h hc h4 hl => ?_⟩⟩,
    fun s d a b _ hl hn => ?_⟩
  · exact exec_jump_raise (by decide) (s.relTarget_out _ h) j hj
  · exact exec_jump_raise (by decide) (s.relTarget_unmarked _ h0 hc h4 hl) j hj
  · exact exec_jumpReg_raise (by decide) (s.regTarget_out _ h) j hj
  · exact exec_jumpReg_raise (by decide) (s.regTarget_misaligned _ h hc h4) j hj
  · exact exec_jumpReg_raise (by decide) (s.regTarget_unmarked _ h hc h4 hl) j hj
  · have hs : innermost (s.setS d (s.getS a + s.getS b)).me.lstk = none := by rw [State.me_setS]; exact hl
    exact State.finishSeq_bound (i := .add d a b) hs hn

end Sys2Proof.Machine
end

section
/-! Trap entry and return: what taking a trap leaves of the strands and of local memory, for each policy. -/
namespace Sys2Proof.Machine

/-! ### Earlier local stores performed -/

theorem Tile.putPart_control (x : Tile) (p : Pend) : (x.putPart p).strands = x.strands ∧ (x.putPart p).dbg = x.dbg := by
  have h : ∀ (l : List WCell) (y : Tile), let z := l.foldl (fun (y : Tile) c => y.writeBytes c.addr [c.onto (y.byte c.addr)]) y
      z.strands = y.strands ∧ z.dbg = y.dbg := by
    intro l
    induction l with
    | nil => exact fun y => ⟨rfl, rfl⟩
    | cons c r ih => exact fun y => ih (y.writeBytes c.addr [c.onto (y.byte c.addr)])
  unfold Tile.putPart
  split <;> exact h p.cells x

theorem Tile.performPart_control (mgmt : Bool) (x : Tile) (p : Pend) :
    (Tile.performPart mgmt x p).strands = x.strands ∧ (Tile.performPart mgmt x p).dbg = x.dbg := by
  obtain ⟨hs, hd, -⟩ := Tile.touch_strands x mgmt p.line p.mask
  obtain ⟨hs', hd'⟩ := (x.touch mgmt p.line p.mask).putPart_control p
  exact ⟨hs'.trans hs, hd'.trans hd⟩

/-- Performing stores leaves the strands and the debug registers of the tile. -/
theorem Tile.performWhere_control (x : Tile) (mgmt : Bool) (f : Pend → Bool) :
    (x.performWhere mgmt f).strands = x.strands ∧ (x.performWhere mgmt f).dbg = x.dbg := by
  refine List.foldlRecOn (motive := fun y : Tile => y.strands = x.strands ∧ y.dbg = x.dbg) _ _ ⟨rfl, rfl⟩ fun y hy p _ => ?_
  obtain ⟨hs, hd⟩ := Tile.performPart_control mgmt y p
  exact ⟨hs.trans hy.1, hd.trans hy.2⟩

theorem State.release_here (s : State) : s.release.here.strands = s.here.strands ∧ s.release.here.dbg = s.here.dbg := by
  unfold State.release
  split
  · rw [State.here_setHere]; exact Tile.performWhere_control ..
  · exact ⟨rfl, rfl⟩

/-- The state in which a trap is entered: the strand's earlier local stores performed, the cause noted. -/
def State.beforeTrap (s : State) (c : BitVec 8) : State := { s.release with trapped := some c }

theorem State.beforeTrap_curTile (s : State) (c : BitVec 8) : (s.beforeTrap c).curTile = s.curTile := by
  unfold State.beforeTrap State.release; split <;> rfl

theorem State.beforeTrap_curStrand (s : State) (c : BitVec 8) : (s.beforeTrap c).curStrand = s.curStrand := by
  unfold State.beforeTrap State.release; split <;> rfl

theorem State.beforeTrap_here (s : State) (c : BitVec 8) : (s.beforeTrap c).here = s.release.here := rfl

theorem State.beforeTrap_strand (s : State) (c : BitVec 8) (n : BitVec 2) : (s.beforeTrap c).here.strand n = s.here.strand n := by
  simp only [Tile.strand, State.beforeTrap_here, (State.release_here s).1]

theorem State.beforeTrap_me (s : State) (c : BitVec 8) : (s.beforeTrap c).me = s.me := by
  rw [State.me, State.beforeTrap_curStrand, State.beforeTrap_strand]; rfl

/-! ### What a trap saves -/

/-- The strand of a trap that policy p decides: TCAUSE, TPC and TVAL written and its unit over (R38). -/
def Strand.saved (r : Strand) (p : Nat) (c sub : BitVec 8) (tv : Word) (ret : Nat) : Strand :=
  { r with tcause := BitVec.ofNat 18 (p * 65536 + sub.toNat * 256 + c.toNat), tpc := BitVec.ofNat 16 (ret / 4 * 4), tval := tv,
           st := .run, wait := none, stall := none, pfx := [], touched := [], gread := none, walk := none, vseq := none, early := {},
           badEntry := none }

/-- The cause does not halt the tile: it is none of the debug class, or the debug module is off or stands at a management tile (R421). -/
abbrev State.noHalt (s : State) (c : BitVec 8) : Prop :=
  c.toNat < 0x38 ∨ 0x3A < c.toNat ∨ s.here.dbg.en = false ∨ isMgmt s.curTile = true

theorem State.noHalt_beforeTrap {s : State} {c : BitVec 8} (h : s.noHalt c) :
    ¬ ((0x38 ≤ c.toNat ∧ c.toNat ≤ 0x3A) ∧ (s.beforeTrap c).here.dbg.en = true ∧ (!isMgmt (s.beforeTrap c).curTile) = true) := by
  rw [State.beforeTrap_here, (State.release_here s).2, State.beforeTrap_curTile]
  rintro ⟨⟨hlo, hhi⟩, hen, hm⟩
  rcases h with h | h | h | h
  · omega
  · omega
  · simp [h] at hen
  · simp [h] at hm

/-- The policy that a trap follows: HANDLE without an enabled handler, or with TH set, is ESCALATE (R38, R39). -/
def Strand.trapPolicy (r : Strand) (c : BitVec 8) : Nat :=
  if policyOf r.tpol c = 0 ∧ (!bitAt r.tvec.toNat 0 ∨ r.th) then 2 else policyOf r.tpol c

theorem bitAt_toNat {w : Nat} (v : BitVec w) (i : Nat) : bitAt v.toNat i = v.getLsbD i := by
  rw [bitAt, BitVec.getLsbD, Nat.testBit_eq_decide_div_mod_eq, Bool.beq_eq_decide_eq]

/-- Trap entry without a halt of the tile and without a lost error: to the handler, to the wait for the abort, or parked. -/
theorem State.takeTrap_eq {s : State} {c : BitVec 8} (sub : BitVec 8) (tv : Word) (ret : Nat) (hd : s.noHalt c) :
    let p := s.me.trapPolicy c
    let u := s.beforeTrap c
    let r := s.me.saved p c sub tv ret
    let h := bitsOf s.me.tvec.toNat 15 2 * 4
    s.takeTrap c sub tv ret false =
      if p = 0 then (u.setMe { r with th := true, pc := BitVec.ofNat 16 h }).branchRecord u.curTile u.curStrand 2 (s.me.unitOf c).toNat h
      else if p = 1 then
        ((u.setMe { r with st := .wait, wait := some { kind := .aborted, instr := .nop, pfx := [], since := u.cycle } }).voteAbort
          u.curTile c).formArrival u.curTile
      else if 0x80 ≤ c.toNat then
        (u.setMe { r with st := .park }).tileEvent u.curTile 0x0003 (u.curStrand.setWidth 8)
          (BitVec.ofNat 64 (c.toNat + s.me.s[16].toNat % 2 ^ 56 * 256)) 0
      else
        (u.setMe { r with st := .park }).tileEvent u.curTile 0x0001 (u.curStrand.setWidth 8) tv
          (BitVec.ofNat 64 (c.toNat + sub.toNat * 2 ^ 8 + p * 2 ^ 16 + ret / 4 % 2 ^ 14 * 2 ^ 18)) := by
  -- with the strand read after the stores are performed, the two sides are the same text
  have hm := s.beforeTrap_me c
  generalize s.me = m at hm
  subst hm
  exact if_neg (State.noHalt_beforeTrap hd)

/-! ### What the reports of a trap leave -/

/-- The current strand is the same one, and every strand of every tile is as it was. -/
structure State.SameStrands (s t : State) : Prop where
  curTile : t.curTile = s.curTile
  curStrand : t.curStrand = s.curStrand
  strands : ∀ u, (t.tile u).strands = (s.tile u).strands

namespace State.SameStrands
variable {s t u : State}

theorem refl (s : State) : s.SameStrands s := ⟨rfl, rfl, fun _ => rfl⟩

theorem trans (h : s.SameStrands t) (g : t.SameStrands u) : s.SameStrands u :=
  ⟨g.curTile.trans h.curTile, g.curStrand.trans h.curStrand, fun k => (g.strands k).trans (h.strands k)⟩

theorem here (h : s.SameStrands t) (n : BitVec 2) : t.here.strand n = s.here.strand n := by
  simp only [State.here, Tile.strand, h.curTile, h.strands]

theorem me (h : s.SameStrands t) : t.me = s.me := by
  rw [State.me, h.here, h.curStrand]; rfl

/-- An update of one tile that leaves the strands of that tile. -/
theorem setTile {k : Nat} {x : Tile} (h : x.strands = (s.tile k).strands) : s.SameStrands (s.setTile k x) := by
  refine ⟨rfl, rfl, fun j => ?_⟩
  by_cases hj : j = k
  · subst hj; rw [State.setTile_tile_self, h]
  · rw [State.setTile_tile_ne s x hj]

theorem send (h : s.SameStrands t) (m : Msg) : s.SameStrands (t.send m) := ⟨h.curTile, h.curStrand, h.strands⟩

theorem setMod (h : s.SameStrands t) (m : Nat) (x : Module) : s.SameStrands (t.setMod m x) := ⟨h.curTile, h.curStrand, h.strands⟩

end State.SameStrands

/-- What a record of the branch trace leaves: of every tile all but its debug registers. -/
structure State.SameButTrace (s t : State) : Prop where
  curTile : t.curTile = s.curTile
  curStrand : t.curStrand = s.curStrand
  tile : ∀ u, ∃ d : Debug, t.tile u = { s.tile u with dbg := d }

theorem State.SameButTrace.refl (s : State) : s.SameButTrace s := ⟨rfl, rfl, fun _ => ⟨_, rfl⟩⟩

theorem State.SameButTrace.setDbg (s : State) (k : Nat) (d : Debug) : s.SameButTrace (s.setTile k { s.tile k with dbg := d }) := by
  refine ⟨rfl, rfl, fun u => ?_⟩
  by_cases h : u = k
  · subst h; exact ⟨d, State.setTile_tile_self s u _⟩
  · exact ⟨(s.tile u).dbg, State.setTile_tile_ne s _ h⟩

theorem State.SameButTrace.setMod {s t : State} (h : s.SameButTrace t) (m : Nat) (x : Module) : s.SameButTrace (t.setMod m x) :=
  ⟨h.curTile, h.curStrand, h.tile⟩

theorem State.SameButTrace.sameStrands {s t : State} (h : s.SameButTrace t) : s.SameStrands t :=
  ⟨h.curTile, h.curStrand, fun u => by obtain ⟨d, hd⟩ := h.tile u; rw [hd]⟩

theorem State.SameButTrace.byte {s t : State} (h : s.SameButTrace t) (u x : Nat) : (t.tile u).byte x = (s.tile u).byte x := by
  obtain ⟨d, hd⟩ := h.tile u; rw [hd]; rfl

theorem State.traceRecord_sameButTrace (s : State) (t w : Nat) : s.SameButTrace (s.traceRecord t w) := by
  unfold State.traceRecord
  extract_lets
  split
  · exact .setDbg s t _
  · exact (State.SameButTrace.setDbg s t _).setMod _ _

theorem State.branchRecord_sameButTrace (s : State) (t : Nat) (n : BitVec 2) (kd a b : Nat) :
    s.SameButTrace (s.branchRecord t n kd a b) := by
  unfold State.branchRecord
  extract_lets
  split
  · exact s.traceRecord_sameButTrace t _
  · exact .refl s

theorem State.voteAbort_sameStrands (s : State) (t : Nat) (c : BitVec 8) : s.SameStrands (s.voteAbort t c) := by
  unfold State.voteAbort
  extract_lets x y
  split
  · split
    · exact .send (.setTile (by rfl)) _
    · exact .setTile rfl
  · exact .setTile rfl

theorem State.formArrival_sameStrands (s : State) (t : Nat) : s.SameStrands (s.formArrival t) := by
  unfold State.formArrival
  extract_lets x
  split
  · exact .refl s
  · split
    · exact .send (.setTile (by rfl)) _
    · exact .refl s

theorem Tile.tryAppend_strands {x y : Tile} {q : BitVec 2} {ch : Nat} {rec : List Byte} (h : x.tryAppend q ch rec = some y) :
    y.strands = x.strands := by
  obtain ⟨r, -, rfl⟩ := Option.map_eq_some_iff.mp h
  exact List.foldlRecOn (motive := fun z : Tile => z.strands = x.strands) _ _ rfl fun _ hz _ _ => hz

theorem State.deliverEvent_sameStrands {s t : State} {m : Nat} {e : Event} (h : s.deliverEvent m e = some t) : s.SameStrands t := by
  unfold State.deliverEvent at h
  extract_lets at h
  split at h
  · obtain ⟨y, hy, rfl⟩ := Option.map_eq_some_iff.mp h
    exact .setTile (Tile.tryAppend_strands hy)
  · cases h

/-- An event to the supervisor changes rings and the module's list of events, and no strand. -/
theorem State.tileEvent_sameStrands (s : State) (t : Nat) (code : BitVec 16) (n : BitVec 8) (v e : Word) :
    s.SameStrands (s.tileEvent t code n v e) := by
  unfold State.tileEvent State.emit
  extract_lets md hold
  have hhold : s.SameStrands hold := by
    unfold hold; split <;> exact (State.SameStrands.refl s).setMod _ _
  split
  · cases hd : s.deliverEvent (modOf t) _ with
    | none => exact hhold
    | some u => exact State.deliverEvent_sameStrands hd
  · exact hhold

/-! ### The strand after trap entry -/

/-- A trap reported and recorded after one update of the strand that took it leaves that strand as updated. -/
theorem State.beforeTrap_setMe_me {s t : State} {c : BitVec 8} {r : Strand} (h : ((s.beforeTrap c).setMe r).SameStrands t) : t.me = r :=
  h.me.trans (State.me_setMe _ _)

/-- Under HANDLE, with an enabled handler and TH clear, the strand goes to the handler; only the strand and the debug registers of a
tile change (R38). -/
theorem State.takeTrap_handle {s : State} {c sub : BitVec 8} {tv : Word} {ret : Nat} (hd : s.noHalt c) (hp : policyOf s.me.tpol c = 0)
    (hv : s.me.tvec.getLsbD 0 = true) (ht : s.me.th = false) :
    let h := bitsOf s.me.tvec.toNat 15 2 * 4
    s.takeTrap c sub tv ret false =
      ((s.beforeTrap c).setMe { s.me.saved 0 c sub tv ret with th := true, pc := BitVec.ofNat 16 h }).branchRecord s.curTile s.curStrand 2
        (s.me.unitOf c).toNat h := by
  have hpol : s.me.trapPolicy c = 0 := by simp [Strand.trapPolicy, hp, bitAt_toNat, hv, ht]
  rw [State.takeTrap_eq sub tv ret hd, hpol, if_pos rfl, State.beforeTrap_curTile, State.beforeTrap_curStrand]

/-- Under ABORT it waits for the abort, its cause saved (R38). -/
theorem State.takeTrap_abort {s : State} {c sub : BitVec 8} {tv : Word} {ret : Nat} (hd : s.noHalt c) (hp : s.me.trapPolicy c = 1) :
    (s.takeTrap c sub tv ret false).me = { s.me.saved 1 c sub tv ret with
      st := .wait, wait := some { kind := .aborted, instr := .nop, pfx := [], since := (s.beforeTrap c).cycle } } := by
  rw [State.takeTrap_eq sub tv ret hd, hp, if_neg (by decide), if_pos rfl]
  exact State.beforeTrap_setMe_me ((State.voteAbort_sameStrands _ _ _).trans (State.formArrival_sameStrands _ _))

/-- Under ESCALATE it parks, its cause saved (R38). -/
theorem State.takeTrap_escalate {s : State} {c sub : BitVec 8} {tv : Word} {ret : Nat} (hd : s.noHalt c) (hp : s.me.trapPolicy c = 2) :
    (s.takeTrap c sub tv ret false).me = { s.me.saved 2 c sub tv ret with st := .park } := by
  rw [State.takeTrap_eq sub tv ret hd, hp, if_neg (by decide), if_neg (by decide)]
  split <;> exact State.beforeTrap_setMe_me (State.tileEvent_sameStrands _ _ _ _ _ _)

/-- Settles O20, policy by policy. -/
theorem trapEntryFollowsThePolicy : Obligations.TrapEntryFollowsThePolicy := by
  unfold Obligations.TrapEntryFollowsThePolicy
  refine ⟨fun s c sub tv ret hp hv ht hd => ?_, fun s c sub tv ret hd => ⟨fun hp => ?_, fun hp => ?_⟩⟩
  · have hv' : bitsOf s.me.tvec.toNat 15 2 * 4 = s.me.tvec.toNat / 4 * 4 := by unfold bitsOf; omega
    intro t
    have htt : t = _ := State.takeTrap_handle hd hp hv ht
    rw [hv'] at htt
    rw [htt]
    have hb := State.branchRecord_sameButTrace
      ((s.beforeTrap c).setMe { s.me.saved 0 c sub tv ret with th := true, pc := BitVec.ofNat 16 (s.me.tvec.toNat / 4 * 4) })
      s.curTile s.curStrand 2 (s.me.unitOf c).toNat (s.me.tvec.toNat / 4 * 4)
    refine ⟨?_, fun u x => (hb.byte u x).trans (State.setMe_tile_byte _ _ u x), fun n hn => ?_⟩
    · rw [State.beforeTrap_setMe_me hb.sameStrands]
      simp [Strand.saved]
    · rw [hb.sameStrands.here, State.here_setMe, State.beforeTrap_curStrand, Tile.strand_setStrand_ne _ _ hn, State.beforeTrap_strand]
  · have h2 : s.me.trapPolicy c = 2 := by
      rw [Strand.trapPolicy, bitAt_toNat]
      obtain hp | ⟨hp, hv⟩ := hp
      · rw [hp]; rfl
      · exact if_pos ⟨hp, hv.imp_left fun h => by rw [h]; rfl⟩
    exact State.takeTrap_escalate hd h2
  · have h1 : s.me.trapPolicy c = 1 := by simp [Strand.trapPolicy, hp]
    exact ⟨_, State.takeTrap_abort hd h1, rfl⟩

/-! ### Causes that an instruction names, and the return -/

/-- RTT with TH set clears it and goes on at TPC, its bits 1:0 read as 0 (R41). -/
theorem State.returnFromTrap_ok {s : State} (h : s.me.th = true) :
    s.returnFromTrap = .ok (s.setMe { s.me with th := false }, .rtt (s.me.tpc.toNat / 4 * 4)) := by
  have ha : bitsOf s.me.tpc.toNat 15 2 * 4 = s.me.tpc.toNat / 4 * 4 := by unfold bitsOf; omega
  rw [State.returnFromTrap, if_neg (by simp [h]), ha]

/-- A unit that RTT ends retires at an address below 0x1_0000 with its record in the branch trace and nothing more, unless it steps or has
accessed memory. -/
theorem State.finish_rtt {s t : State} {a : Nat} (ha : a < 0x10000) (hs : t.me.stepping = false) (ht : t.me.touched = []) (i : Instr) :
    s.finish i (.ok (t, .rtt a)) = .next ((t.branchRecord t.curTile t.curStrand 3 s.own a).arriveAt a) := by
  have hme := (t.branchRecord_sameButTrace t.curTile t.curStrand 3 s.own a).sameStrands.me
  show Host.Outcome.next (s.retireTo _ a) = _
  rw [State.retireTo, if_neg (by omega), State.afterRetire_quiet _ (by simp [hme, ht]) (by simp [hme, hs])]

/-- Settles O19: each cause by what its instruction raises, and the return by where TPC points. A TPC behind the last word wraps to 0 (log
entry 39). -/
theorem trapsAndReturn : Obligations.TrapsAndReturn := by
  unfold Obligations.TrapsAndReturn
  intro s c n x hs ht
  refine ⟨fun hc => ?_, fun hn => ?_, ?_, fun h => ?_, fun h => ?_⟩
  · exact s.finish_raise_past (.trap c) _ 0 0 (by rw [BitVec.toNat_setWidth]; omega)
  · exact s.finish_raise_past (.svc n) n 0 (s.getS 16) (by omega)
  · exact s.finishSeq_raise (.ill x) cILLOP 1 _ (by decide)
  · have hr : s.returnFromTrap = raise cILLENC 0 0 := if_pos (by simp [h])
    exact (congrArg (s.finish .rtt) hr).trans (s.finish_raise .rtt cILLENC 0 0 (by decide))
  · refine (congrArg (s.finish .rtt) (State.returnFromTrap_ok h)).trans ?_
    exact State.finish_rtt (by omega) (by simp [hs]) (by simp [ht]) .rtt

end Sys2Proof.Machine
end

section
/-! MFS: what every control register reads. -/
namespace Sys2Proof.Machine

/-! ### Strand and tile registers -/

/-- MFS of the strand or tile register k, which reads v, writes v to its destination. -/
theorem mfs_completes {s : State} {d : BitVec 6} {k : Nat} {v : Word} (h : s.plain 1 = true) (hk : k < 512)
    (hv : s.readReg s.curTile s.curStrand k = some v) : Completes (.mfs d (BitVec.ofNat 10 k)) s (s.setS d v) := by
  have hn : (BitVec.ofNat 10 k).toNat = k := Nat.mod_eq_of_lt (by omega)
  refine Completes.of_putS h (v := v) (congrArg (s.finishSeq _) ?_) rfl
  rw [hn, if_neg (by omega), if_neg (by omega), hv]

/-- MFS of the register k of the module, in supervisor mode. -/
theorem mfs_completes_sup {s : State} {d : BitVec 6} {k : Nat} {v : Word} (h : s.plain 1 = true) (hs : s.supervisor = true)
    (hlo : 512 ≤ k) (hhi : k < 1024) (hv : s.readSup (modOf s.curTile) k = some v) :
    Completes (.mfs d (BitVec.ofNat 10 k)) s (s.setS d v) := by
  have hn : (BitVec.ofNat 10 k).toNat = k := Nat.mod_eq_of_lt (by omega)
  refine Completes.of_putS h (v := v) (congrArg (s.finishSeq _) ?_) rfl
  rw [hn, if_neg (by simp [hs]), if_pos hlo, hv]

/-- The latency accounts (R24). -/
theorem State.readReg_latacc (s : State) (t : Nat) (n : BitVec 2) {r : Nat} (h : 280 ≤ r ∧ r ≤ 343) :
    s.readReg t n r = some (SMap.get 0 (s.tile t).latacc (r - 280)) := by
  unfold State.readReg
  dsimp only
  split
  on_goal 48 => exact if_pos h
  all_goals omega

/-- Where CODEST.reg has put a value over PTID, STRN, RETU or RETC, the register reads it, and elsewhere its own (R484, log entry 14). -/
theorem State.readReg_computed (s : State) (t : Nat) (n : BitVec 2) :
    let shown : Nat → Word → Word := fun r v => (SMap.find (s.strand t n).forced r).getD v
    s.readReg t n 30 = some (shown 30 (BitVec.ofNat 64 (ptidOf t))) ∧ s.readReg t n 31 = some (shown 31 (n.setWidth 64)) ∧
      s.readReg t n 33 = some (shown 33 (BitVec.ofNat 64 (s.tile t).retu)) ∧ s.readReg t n 34 = some (shown 34 65536) :=
  ⟨rfl, rfl, rfl, rfl⟩

/-- ELECT (R260) of a cluster: bit 4 is the one that CODEST.reg has put over it or, with none, whether the tile is elected. -/
def electWord (k : Cluster) (elected : Bool) (o : Option Word) : Word :=
  BitVec.ofNat 64 (k.elect.toNat + if o.elim elected (BitVec.getLsbD · 4) then 16 else 0)

theorem State.readReg_elect (s : State) (t : Nat) (n : BitVec 2) :
    let k := s.cluster (clusterOf t)
    s.readReg t n 35 = some (electWord k (isMgmt t || t % 16 == k.elect.toNat) (SMap.find (s.strand t n).forced 35)) := by
  unfold State.readReg State.strand
  cases h : SMap.find ((s.tile t).strand n).forced 35 <;> simp only [h] <;> rfl

/-! ### Registers of the module -/

/-- The fields of a word laid out as SCRUBP (R480). -/
theorem scrubp_layout (idle quar : Bool) (n units : Nat) :
    let w := BitVec.ofNat 64 ((if idle then 0 else 2 ^ 63) + (if quar then 2 ^ 62 else 0) + n % 2 ^ 16 * 2 ^ 32 + units % 2 ^ 32)
    w.getLsbD 63 = !idle ∧ bitsOf w.toNat 47 32 = n % 2 ^ 16 ∧ w.toNat % 2 ^ 32 = units % 2 ^ 32 := by
  intro w
  rw [← bitAt_toNat]
  simp only [w, BitVec.toNat_ofNat, bitsOf, bitAt]
  cases idle <;> cases quar <;> simp <;> omega

/-- SCRUBP reads 0 where nothing is scrubbed, no cluster is in service and none is listed. -/
theorem State.scrubp_zero {s : State} {m : Nat} (hs : (s.mod m).scrubs = []) (hv : (s.mod m).service = []) (hc : s.clusters = []) :
    s.scrubp m = 0 := by
  simp [State.scrubp, hs, hv, hc]

theorem testBit_foldl_or (f : Nat → Nat) (i : Nat) (l : List Nat) (a : Nat) :
    (l.foldl (fun a j => a ||| 2 ^ f j) a).testBit i = (a.testBit i || l.any (fun j => f j == i)) := by
  induction l generalizing a with
  | nil => simp
  | cons j l ih => rw [List.foldl_cons, ih, Nat.testBit_or, Nat.testBit_two_pow, List.any_cons, Bool.or_assoc, Bool.beq_eq_decide_eq]

/-- A bit of MBXP is 1 where a mailbox of that number has a request pending (R480). -/
theorem mbxp_bit (l : List Nat) {i : Nat} (h : i < 64) :
    (BitVec.ofNat 64 (l.foldl (fun a j => a ||| 2 ^ (j % 16)) 0)).getLsbD i = l.any (fun b => b % 16 == i) := by
  rw [BitVec.getLsbD_ofNat, testBit_foldl_or (· % 16) i l 0]
  simp [h]

/-- Settles O16: the value that each number reads, where CODEST.reg has put nothing over it and where it has; then the module's registers.
PTID and TICK of a management tile are log entry 6, MODID log entry 10, and the island that ISLCTL shows log entry 43. -/
theorem mfsReadsControlRegisters : Obligations.MfsReadsControlRegisters := by
  unfold Obligations.MfsReadsControlRegisters
  intro s d h
  obtain ⟨hptid, hstrn, hretu, hretc⟩ := s.readReg_computed s.curTile s.curStrand
  have helect := s.readReg_elect s.curTile s.curStrand
  refine ⟨fun p hp hf => ?_, fun v n hn hf => ?_, fun v hf => ?_, fun j hj => ?_, fun hs => ⟨?_, ?_⟩, fun hs => ?_⟩
  · simp only [List.mem_cons, List.not_mem_nil, or_false] at hp
    rcases hp with rfl | rfl | rfl | rfl | rfl | rfl | rfl | rfl | rfl | rfl | rfl | rfl | rfl | rfl | rfl | rfl | rfl | rfl | rfl | rfl |
      rfl | rfl | rfl | rfl | rfl | rfl | rfl | rfl | rfl | rfl | rfl | rfl | rfl | rfl | rfl | rfl | rfl | rfl | rfl | rfl | rfl | rfl |
      rfl | rfl | rfl
    -- the five numbers over which CODEST.reg may put a value, from the last
    on_goal 36 => exact mfs_completes h (by simp) (helect.trans (congrArg (fun o => some (electWord _ _ o)) hf))
    on_goal 35 => exact mfs_completes h (by simp) (hretc.trans (congrArg (fun o => some (Option.getD o _)) hf))
    on_goal 34 => exact mfs_completes h (by simp) (hretu.trans (congrArg (fun o => some (Option.getD o _)) hf))
    on_goal 32 => exact mfs_completes h (by simp) (hptid.trans (congrArg (fun o => some (Option.getD o _)) hf))
    on_goal 31 => exact mfs_completes h (by simp) (hstrn.trans (congrArg (fun o => some (Option.getD o _)) hf))
    all_goals exact mfs_completes h (by simp) rfl
  · simp only [List.mem_cons, List.not_mem_nil, or_false] at hn
    rcases hn with rfl | rfl | rfl | rfl
    · exact mfs_completes h (by decide) (hptid.trans (congrArg (fun o => some (Option.getD o _)) hf))
    · exact mfs_completes h (by decide) (hstrn.trans (congrArg (fun o => some (Option.getD o _)) hf))
    · exact mfs_completes h (by decide) (hretu.trans (congrArg (fun o => some (Option.getD o _)) hf))
    · exact mfs_completes h (by decide) (hretc.trans (congrArg (fun o => some (Option.getD o _)) hf))
  · exact mfs_completes (k := 35) h (by decide) (helect.trans (congrArg (fun o => some (electWord _ _ o)) hf))
  · refine mfs_completes h (by omega) ((s.readReg_latacc _ _ (by omega)).trans ?_)
    rw [Nat.add_sub_cancel_left]; rfl
  · exact mfs_completes (k := 256) h (by decide) (if_neg (by simpa [State.supervisor] using hs))
  · exact mfs_completes (k := 257) h (by decide) (if_neg (by simpa [State.supervisor] using hs))
  · intro md isl
    obtain ⟨hbusy, hops, hremain⟩ := scrubp_layout md.scrubs.isEmpty
      (!md.scrubs.isEmpty || md.service.any (fun e => e.2 == 2) ||
        s.clusters.any (fun e => isClusterOf (modOf s.curTile) e.1 && (e.2.quar || e.2.failed)))
      md.scrubs.length ((md.scrubs.map ScrubOp.units).foldl (· + ·) 0)
    refine ⟨⟨s.scrubp (modOf s.curTile), ?_, hbusy, State.scrubp_zero, hops, hremain⟩, ?_, ⟨_, ?_, fun i hi => mbxp_bit md.pending hi⟩,
      ?_, ?_, ?_, ?_⟩
    · exact mfs_completes_sup (k := 514) h hs (by decide) (by decide) rfl
    · exact mfs_completes_sup (k := 515) h hs (by decide) (by decide) rfl
    · exact mfs_completes_sup (k := 516) h hs (by decide) (by decide) rfl
    · exact mfs_completes_sup (k := 518) h hs (by decide) (by decide) rfl
    · exact mfs_completes_sup (k := 512) h hs (by decide) (by decide) rfl
    · exact mfs_completes_sup (k := 513) h hs (by decide) (by decide) rfl
    · exact mfs_completes_sup (k := 517) h hs (by decide) (by decide) rfl

end Sys2Proof.Machine
end

section
/-! MTS: what a write to each control register leaves, and which numbers MFS and MTS refuse. -/
namespace Sys2Proof.Machine

/-! ### MTS by what reading and writing the number answer -/

/-- MTS of the strand or tile register k that the mode may write has the effect of the write. -/
theorem mts_writes {s u : State} {a : BitVec 6} {k : Nat} {v : Word} (hk : k < 512)
    (hr : s.readReg s.curTile s.curStrand k = some v) (hw : s.writeReg s.curTile s.curStrand k (s.getS a) = some u) :
    exec (.mts a (BitVec.ofNat 10 k)) s = s.finishSeq (.mts a (BitVec.ofNat 10 k)) (.ok u) := by
  have hn : (BitVec.ofNat 10 k).toNat = k := Nat.mod_eq_of_lt (by omega)
  refine congrArg (s.finishSeq _) ?_
  rw [hn, if_neg (by omega), if_neg (by omega), hr, hw]

/-- MTS of the register k of the module that supervisor mode may write. -/
theorem mts_writes_sup {s u : State} {a : BitVec 6} {k : Nat} {v : Word} (hs : s.supervisor = true) (hlo : 512 ≤ k) (hhi : k < 1024)
    (hr : s.readSup (modOf s.curTile) k = some v) (hw : s.writeSup (modOf s.curTile) k (s.getS a) = some u) :
    exec (.mts a (BitVec.ofNat 10 k)) s = s.finishSeq (.mts a (BitVec.ofNat 10 k)) (.ok u) := by
  have hn : (BitVec.ofNat 10 k).toNat = k := Nat.mod_eq_of_lt (by omega)
  refine congrArg (s.finishSeq _) ?_
  rw [hn, if_neg (by simp [hs]), if_pos hlo, hr, hw]

/-- An effect outside the current strand completes. -/
theorem Completes.of_sameMe {s t : State} {i : Instr} (h : s.plain (wordsOf i) = true) (he : exec i s = s.finishSeq i (.ok t))
    (hm : t.me = s.me) : Completes i s t := by
  obtain ⟨hst, hl, -, hs, ht, -⟩ := (State.plain_iff s _).mp h
  exact Completes.of_quiet h he (by rw [hm, hst]) (by rw [hm, hl]) (by rw [hm, hs]) (by rw [hm, ht])

section
variable {s : State} {a : BitVec 6} {r : BitVec 10}

/-- The trap that MFS and MTS of the number r take: its TVAL is the number. -/
abbrev RegTrap (i : Instr) (s : State) (r : BitVec 10) (c : BitVec 8) : Prop :=
  exec i s = .next ((s.takeTrap c 0 (r.setWidth 64) s.me.pc.toNat false).afterRetire)

theorem regTrap_of_eq {i : Instr} {c : BitVec 8} {e : Except Stop State} (hc : c.toNat < 0x40) (hi : exec i s = s.finishSeq i e)
    (he : e = raise c 0 (r.setWidth 64)) : RegTrap i s r c := by
  rw [RegTrap, hi, he]
  exact s.finishSeq_raise i c 0 _ hc

/-- From 512 up, in user mode. -/
theorem regTrap_privilege (hr : 512 ≤ r.toNat) (hs : s.supervisor = false) : RegTrap (.mfs a r) s r cPRIV ∧ RegTrap (.mts a r) s r cPRIV :=
  ⟨regTrap_of_eq (by decide) rfl (if_pos ⟨hr, hs⟩), regTrap_of_eq (by decide) rfl (if_pos ⟨hr, hs⟩)⟩

/-- A number below 512 of no register. -/
theorem regTrap_unassigned (hr : r.toNat < 512) (h : s.readReg s.curTile s.curStrand r.toNat = none) :
    RegTrap (.mfs a r) s r cILLENC ∧ RegTrap (.mts a r) s r cILLENC := by
  constructor
  · exact regTrap_of_eq (by decide) rfl (by rw [if_neg (by omega), if_neg (by omega), h])
  · exact regTrap_of_eq (by decide) rfl (by rw [if_neg (by omega), if_neg (by omega), h])

/-- A number from 512 up of no register. -/
theorem regTrap_unassigned_sup (hs : s.supervisor = true) (hr : 512 ≤ r.toNat) (h : s.readSup (modOf s.curTile) r.toNat = none) :
    RegTrap (.mfs a r) s r cILLENC ∧ RegTrap (.mts a r) s r cILLENC := by
  constructor
  · exact regTrap_of_eq (by decide) rfl (by rw [if_neg (by simp [hs]), if_pos hr, h])
  · exact regTrap_of_eq (by decide) rfl (by rw [if_neg (by simp [hs]), if_pos hr, h])

/-- A register below 512 that the mode may read and not write. -/
theorem regTrap_readOnly {v : Word} (hr : r.toNat < 512) (h : s.readReg s.curTile s.curStrand r.toNat = some v)
    (hw : s.writeReg s.curTile s.curStrand r.toNat (s.getS a) = none) : RegTrap (.mts a r) s r cPRIV :=
  regTrap_of_eq (by decide) rfl (by rw [if_neg (by omega), if_neg (by omega), h, hw])

/-- A register of the module that is read only. -/
theorem regTrap_readOnly_sup {v : Word} (hs : s.supervisor = true) (hr : 512 ≤ r.toNat)
    (h : s.readSup (modOf s.curTile) r.toNat = some v) (hw : s.writeSup (modOf s.curTile) r.toNat (s.getS a) = none) :
    RegTrap (.mts a r) s r cPRIV :=
  regTrap_of_eq (by decide) rfl (by rw [if_neg (by simp [hs]), if_pos hr, h, hw])

end

/-! ### Which numbers are read and written -/

theorem readReg_readOnly (s : State) (t : Nat) (n : BitVec 2) (v : Word) {k : Nat}
    (h : k ∈ [0, 12, 14, 18, 19, 23, 29, 30, 31, 32, 33, 34, 35, 36, 264, 270, 271, 272] ∨ 280 ≤ k ∧ k ≤ 343) :
    (∃ w, s.readReg t n k = some w) ∧ s.writeReg t n k v = none := by
  obtain h | h := h
  · simp only [List.mem_cons, List.not_mem_nil, or_false] at h
    rcases h with rfl | rfl | rfl | rfl | rfl | rfl | rfl | rfl | rfl | rfl | rfl | rfl | rfl | rfl | rfl | rfl | rfl | rfl
    all_goals exact ⟨⟨_, rfl⟩, rfl⟩
  · refine ⟨⟨_, s.readReg_latacc t n h⟩, ?_⟩
    unfold State.writeReg
    dsimp only
    split
    on_goal 30 => rfl
    all_goals omega

theorem readReg_unassigned (s : State) (t : Nat) (n : BitVec 2) {k : Nat}
    (h : 37 ≤ k ∧ k ≤ 255 ∨ k = 258 ∨ k = 259 ∨ 265 ≤ k ∧ k ≤ 269 ∨ 273 ≤ k ∧ k ≤ 279 ∨ 344 ≤ k ∧ k ≤ 511) : s.readReg t n k = none := by
  have hn : ¬ (280 ≤ k ∧ k ≤ 343) := by omega
  unfold State.readReg
  dsimp only
  split
  on_goal 48 => exact if_neg hn
  all_goals omega

theorem readSup_unassigned (s : State) (m : Nat) {k : Nat} (h : 519 ≤ k) : s.readSup m k = none := by
  unfold State.readSup
  dsimp only
  split
  on_goal 8 => rfl
  all_goals omega

theorem readSup_readOnly (s : State) (m : Nat) (v : Word) {k : Nat} (h : k ∈ [514, 515, 516]) :
    (∃ w, s.readSup m k = some w) ∧ s.writeSup m k v = none := by
  simp only [List.mem_cons, List.not_mem_nil, or_false] at h
  rcases h with rfl | rfl | rfl
  all_goals exact ⟨⟨_, rfl⟩, rfl⟩

/-- A write of a loop-stack entry (R143). -/
theorem writeReg_lstk (s : State) (t : Nat) (n : BitVec 2) (j : Fin 4) (v : Word) :
    let z := (s.tile t).strand n
    s.writeReg t n (25 + j) v =
        some (s.setTile t ((s.tile t).setStrand n { z with lstk := z.lstk.set j (v &&& 0xFFFFFFFCFFFFFFFF) })) ∧
      ∃ w, s.readReg t n (25 + j) = some w :=
  match j with
  | 0 => ⟨rfl, _, rfl⟩
  | 1 => ⟨rfl, _, rfl⟩
  | 2 => ⟨rfl, _, rfl⟩
  | 3 => ⟨rfl, _, rfl⟩

/-! ### Fields written -/

theorem ofNat_bits_47_32 (v : Word) : BitVec.ofNat 16 (bitsOf v.toNat 47 32) = (v >>> 32).setWidth 16 := by
  apply BitVec.eq_of_toNat_eq
  simp [bitsOf, Nat.shiftRight_eq_div_pow]

theorem ofNat_mod_32 (v : Word) : BitVec.ofNat 64 (v.toNat % 32) = v &&& 0x1F := by
  apply BitVec.eq_of_toNat_eq
  refine .trans ?_ (Nat.and_two_pow_sub_one_eq_mod v.toNat 5).symm
  exact Nat.mod_eq_of_lt (by omega)

/-- The digits of a number of six digits to base 4. -/
theorem digits_four (m : Nat → Nat) (hm : ∀ i, m i < 4) {i : Nat} (h : i < 6) :
    (span 0 6).foldl (fun a i => a + m i * 4 ^ i) 0 % 2 ^ 12 / 4 ^ i % 4 = m i := by
  have h0 := hm 0; have h1 := hm 1; have h2 := hm 2; have h3 := hm 3; have h4 := hm 4; have h5 := hm 5
  simp only [span, List.foldl, Nat.reduceAdd, Nat.reducePow]
  interval_cases i <;> omega

/-- A field of TPOL written 3 holds 2 (R420). -/
theorem tpolWrite_field (v : Word) {i : Nat} (h : i < 6) : (tpolWrite v).toNat / 4 ^ i % 4 = min (v.toNat / 4 ^ i % 4) 2 := by
  have hb : ∀ j, bitsOf v.toNat (2 * j + 1) (2 * j) = v.toNat / 4 ^ j % 4 := by
    intro j
    rw [bitsOf, pow_mul, show 2 * j + 1 + 1 - 2 * j = 2 by omega]
    rfl
  rw [← hb]
  exact digits_four (fun j => min (bitsOf v.toNat (2 * j + 1) (2 * j)) 2) (fun j => by omega) h

/-- No loop is open when no entry is active (R144). -/
theorem innermost_eq_none {l : Vector Word 4} : innermost l = none ↔ ∀ i : Fin 4, entV l[i] = false := by
  have hall : (∀ i : Fin 4, entV l[i] = false) ↔ entV l[0] = false ∧ entV l[1] = false ∧ entV l[2] = false ∧ entV l[3] = false :=
    ⟨fun h => ⟨h 0, h 1, h 2, h 3⟩, fun ⟨h0, h1, h2, h3⟩ i => match i with | 0 => h0 | 1 => h1 | 2 => h2 | 3 => h3⟩
  rw [hall, innermost]
  split_ifs <;> simp_all

theorem innermost_set_none {l : Vector Word 4} (h : innermost l = none) (j : Fin 4) {e : Word} (he : entV e = false) :
    innermost (l.set j e) = none := by
  rw [innermost_eq_none] at h ⊢
  intro i
  simp only [Fin.getElem_fin, Vector.getElem_set]
  split
  · exact he
  · exact h i

/-- The fields of a QCFG value (R294). -/
theorem qPack_fields (head tail : Nat) (en : Bool) (log base : Nat) (hh : head < 65536) (ht : tail < 65536) (hl : log < 16)
    (hb : base < 2 ^ 18) :
    let w := qPack head tail en log base
    qHead w = head ∧ qTail w = tail ∧ qEn w = en ∧ qLog w = log ∧ qBase w = base ∧ w.toNat / 2 ^ 29 % 8 = 0 ∧
      w.toNat / 2 ^ 18 % 64 = 0 := by
  intro w
  have hw : w.toNat = head * 2 ^ 48 + tail * 2 ^ 32 + (if en then 2 ^ 28 else 0) + log * 2 ^ 24 + base := by
    simp only [w, qPack, BitVec.toNat_ofNat]
    cases en <;> simp <;> omega
  simp only [qHead, qTail, qEn, qLog, qBase, bitsOf, bitAt, hw]
  cases en <;> simp <;> omega
/-- QCFG after a write (R294): HEAD moves where it may, and the other writable fields are v's where the queue is empty and nothing is on its
way to it. -/
theorem Tile.writeQcfg_eq (x : Tile) (mgmt : Bool) (q : BitVec 2) (v : Word) :
    let c := x.qcfgAt q
    let ch := x.headFrom mgmt q
    let moves : Bool := decide (qHead v % 16 = 0 ∧ (qHead v + 65536 - ch) % 65536 ≤ (qTail c + 65536 - ch) % 65536)
    let fixed : Bool := qHead c != qTail c || !(x.overflowAt q).isEmpty || x.messageWaits q
    let old := if fixed then c else v
    x.writeQcfg mgmt q v = x.setQcfg q (qPack (if moves then qHead v else qHead c) (qTail c) (qEn old) (qLog old) (qBase old)) := by
  intro c ch moves fixed old
  have hfixed : fixed = true ↔ (qHead c ≠ qTail c ∨ x.overflowAt q ≠ [] ∨ x.messageWaits q = true) := by
    simp only [fixed, Bool.or_eq_true, bne_iff_ne, Bool.not_eq_true', List.isEmpty_eq_false_iff, or_assoc, ne_eq]
  have hmoves : (if moves then qHead v else qHead c) =
      if qHead v % 16 = 0 ∧ (qHead v + 65536 - ch) % 65536 ≤ (qTail c + 65536 - ch) % 65536 then qHead v else qHead c :=
    if_congr decide_eq_true_iff rfl rfl
  have hold : old = if qHead c ≠ qTail c ∨ x.overflowAt q ≠ [] ∨ x.messageWaits q = true then c else v := if_congr hfixed rfl rfl
  rw [hmoves, hold]
  unfold Tile.writeQcfg
  dsimp only
  split <;> rfl

theorem qHead_lt (w : Word) : qHead w < 65536 := Nat.mod_lt _ (by decide)
theorem qTail_lt (w : Word) : qTail w < 65536 := Nat.mod_lt _ (by decide)
theorem qLog_lt (w : Word) : qLog w < 16 := Nat.mod_lt _ (by decide)
theorem qBase_lt (w : Word) : qBase w < 2 ^ 18 := Nat.mod_lt _ (by decide)

theorem writeReg_qcfg (s : State) (t : Nat) (n : BitVec 2) (q : BitVec 2) (v : Word) :
    s.writeReg t n (260 + q.toNat) v = some (s.setTile t ((s.tile t).writeQcfg (isMgmt t) q v)) ∧
      ∃ w, s.readReg t n (260 + q.toNat) = some w := by
  have hq : q = 0 ∨ q = 1 ∨ q = 2 ∨ q = 3 := by revert q; decide
  rcases hq with rfl | rfl | rfl | rfl
  all_goals exact ⟨rfl, _, rfl⟩

/-- MTS of QCFGq (R294). -/
theorem mts_qcfg {s : State} {a : BitVec 6} (h : s.plain 1 = true) (q : BitVec 2) :
    Completes (.mts a (BitVec.ofNat 10 (260 + q.toNat))) s (s.setHere (s.here.writeQcfg (isMgmt s.curTile) q (s.getS a))) := by
  obtain ⟨hw, w, hr⟩ := writeReg_qcfg s s.curTile s.curStrand q (s.getS a)
  refine Completes.of_sameMe h (mts_writes (by omega) hr hw) ?_
  rw [State.me_setHere, Tile.writeQcfg_eq]; rfl

/-- Settles O17: the writes, each an update of the strand, the tile or the module that leaves what retirement reads; then the numbers that
trap. The order of these causes before FETCH_BOUND in the last word is log entry 50, CHEAD of a management tile log entry 6, and a BASE kept
as written log entry 42. -/
theorem controlRegisterWritesAndPrivilege : Obligations.ControlRegisterWritesAndPrivilege := by
  unfold Obligations.ControlRegisterWritesAndPrivilege
  refine ⟨fun s a h => ?_, fun s a r => ?_⟩
  · intro r v
    refine ⟨fun p hp => ?_, fun hv j => ?_, ⟨tpolWrite v, ?_, fun i hi => tpolWrite_field v hi⟩, fun q => ?_, fun hs => ?_, fun hs => ?_⟩
    · simp only [List.mem_cons, List.not_mem_nil, or_false] at hp
      rcases hp with rfl | rfl | rfl | rfl | rfl | rfl | rfl | rfl | rfl | rfl | rfl | rfl | rfl | rfl | rfl | rfl | rfl
      on_goal 15 =>
        have hw : s.writeReg s.curTile s.curStrand 21 v =
            some (s.setMe { r with wtoAddr := (v >>> 32).setWidth 16, wtoCount := v.setWidth 16 }) := by
          rw [← ofNat_bits_47_32]; rfl
        exact Completes.of_setMe h (mts_writes (by simp) rfl hw) rfl rfl rfl rfl
      all_goals exact Completes.of_setMe h (mts_writes (by simp) rfl rfl) rfl rfl rfl rfl
    · obtain ⟨hw, w, hr⟩ := writeReg_lstk s s.curTile s.curStrand j v
      obtain ⟨hst, hl, -, hs, ht, -⟩ := (State.plain_iff s _).mp h
      have he : entV (v &&& 0xFFFFFFFCFFFFFFFF) = false := by rw [entV, bitAt_toNat, BitVec.getLsbD_and, hv, Bool.false_and]
      refine Completes.of_quiet h (mts_writes (by omega) hr hw) ?_ ?_ ?_ ?_
      · exact (congrArg Strand.st (State.me_setMe s _)).trans hst
      · exact (congrArg (fun r : Strand => innermost r.lstk) (State.me_setMe s _)).trans (innermost_set_none hl j he)
      · exact (congrArg Strand.stepping (State.me_setMe s _)).trans hs
      · exact (congrArg Strand.touched (State.me_setMe s _)).trans ht
    · exact Completes.of_setMe (i := .mts a 15) h (mts_writes (k := 15) (by decide) rfl rfl) rfl rfl rfl rfl
    · have hc := mts_qcfg (a := a) h q
      rw [Tile.writeQcfg_eq] at hc
      refine ⟨_, hc, qPack_fields _ _ _ _ _ ?_ (qTail_lt _) (qLog_lt _) (qBase_lt _)⟩
      split
      · exact qHead_lt _
      · exact qHead_lt _
    · intro m
      have hmgmt : isMgmt s.curTile = true := hs
      refine ⟨?_, ?_, ?_, ?_⟩
      · have hw : s.writeSup m 512 v = some (s.setMod m { s.mod m with evt := v &&& 0x1F }) := by
          rw [← ofNat_mod_32]; rfl
        exact Completes.of_sameMe h (mts_writes_sup (k := 512) hs (by decide) (by decide) rfl hw) rfl
      · exact Completes.of_sameMe h (mts_writes_sup (k := 513) hs (by decide) (by decide) rfl rfl) rfl
      · exact Completes.of_sameMe h (mts_writes_sup (k := 517) hs (by decide) (by decide) rfl rfl) rfl
      · exact Completes.of_setMe (i := .mts a 9) h (mts_writes (k := 9) (by decide) rfl (if_pos hmgmt)) rfl rfl rfl rfl
    · have hm : isMgmt s.curTile = false := hs
      constructor
      · exact Completes.of_sameMe h (mts_writes (k := 256) (by decide) (if_neg (by simp [hm])) rfl) (State.me_setHere _ _)
      · exact Completes.of_sameMe h (mts_writes (k := 257) (by decide) (if_neg (by simp [hm])) rfl) (State.me_setHere _ _)
  · refine ⟨regTrap_privilege, fun hr => ?_, fun hs hr => ?_, fun hr => ?_, fun hs hr => ?_, fun hs hr => ?_, fun hs hr => ?_⟩
    · obtain ⟨⟨w, hread⟩, hwrite⟩ := readReg_readOnly s s.curTile s.curStrand (s.getS a) hr
      have hlt : r.toNat < 512 := by simp only [List.mem_cons, List.not_mem_nil, or_false] at hr; omega
      exact regTrap_readOnly hlt hread hwrite
    · subst hr
      have hm : isMgmt s.curTile = false := hs
      exact regTrap_readOnly (by decide) rfl (if_neg (by simp [hm]))
    · exact regTrap_unassigned (by omega) (readReg_unassigned s s.curTile s.curStrand hr)
    · have hm : isMgmt s.curTile = true := hs
      obtain rfl | rfl := hr
      · exact regTrap_unassigned (by decide) (if_pos hm)
      · exact regTrap_unassigned (by decide) (if_pos hm)
    · obtain ⟨⟨w, hread⟩, hwrite⟩ := readSup_readOnly s (modOf s.curTile) (s.getS a) hr
      have hlo : 512 ≤ r.toNat := by simp only [List.mem_cons, List.not_mem_nil, or_false] at hr; omega
      exact regTrap_readOnly_sup hs hlo hread hwrite
    · exact regTrap_unassigned_sup hs (by omega) (readSup_unassigned s (modOf s.curTile) hr)

end Sys2Proof.Machine
end

section
/-! Bits and fields of a word: a number as a sum of fields, and what a word reads that is laid out so. -/
namespace Sys2Proof.Encoding

/-! ### Bits of a number -/

/-- The mask of the n bits from bit lo up. -/
def ones (lo n : Nat) : Nat := (2 ^ n - 1) * 2 ^ lo

theorem and_ones (x lo n : Nat) : x &&& ones lo n = x / 2 ^ lo % 2 ^ n * 2 ^ lo := by
  apply Nat.eq_of_testBit_eq
  intro k
  simp only [ones, Nat.testBit_and, Nat.testBit_mul_two_pow, Nat.testBit_mod_two_pow, Nat.testBit_div_two_pow,
    Nat.testBit_two_pow_sub_one]
  by_cases hk : lo ≤ k
  · simp [hk, Bool.and_comm, Nat.sub_add_cancel hk]
  · simp [hk]

theorem put_and_ones {n : Nat} (x : BitVec n) (lo : Nat) : put x lo &&& ones lo n = put x lo := by
  rw [and_ones, put, Nat.mul_div_cancel _ (by positivity), Nat.mod_eq_of_lt x.isLt]

/-- A field has no bit in common with a mask that its own bits have none in common with. -/
theorem put_and_eq_zero {n lo z : Nat} (x : BitVec n) (h : ones lo n &&& z = 0) : put x lo &&& z = 0 := by
  rw [← put_and_ones, Nat.and_assoc, h, Nat.and_zero]

theorem add_eq_or {a b : Nat} (h : a &&& b = 0) : a + b = a ||| b := by
  have hlt : a + b < 2 ^ (a + b) := Nat.lt_two_pow_self
  have hor := BitVec.add_eq_or_of_and_eq_zero (BitVec.ofNat (a + b) a) (BitVec.ofNat (a + b) b) (by rw [← BitVec.ofNat_and, h])
  rw [← BitVec.ofNat_add, ← BitVec.ofNat_or] at hor
  have := congrArg BitVec.toNat hor
  rwa [BitVec.toNat_ofNat, BitVec.toNat_ofNat, Nat.mod_eq_of_lt hlt, Nat.mod_eq_of_lt (Nat.or_lt_two_pow (by omega) (by omega))] at this

theorem and_add_and {x a b : Nat} (h : a &&& b = 0) : (x &&& a) + (x &&& b) = x &&& (a + b) := by
  rw [add_eq_or h, Nat.and_or_distrib_left, add_eq_or]
  rw [show x &&& a &&& (x &&& b) = x &&& x &&& (a &&& b) by ac_rfl, h, Nat.and_zero]

theorem add_and_add_and {c x a b : Nat} (h : a &&& b = 0) : c + (x &&& a) + (x &&& b) = c + (x &&& (a + b)) := by
  rw [Nat.add_assoc, and_add_and h]

/-- Bits that read c and bits that read d. -/
theorem and_or_eq {x a b c d : Nat} (ha : x &&& a = c) (hb : x &&& b = d) : x &&& (a ||| b) = c ||| d := by
  rw [Nat.and_or_distrib_left, ha, hb]

/-- A number is the bits of it that are known and the rest of its bits. -/
theorem known_add_rest {k x m c : Nat} (hx : x < 2 ^ k) (hm : x &&& m = c) : c + (x &&& ((2 ^ k - 1) ^^^ m)) = x := by
  have hbit (i : Nat) : (x &&& ((2 ^ k - 1) ^^^ m)).testBit i = (x.testBit i && !m.testBit i) := by
    by_cases hi : i < k
    · simp [Nat.testBit_two_pow_sub_one, hi]
    · have hxi : x.testBit i = false := Nat.testBit_lt_two_pow (hx.trans_le (Nat.pow_le_pow_right (by decide) (by omega)))
      simp [hxi]
  rw [← hm, add_eq_or]
  all_goals
    apply Nat.eq_of_testBit_eq
    intro i
    simp only [Nat.testBit_or, Nat.testBit_and, hbit, Nat.zero_testBit]
    cases x.testBit i <;> cases m.testBit i <;> rfl

theorem and_mod_two_pow {x z k : Nat} (hz : z < 2 ^ k) : x % 2 ^ k &&& z = x &&& z := by
  rw [← Nat.and_two_pow_sub_one_eq_mod, Nat.and_assoc, Nat.and_comm (2 ^ k - 1), Nat.and_two_pow_sub_one_eq_mod, Nat.mod_eq_of_lt hz]

/-! ### Fields of a word -/

theorem toNat_fld (w : BitVec 32) (lo n : Nat) : (fld w lo n).toNat = w.toNat / 2 ^ lo % 2 ^ n := BitVec.toNat_ofNat ..

theorem put_fld (w : BitVec 32) (lo n : Nat) : put (fld w lo n) lo = w.toNat &&& ones lo n := by
  rw [and_ones, put, toNat_fld]

theorem toNat_eq_put {n : Nat} (x : BitVec n) : x.toNat = put x 0 := by simp [put]

/-- A field, its first bit, its width and its value. -/
structure Field where
  lo : Nat
  n : Nat
  x : BitVec n

/-- A number is laid out as the fixed bits c and the fields of a list, which take the bits m. -/
structure LaidOut (x c m : Nat) (l : List Field) : Prop where
  fixed : ∀ z, z &&& m = 0 → x &&& z = c &&& z
  field : ∀ f ∈ l, x &&& ones f.lo f.n = put f.x f.lo
  within : ∀ f ∈ l, ones f.lo f.n &&& m = ones f.lo f.n

theorem LaidOut.fixedBits (c : Nat) : LaidOut c c 0 [] := ⟨fun _ _ => rfl, by simp, by simp⟩

/-- Bits that the fields do not take are none of a field's. -/
theorem LaidOut.disjoint {x c m a : Nat} {l : List Field} (h : LaidOut x c m l) (ha : a &&& m = 0) {f : Field} (hf : f ∈ l) :
    ones f.lo f.n &&& a = 0 := by
  rw [← h.within f hf, Nat.and_assoc, Nat.and_comm m, ha, Nat.and_zero]

/-- One more field, on bits that are still free. -/
theorem LaidOut.addField {x c m lo n : Nat} {l : List Field} {y : BitVec n} (h : LaidOut x c m l) (hd : ones lo n &&& (c ||| m) = 0) :
    LaidOut (x + put y lo) c (m ||| ones lo n) (⟨lo, n, y⟩ :: l) := by
  obtain ⟨hc, hm⟩ : ones lo n &&& c = 0 ∧ ones lo n &&& m = 0 := by rwa [Nat.and_or_distrib_left, Nat.or_eq_zero_iff] at hd
  have hx : x &&& ones lo n = 0 := by rw [h.fixed _ hm, Nat.and_comm, hc]
  have hor : x + put y lo = x ||| put y lo := add_eq_or (by rw [Nat.and_comm, put_and_eq_zero]; rwa [Nat.and_comm])
  rw [hor]
  refine ⟨fun z hz => ?_, fun f hf => ?_, fun f hf => ?_⟩
  · obtain ⟨hzm, hzf⟩ : z &&& m = 0 ∧ z &&& ones lo n = 0 := by rwa [Nat.and_or_distrib_left, Nat.or_eq_zero_iff] at hz
    rw [Nat.and_or_distrib_right, h.fixed z hzm, put_and_eq_zero _ (by rwa [Nat.and_comm]), Nat.or_zero]
  · rw [Nat.and_or_distrib_right]
    obtain rfl | hf := List.mem_cons.mp hf
    · rw [hx, put_and_ones, Nat.zero_or]
    · rw [h.field f hf, put_and_eq_zero _ (by rw [Nat.and_comm, h.disjoint hm hf]), Nat.or_zero]
  · rw [Nat.and_or_distrib_left]
    obtain rfl | hf := List.mem_cons.mp hf
    · rw [hm, Nat.and_self, Nat.zero_or]
    · rw [h.within f hf, h.disjoint hm hf, Nat.or_zero]

/-- What a word reads that is laid out as the fixed bits c and the fields of a list on the bits m. -/
structure Reads (w : BitVec 32) (c m : Nat) (l : List Field) : Prop where
  fixed : ∀ lo n, lo + n ≤ 32 → ones lo n &&& m = 0 → (fld w lo n).toNat = c / 2 ^ lo % 2 ^ n
  zero : ∀ z, z < 2 ^ 32 → z &&& m = 0 → c &&& z = 0 → w.toNat &&& z = 0
  field : ∀ f ∈ l, f.lo + f.n ≤ 32 → fld w f.lo f.n = f.x

theorem ones_lt {lo n k : Nat} (h : lo + n ≤ k) : ones lo n < 2 ^ k := by
  calc ones lo n < 2 ^ n * 2 ^ lo := by unfold ones; gcongr; exact Nat.sub_one_lt (by positivity)
    _ = 2 ^ (lo + n) := by rw [Nat.pow_add, Nat.mul_comm]
    _ ≤ 2 ^ k := Nat.pow_le_pow_right (by decide) h

theorem LaidOut.reads {x c m : Nat} {l : List Field} (h : LaidOut x c m l) : Reads (BitVec.ofNat 32 x) c m l := by
  have hand {z : Nat} (hz : z < 2 ^ 32) : (BitVec.ofNat 32 x).toNat &&& z = x &&& z := by rw [BitVec.toNat_ofNat, and_mod_two_pow hz]
  refine ⟨fun lo n hn hm => ?_, fun z hz hm hc => ?_, fun f hf hn => ?_⟩
  · have hput : put (fld (BitVec.ofNat 32 x) lo n) lo = c / 2 ^ lo % 2 ^ n * 2 ^ lo := by
      rw [put_fld, hand (ones_lt hn), h.fixed _ hm, and_ones]
    exact Nat.eq_of_mul_eq_mul_right (by positivity) hput
  · rw [hand hz, h.fixed z hm, hc]
  · have hput : put (fld (BitVec.ofNat 32 x) f.lo f.n) f.lo = put f.x f.lo := by
      rw [put_fld, hand (ones_lt hn), h.field f hf]
    exact BitVec.eq_of_toNat_eq (Nat.eq_of_mul_eq_mul_right (by positivity) hput)

theorem word_eq (t : Bool) (n : Nat) : word t n = BitVec.ofNat 32 (n + put (BitVec.ofBool t) 29) := by
  cases t <;> rfl

/-- A word is the word of a number and its own T bit when the number is the word without that bit. -/
theorem word_eq_self {w : BitVec 32} {n : Nat} (h : n + (w.toNat &&& ones 29 1) = w.toNat) : word (w.getLsbD 29) n = w := by
  have hT : BitVec.ofBool (w.getLsbD 29) = fld w 29 1 := by
    apply BitVec.eq_of_toNat_eq
    rw [BitVec.toNat_ofBool, toNat_fld, BitVec.getLsbD, Nat.toNat_testBit, Nat.pow_one]
  rw [word_eq, hT, put_fld, h, BitVec.ofNat_toNat, BitVec.setWidth_eq]

theorem LaidOut.reads_of_eq {w : BitVec 32} {x c m : Nat} {l : List Field} {P : Prop} (hw : w = BitVec.ofNat 32 x) (hx : LaidOut x c m l)
    (k : Reads w c m l → P) : P := k (hw ▸ hx.reads)

theorem LaidOut.ofField {n : Nat} (x : BitVec n) (lo : Nat) : LaidOut (put x lo) 0 (ones lo n) [⟨lo, n, x⟩] := by
  have h := (LaidOut.fixedBits 0).addField (lo := lo) (y := x) (by simp)
  rwa [Nat.zero_add, Nat.zero_or] at h

theorem fld_all (p : BitVec 32) : fld p 0 32 = p := by simp [fld]

end Sys2Proof.Encoding
end

section
/-! The rows of the decoder and the encoder (R43, R44, R65): when the checks of a row pass, and the numbers of an instruction's words. -/
namespace Sys2Proof.Encoding

/-- The number of an instruction of one word. -/
def number (i : Instr) : Option Nat := (numberA i).or ((numberB i).or ((numberB2 i).or (numberPrefix i)))

/-- The numbers of the words of an instruction of two words. -/
def numbers (i : Instr) : Option (Nat × Nat) := (numberPair i).or (numberSup i)

theorem encode_of_number {t : Bool} {i : Instr} {n : Nat} (h : number i = some n) : encode t i = [word t n] := by
  unfold number at h
  simp only [encode, h]

theorem encode_of_numbers {t : Bool} {i : Instr} {n q : Nat} (hn : number i = none) (h : numbers i = some (n, q)) :
    encode t i = [word t n, BitVec.ofNat 32 q] := by
  unfold number at hn
  unfold numbers at h
  simp only [encode, hn, h]

theorem number_isSome (i : Instr) : (number i).isSome = (i.kind != .chunk && i.kind != .event && !i.isPair) := by cases i <;> rfl

theorem numbers_isSome (i : Instr) : (numbers i).isSome = i.isPair := by cases i <;> rfl

theorem row_ok {w : BitVec 32} {z : Nat} {i j : Instr} : row w z i = .ok j ↔ i = j ∧ w.toNat &&& z = 0 ∧ i.wfFirst = true := by
  unfold row
  split
  · simp [*]
  · split <;> simp_all

theorem pair_ok {w p : BitVec 32} {z m : Nat} {i j : Instr} :
    pair w z p m i = .ok j ↔ i = j ∧ w.toNat &&& z = 0 ∧ p.toNat &&& m = 0 ∧ i.wf = true := by
  unfold pair Instr.wf
  split
  · simp [*]
  · split
    · simp_all
    · split
      · simp [*]
      · split <;> simp_all

theorem pairVops_ok {w p : BitVec 32} {i j : Instr} : pairVops w p i = .ok j ↔ pair w 0xF80 p 0xFFFFE000 i = .ok j := by
  rw [pair_ok]
  unfold pairVops Instr.wf
  split
  · simp [*]
  · split
    · simp [*]
    · split
      · simp_all
      · split <;> simp_all

theorem fld_fixed {w : BitVec 32} {lo n v : Nat} (h : (fld w lo n).toNat = v) : w.toNat &&& ones lo n = v * 2 ^ lo := by
  rw [← put_fld, put, h]

theorem toNat_fld_zero (w : BitVec 32) (n : Nat) : (fld w 0 n).toNat = w.toNat &&& ones 0 n := by rw [← put_fld, put, Nat.pow_zero, Nat.mul_one]

/-- A word that passes the checks of a row encodes the row's instruction: its bits are those that chose the row, m, reading c, the
reserved bits z and the operands. -/
theorem encode_row {w : BitVec 32} {z m c n : Nat} {i j : Instr} (h : row w z i = .ok j) (hm : w.toNat &&& m = c) (hn : number i = some n)
    (hp : i.wfPayload = true) (hq : i.isPair = false)
    (hs : n + (w.toNat &&& ones 29 1) = c + (w.toNat &&& ((2 ^ 32 - 1) ^^^ (m ||| z)))) :
    j.wf = true ∧ j.isPair = false ∧ encode (w.getLsbD 29) j = [w] := by
  obtain ⟨rfl, hz, hwf⟩ := row_ok.mp h
  have hw := known_add_rest w.isLt (and_or_eq hm hz)
  rw [Nat.or_zero] at hw
  exact ⟨by rw [Instr.wf, hwf, hp]; rfl, hq, by rw [encode_of_number hn, word_eq_self (hs.trans hw)]⟩

end Sys2Proof.Encoding
end

section
/-! Every word that decodes is the encoding of what it decodes to (R61 to R64, R481). -/
namespace Sys2Proof.Encoding

/-- A field of one bit that is not 0 is 1. -/
theorem fld_eq_one {w : BitVec 32} {lo : Nat} (h : (fld w lo 1).toNat = 0 → False) : (fld w lo 1).toNat = 1 := by
  have := (fld w lo 1).isLt
  rw [imp_false] at h
  omega

theorem encode_decodeA {w : BitVec 32} {i : Instr} (h30 : (fld w 30 2).toNat = 0) (h : decodeA w = .ok i) :
    i.wf = true ∧ i.isPair = false ∧ encode (w.getLsbD 29) i = [w] := by
  have hA := fld_fixed h30
  unfold decodeA at h
  split at h
  all_goals try contradiction
  all_goals have hop := and_or_eq hA (fld_fixed ‹(fld w 22 7).toNat = _›)
  -- ALU, all of whose sixteen fn are assigned, then MULDIV, CMP, AMO and FETAG.
  case h_2 =>
    split at h
    case' h_16 =>
      have hfn : (fld w 0 4).toNat = 15 := by have := (fld w 0 4).isLt; simp only [imp_false] at *; omega
    all_goals
      refine encode_row h (and_or_eq hop (fld_fixed ‹(fld w 0 4).toNat = _›)) rfl rfl rfl ?_
      simp [ones, put_fld, add_and_add_and]
  case h_3 | h_4 | h_30 | h_33 =>
    split at h
    all_goals try contradiction
    all_goals
      refine encode_row h (and_or_eq hop (fld_fixed ‹(fld w 0 4).toNat = _›)) rfl rfl rfl ?_
      simp [ones, put_fld, add_and_add_and]
  -- LDFE, whose fn has one bit.
  case h_31 =>
    split at h
    case' h_2 => have hfn := fld_eq_one ‹_›
    all_goals
      refine encode_row h (and_or_eq hop (fld_fixed ‹(fld w 0 1).toNat = _›)) rfl rfl rfl ?_
      simp [ones, put_fld, add_and_add_and]
  all_goals
    refine encode_row h hop rfl rfl rfl ?_
    simp [ones, put_fld, toNat_fld_zero, and_add_and, add_and_add_and]

theorem encode_decodeB {w : BitVec 32} {i : Instr} (h30 : (fld w 30 2).toNat = 1) (h : decodeB w = .ok i) :
    i.wf = true ∧ i.isPair = false ∧ encode (w.getLsbD 29) i = [w] := by
  have hB := fld_fixed h30
  unfold decodeB at h
  split at h
  all_goals try contradiction
  all_goals have hop := and_or_eq hB (fld_fixed ‹(fld w 22 7).toNat = _›)
  -- PLOG, PMOV, RLSTAT and PROFRD, whose fn has four bits.
  case h_38 | h_39 | h_78 | h_81 => 
    split at h
    all_goals try contradiction
    all_goals
      refine encode_row h (and_or_eq hop (fld_fixed ‹(fld w _ 4).toNat = _›)) rfl rfl rfl ?_
      simp [ones, put_fld, add_and_add_and]
  -- MSEND, MSENDG, FETCHL and COPY, whose fn has one bit.
  case h_65 | h_66 | h_74 | h_76 =>
    split at h
    case' h_2 => have hfn := fld_eq_one ‹_›
    all_goals
      refine encode_row h (and_or_eq hop (fld_fixed ‹(fld w _ 1).toNat = _›)) rfl rfl rfl ?_
      simp [ones, put_fld, toNat_fld_zero, add_and_add_and]
  all_goals
    refine encode_row h hop rfl rfl rfl ?_
    simp [ones, put_fld, toNat_fld_zero, add_and_add_and, -Nat.and_one_is_mod]

theorem encode_decodePrefix {w : BitVec 32} {i : Instr} (h30 : (fld w 30 2).toNat = 2) (h : decodePrefix w = .ok i) :
    i.wf = true ∧ i.isPair = false ∧ encode (w.getLsbD 29) i = [w] := by
  have hP := fld_fixed h30
  unfold decodePrefix at h
  split at h
  all_goals try contradiction
  all_goals
    refine encode_row h (and_or_eq hP (fld_fixed ‹(fld w 22 7).toNat = _›)) rfl rfl rfl ?_
    simp [ones, put_fld, toNat_fld_zero, add_and_add_and]

/-- The same of an instruction of two words; of the payload the bits m' read c' beside the reserved bits pm. -/
theorem encode_pair {w p : BitVec 32} {z pm m c m' c' n q : Nat} {i j : Instr} (h : pair w z p pm i = .ok j) (hm : w.toNat &&& m = c)
    (hm' : p.toNat &&& m' = c') (hn : number i = none) (hn' : numbers i = some (n, q)) (hq : i.isPair = true)
    (hs : n + (w.toNat &&& ones 29 1) = c + (w.toNat &&& ((2 ^ 32 - 1) ^^^ (m ||| z))))
    (hs' : q = c' + (p.toNat &&& ((2 ^ 32 - 1) ^^^ (m' ||| pm)))) :
    j.wf = true ∧ j.isPair = true ∧ encode (w.getLsbD 29) j = [w, p] := by
  obtain ⟨rfl, hz, hpz, hwf⟩ := pair_ok.mp h
  have hw := known_add_rest w.isLt (and_or_eq hm hz)
  have hp := known_add_rest p.isLt (and_or_eq hm' hpz)
  rw [Nat.or_zero] at hw hp
  refine ⟨hwf, hq, ?_⟩
  rw [encode_of_numbers hn hn', word_eq_self (hs.trans hw), hs'.trans hp, BitVec.ofNat_toNat, BitVec.setWidth_eq]

theorem and_all_ones (p : BitVec 32) : p.toNat &&& 0xFFFFFFFF = p.toNat := by
  rw [Nat.and_two_pow_sub_one_eq_mod p.toNat 32, Nat.mod_eq_of_lt p.isLt]

theorem encode_decodePair {w p : BitVec 32} {i : Instr} (h30 : (fld w 30 2).toNat = 3) (h : decodePair w p = .ok i) :
    i.wf = true ∧ i.isPair = true ∧ encode (w.getLsbD 29) i = [w, p] := by
  have hP := fld_fixed h30
  unfold decodePair at h
  split at h
  all_goals try contradiction
  all_goals have hop := and_or_eq hP (fld_fixed ‹(fld w 22 7).toNat = _›)
  -- BCMP and AMOCAS, which assign a part of the codes of a field only.
  case h_5 =>
    split at h
    · refine encode_pair h hop (Nat.and_zero _) rfl rfl rfl ?_ ?_
      · simp [ones, put_fld, toNat_fld_zero, add_and_add_and]
      · simp [and_all_ones]
    · contradiction
  case h_8 =>
    split at h
    next hle =>
      have hwide : (fld w 1 3).toNat = 0 := by rw [toNat_fld] at *; omega
      refine encode_pair h (and_or_eq hop (fld_fixed hwide)) (Nat.and_zero _) rfl rfl rfl ?_ ?_
      · simp [ones, put_fld, toNat_fld_zero, add_and_add_and, -Nat.and_one_is_mod]
      · simp [ones, toNat_fld_zero]
    · contradiction
  case h_9 =>
    refine encode_pair (pairVops_ok.mp h) hop (Nat.and_zero _) rfl rfl rfl ?_ ?_
    · simp [ones, put_fld, toNat_fld_zero, add_and_add_and]
    · simp [ones, put_fld, toNat_fld_zero, and_add_and]
  -- The other strand instructions.
  case h_1 | h_2 | h_10 =>
    refine encode_pair h hop (Nat.and_zero _) rfl rfl rfl ?_ ?_
    · simp [ones, put_fld, add_and_add_and]
    · simp [and_all_ones]
  case h_3 | h_4 | h_6 | h_7 =>
    refine encode_pair h hop (Nat.and_zero _) rfl rfl rfl ?_ ?_
    · simp [ones, put_fld, toNat_fld_zero, add_and_add_and]
    · simp [ones, put_fld, toNat_fld_zero, and_add_and]
  -- The supervisor instructions, whose form stands in the payload.
  all_goals split at h
  all_goals try contradiction
  all_goals
    have hform : p.toNat &&& 15 = _ := (Nat.and_two_pow_sub_one_eq_mod p.toNat 4).trans ‹_›
    refine encode_pair h hop hform rfl rfl rfl ?_ ?_
    · simp [ones, put_fld, toNat_fld_zero, add_and_add_and]
    · simp

/-- R43 to R64: a word that decodes is the encoding of what it decodes to. -/
theorem encode_decodeWords {w p : BitVec 32} {i : Instr} (h : decodeWords w p = .ok i) :
    i.wf = true ∧ encode (w.getLsbD 29) i = if i.isPair then [w, p] else [w] := by
  unfold decodeWords at h
  split at h
  case h_1 h30 => 
    obtain ⟨hwf, hp, he⟩ := encode_decodeA h30 h
    rw [hp]
    exact ⟨hwf, he⟩
  case h_2 h30 => 
    obtain ⟨hwf, hp, he⟩ := encode_decodeB h30 h
    rw [hp]
    exact ⟨hwf, he⟩
  case h_3 h30 => 
    obtain ⟨hwf, hp, he⟩ := encode_decodePrefix h30 h
    rw [hp]
    exact ⟨hwf, he⟩
  case h_4 h0 h1 h2 => 
    have h30 : (fld w 30 2).toNat = 3 := by
      have := (fld w 30 2).isLt
      simp only [imp_false] at h0 h1 h2
      omega
    obtain ⟨hwf, hp, he⟩ := encode_decodePair h30 h
    rw [hp]
    exact ⟨hwf, he⟩

end Sys2Proof.Encoding
end

section
/-! Every slot of a chunk program that decodes is the encoding of what it decodes to (R399, R402). -/
namespace Sys2Proof.Encoding

theorem toNat_cfld (w : BitVec 64) (lo n : Nat) : (cfld w lo n).toNat = w.toNat / 2 ^ lo % 2 ^ n := BitVec.toNat_ofNat ..

theorem put_cfld (w : BitVec 64) (lo n : Nat) : put (cfld w lo n) lo = w.toNat &&& ones lo n := by
  rw [and_ones, put, toNat_cfld]

theorem toNat_cfld_zero (w : BitVec 64) (n : Nat) : (cfld w 0 n).toNat = w.toNat &&& ones 0 n := by
  rw [← put_cfld, put, Nat.pow_zero, Nat.mul_one]

theorem cfld_fixed {w : BitVec 64} {lo n v : Nat} (h : (cfld w lo n).toNat = v) : w.toNat &&& ones lo n = v * 2 ^ lo := by
  rw [← put_cfld, put, h]

/-- The OP of a slot is its bits 63:58 (R399). -/
theorem chunkOp_fixed {w : BitVec 64} {v : Nat} (h : w.toNat / 2 ^ 58 = v) : w.toNat &&& ones 58 6 = v * 2 ^ 58 := by
  have := w.isLt
  rw [and_ones, h, Nat.mod_eq_of_lt (by omega)]

theorem add_and_add_lit (c x a k : Nat) : c + (x &&& a) + no_index (OfNat.ofNat k) = c + OfNat.ofNat k + (x &&& a) := Nat.add_right_comm ..

/-- A slot that passes the checks of a row encodes the row's instruction with its own fields: its bits are those that chose the row, m,
reading c, the fields f, and unused bits z, which a field may hold. -/
theorem encodeChunk_crow {w : BitVec 64} {z m c f n : Nat} {i j : Instr} (h : crow w z i = .ok j) (hm : w.toNat &&& m = c) (hk : i.kind = .chunk)
    (hn : chunkNumber (chunkFields w) i = some n) (hs : n = c + (w.toNat &&& f)) (hf : f ||| z = (2 ^ 64 - 1) ^^^ m) :
    j.kind = .chunk ∧ encodeChunk (chunkFields w) j = some w := by
  unfold crow at h
  split at h
  · contradiction
  next hz =>
    cases h
    have hw : c + (w.toNat &&& f) = w.toNat := by
      have := known_add_rest w.isLt hm
      rwa [← hf, Nat.and_or_distrib_left, not_not.mp hz, Nat.or_zero] at this
    rw [encodeChunk, hn, hs, hw, Option.map_some, BitVec.ofNat_toNat, BitVec.setWidth_eq]
    exact ⟨hk, rfl⟩

/-- R399, R402: a slot that decodes is the encoding of what it decodes to. -/
theorem encodeChunk_decodeChunk {w : BitVec 64} {i : Instr} (h : decodeChunk w = .ok i) :
    i.kind = .chunk ∧ encodeChunk (chunkFields w) i = some w := by
  unfold decodeChunk at h
  dsimp only at h
  split at h
  all_goals try contradiction
  all_goals have hop := chunkOp_fixed ‹w.toNat / 2 ^ 58 = _›
  -- NOP and HALT have no field.
  case h_1 | h_16 => exact encodeChunk_crow (f := 0) h hop rfl rfl (by simp) rfl
  -- REDUCE and ARMRED, whose operator and type are checked together (R406).
  case h_4 | h_9 =>
    split at h
    · apply encodeChunk_crow h hop rfl rfl
      · simp [chunkFields, ones, put_cfld, toNat_cfld_zero, add_and_add_and]
        rfl
      · rfl
    · contradiction
  -- WAITSIG, SETG and ADDG, whose fn chooses the operation.
  case h_6 | h_11 | h_12 =>
    split at h
    all_goals try contradiction
    all_goals
      apply encodeChunk_crow h (and_or_eq hop (cfld_fixed ‹(cfld w 32 11).toNat = _›)) rfl rfl
      · simp [chunkFields, ones, put_cfld, toNat_cfld_zero, add_and_add_and, add_and_add_lit]
        rfl
      · rfl
  all_goals
    apply encodeChunk_crow h hop rfl rfl
    · simp [chunkFields, ones, put_cfld, toNat_cfld_zero, add_and_add_and]
      rfl
    · rfl

end Sys2Proof.Encoding
end

section
/-! The words of a well-formed instruction decode to it (R43 to R64). -/
namespace Sys2Proof.Encoding


theorem decodeWords_of_space_zero {w : BitVec 32} (p : BitVec 32) (h : (fld w 30 2).toNat = 0) : decodeWords w p = decodeA w := by
  simp only [decodeWords, h]

theorem decodeWords_of_space_one {w : BitVec 32} (p : BitVec 32) (h : (fld w 30 2).toNat = 1) : decodeWords w p = decodeB w := by
  simp only [decodeWords, h]

theorem decodeWords_of_space_two {w : BitVec 32} (p : BitVec 32) (h : (fld w 30 2).toNat = 2) : decodeWords w p = decodePrefix w := by
  simp only [decodeWords, h]

theorem decodeWords_of_space_three {w : BitVec 32} (p : BitVec 32) (h : (fld w 30 2).toNat = 3) : decodeWords w p = decodePair w p := by
  simp only [decodeWords, h]

/-- A word whose fields are the operands of j passes the checks of the row of j. -/
theorem Reads.row {w : BitVec 32} {c m z : Nat} {l : List Field} {i j : Instr} (hr : Reads w c m l) (hz : z < 2 ^ 32) (hm : z &&& m = 0)
    (hc : c &&& z = 0) (hj : j.wfFirst = true) (he : i = j) : row w z i = .ok j :=
  row_ok.mpr ⟨he, hr.zero z hz hm hc, he ▸ hj⟩

theorem Reads.pair {w p : BitVec 32} {c m z pm : Nat} {l : List Field} {i j : Instr} (hr : Reads w c m l) (hz : z < 2 ^ 32)
    (hm : z &&& m = 0) (hc : c &&& z = 0) (hp : p.toNat &&& pm = 0) (hj : j.wf = true) (he : i = j) : pair w z p pm i = .ok j :=
  pair_ok.mpr ⟨he, hr.zero z hz hm hc, hp, he ▸ hj⟩

/-- R55, R61: the word of an instruction of space A and of a prefix. -/
theorem decode_numberA {w : BitVec 32} (p : BitVec 32) {t : Bool} {i : Instr} {n : Nat} (hn : (numberA i).or (numberPrefix i) = some n)
    (hwf : i.wfFirst = true) (hw : w = word t n) : decodeWords w p = .ok i := by
  cases i
  all_goals cases hn
  all_goals
    simp only [word_eq, toNat_eq_put] at hw
    apply LaidOut.reads_of_eq hw
    case hx =>
      repeat apply LaidOut.addField
      exact LaidOut.fixedBits _
      all_goals rfl
    intro hr
    have hf := hr.field
    simp only [List.forall_mem_cons, Nat.reduceAdd, Nat.reduceLeDiff, forall_const] at hf
  case prnd | pext | pone =>
    rw [decodeWords_of_space_two p (hr.fixed 30 2 (by decide) rfl), decodePrefix, hr.fixed 22 7 (by decide) rfl]
    exact hr.row (by decide) rfl rfl hwf (by simp only [hf])
  all_goals rw [decodeWords_of_space_zero p (hr.fixed 30 2 (by decide) rfl), decodeA, hr.fixed 22 7 (by decide) rfl]
  -- Where a fn stands, it chooses the row with OP.
  any_goals rw [hr.fixed 0 4 (by decide) rfl]
  case' ldfe | ldfeKeep => rw [hr.fixed 0 1 (by decide) rfl]
  all_goals exact hr.row (by decide) rfl rfl hwf (by simp only [hf])

/-- R63: the word of an instruction of space B. -/
theorem decode_numberB {w : BitVec 32} (p : BitVec 32) {t : Bool} {i : Instr} {n : Nat} (hn : (numberB i).or (numberB2 i) = some n)
    (hwf : i.wfFirst = true) (hw : w = word t n) : decodeWords w p = .ok i := by
  cases i
  all_goals cases hn
  all_goals
    simp only [word_eq, toNat_eq_put] at hw
    apply LaidOut.reads_of_eq hw
    case hx =>
      repeat apply LaidOut.addField
      exact LaidOut.fixedBits _
      all_goals rfl
    intro hr
    have hf := hr.field
    simp only [List.forall_mem_cons, Nat.reduceAdd, Nat.reduceLeDiff, forall_const] at hf
    rw [decodeWords_of_space_one p (hr.fixed 30 2 (by decide) rfl), decodeB, hr.fixed 22 7 (by decide) rfl]
  -- Where a fn stands, it chooses the row with OP.
  case' plogAnd | plogOr | plogXor | plogAndn | plogNot | pmov | pmovFrom | pmovTo => rw [hr.fixed 3 4 (by decide) rfl]
  case' rlstatLock | rlstatProg | rlstatFaddr | profrd | profrdClr => rw [hr.fixed 0 4 (by decide) rfl]
  case' fetchl | fetchlNext | copy | copyG => rw [hr.fixed 0 1 (by decide) rfl]
  case' msend | msendEos | msendg | msendgEos => rw [hr.fixed 2 1 (by decide) rfl]
  all_goals exact hr.row (by decide) rfl rfl hwf (by simp only [hf])

/-- R64, R481, R484: the words of an instruction of two words. -/
theorem decode_numbers {w p : BitVec 32} {t : Bool} {i : Instr} {n q : Nat} (hn : numbers i = some (n, q)) (hwf : i.wf = true)
    (hw : w = word t n) (hp : p = BitVec.ofNat 32 q) : decodeWords w p = .ok i := by
  cases i
  all_goals cases hn
  all_goals
    simp only [word_eq, toNat_eq_put] at hw
    apply LaidOut.reads_of_eq hw
    case hx =>
      repeat apply LaidOut.addField
      exact LaidOut.fixedBits _
      all_goals rfl
    intro hr
    have hf := hr.field
    simp only [List.forall_mem_cons, Nat.reduceAdd, Nat.reduceLeDiff, forall_const] at hf
    rw [decodeWords_of_space_three p (hr.fixed 30 2 (by decide) rfl), decodePair, hr.fixed 22 7 (by decide) rfl]
  -- The payload is an operand.
  case ldi | ldih | addpc =>
    rw [BitVec.ofNat_toNat, BitVec.setWidth_eq] at hp
    exact hr.pair (by decide) rfl rfl (Nat.and_zero _) hwf (by simp only [hf, hp])
  case bcmp =>
    rw [BitVec.ofNat_toNat, BitVec.setWidth_eq] at hp
    have hc : (fld w 0 4).toNat ≤ 5 := by simpa [Instr.wf, Instr.wfFirst, Instr.wfPayload, hf] using hwf
    exact (if_pos hc).trans (hr.pair (by decide) rfl rfl (Nat.and_zero _) hwf (by simp only [hf, hp]))
  -- The payload has fields.
  case' bext | bins | loopi | waitc | amocas | vops =>
    simp only [toNat_eq_put] at hp
    apply LaidOut.reads_of_eq hp
    case hx =>
      repeat apply LaidOut.addField
      exact LaidOut.ofField _ _
      all_goals rfl
    intro hrp
    have hfp := hrp.field
    simp only [List.forall_mem_cons, Nat.reduceAdd, Nat.reduceLeDiff, forall_const] at hfp
  case bext | bins | loopi | waitc => exact hr.pair (by decide) rfl rfl (hrp.zero _ (by decide) rfl rfl) hwf (by simp only [hf, hfp])
  case amocas =>
    have hwide : (fld w 0 4).toNat ≤ 1 := by
      have := hr.fixed 1 3 (by decide) rfl
      rw [toNat_fld] at *
      omega
    exact (if_pos hwide).trans (hr.pair (by decide) rfl rfl (hrp.zero _ (by decide) rfl rfl) hwf (by simp only [hf, hfp]))
  case vops => exact pairVops_ok.mpr (hr.pair (by decide) rfl rfl (hrp.zero _ (by decide) rfl rfl) hwf (by simp only [hf, hfp]))
  -- The payload is the form of a supervisor instruction.
  all_goals
    subst hp
    exact hr.pair (by decide) rfl rfl rfl hwf (by simp only [hf])


theorem word_left_injective {t t' : Bool} {n : Nat} (h : word t n = word t' n) : t = t' := by
  have hmod := congrArg BitVec.toNat h
  simp only [word, BitVec.toNat_ofNat] at hmod
  cases t <;> cases t'
  all_goals simp at hmod ⊢
  all_goals omega

/-- R43 to R64: the words of a well-formed strand instruction decode to it; the word after a single word does not matter. -/
theorem decodeWords_encode {i : Instr} (hwf : i.wf = true) (hc : i.kind ≠ .chunk) (he : i.kind ≠ .event) (t : Bool) :
    (i.isPair = false ∧ ∃ n, number i = some n ∧ ∀ p, decodeWords (word t n) p = .ok i) ∨
      (i.isPair = true ∧ number i = none ∧ ∃ n q, numbers i = some (n, q) ∧ decodeWords (word t n) (BitVec.ofNat 32 q) = .ok i) := by
  have hone := number_isSome i
  have htwo := numbers_isSome i
  rw [bne_iff_ne.mpr hc, bne_iff_ne.mpr he] at hone
  cases hp : i.isPair
  case false =>
    rw [hp] at hone
    obtain ⟨n, hn⟩ := Option.isSome_iff_exists.mp hone
    have hwf1 : i.wfFirst = true := (Bool.and_eq_true_iff.mp hwf).1
    refine .inl ⟨rfl, n, hn, fun p => ?_⟩
    rw [number, ← Option.or_assoc (o₁ := numberB i)] at hn
    rcases Option.or_eq_some_iff.mp hn with hA | ⟨hA, hn⟩
    · exact decode_numberA p (by rw [hA, Option.some_or]) hwf1 rfl
    · rcases Option.or_eq_some_iff.mp hn with hB | ⟨-, hP⟩
      · exact decode_numberB p hB hwf1 rfl
      · exact decode_numberA p (by rw [hA, Option.none_or, hP]) hwf1 rfl
  case true =>
    rw [hp] at hone htwo
    obtain ⟨⟨n, q⟩, hn⟩ := Option.isSome_iff_exists.mp htwo
    exact .inr ⟨rfl, Option.isNone_iff_eq_none.mp (Option.isSome_eq_false_iff.mp hone), n, q, hn, decode_numbers hn hwf rfl rfl⟩

/-- Settles O58: the words decode to the instruction; the T bit is that of the word, since encoding what a word decodes to gives the
word back. -/
theorem decodeAndEncodeAgree : Obligations.DecodeAndEncodeAgree := by
  unfold Obligations.DecodeAndEncodeAgree
  refine ⟨fun t i hwf hc he => ?_, fun w p i h => encode_decodeWords h, fun w i h => encodeChunk_decodeChunk h⟩
  obtain ⟨hp, n, hn, hdec⟩ | ⟨hp, hn, n, q, hnq, hdec⟩ := decodeWords_encode hwf hc he t
  · obtain ⟨-, hback⟩ := encode_decodeWords (hdec 0)
    rw [encode_of_number hn, hp] at hback
    exact ⟨word t n, [], encode_of_number hn, by rw [hp]; rfl, word_left_injective (List.cons.inj hback).1, hdec⟩
  · obtain ⟨-, hback⟩ := encode_decodeWords hdec
    rw [encode_of_numbers hn hnq, hp] at hback
    exact ⟨word t n, [BitVec.ofNat 32 q], encode_of_numbers hn hnq, by rw [hp]; rfl, word_left_injective (List.cons.inj hback).1,
      fun _ => hdec⟩

end Sys2Proof.Encoding
end

section
/-! Markers, prefixes and RETIRE (R55 to R58, R155, R156). -/
namespace Sys2Proof.Machine

/-- With no token pending, RETIRE waits for none and cancels no next fetch (R156, R383). -/
theorem Token.nextHere_of_not_pending {k : Token} (h : k.st ≠ .pending) (num : Nat) : k.nextHere num = false := by
  simp [Token.nextHere, h]

theorem State.retireTokens_eq_nil {s : State} (h : ∀ k, (s.me.tok k).st ≠ .pending) : s.retireTokens = [] := by
  simp [State.retireTokens, h]

theorem State.cancelNext_eq_self {s : State} (h : ∀ k, (s.me.tok k).st ≠ .pending) : s.cancelNext = s := by
  have hnone : s.here.eng.filter (fun e => e.strand == s.curStrand && e.next && (s.me.tok e.tok).nextHere s.here.num) = [] := by
    simp [Token.nextHere_of_not_pending (h _)]
  rw [State.cancelNext]
  simp only [hnone, List.foldl_nil]

/-- An effect after which the strand stops, in a strand that neither accessed anything nor steps. -/
theorem State.finish_stop {s t : State} {i : Instr} (ht : t.me.touched = []) (hs : t.me.stepping = false) :
    s.finish i (.ok (t, .stop)) = .next (t.setMe { t.me with pfx := [], wait := none, stall := none }) :=
  congrArg Host.Outcome.next (State.afterRetire_quiet _ (by simp [ht]) (by simp [hs]))

/-- RETIRE with nothing left to wait for (R156). -/
theorem execRetire_ready {s : State} (ht : s.me.touched = []) (hs : s.me.stepping = false) (hm : s.here.mmaOf s.curStrand = none)
    (hh : s.me.held = none) (hk : ∀ k, (s.me.tok k).st ≠ .pending) :
    execRetire s = .next ((s.setMe { s.me with st := .retired, retiredNow := true, doneFlg := s.me.flg.setWidth 10,
                                               doneVal := (s.getS 16).setWidth 16, pfx := [], wait := none,
                                               stall := none }).formArrival s.curTile) := by
  have hentry : s.matrixEntry [] = .ok () := by simp [State.matrixEntry, hm, hh]
  unfold execRetire
  rw [hentry, State.retireTokens_eq_nil hk, State.cancelNext_eq_self hk]
  simp only [bind, Except.bind]
  rw [State.finish_stop (by simp [ht]) (by simp [hs])]
  simp

/-- The first prefix of a unit is its only one. -/
theorem State.pfx_addFirst {s : State} (h : s.me.pfx = []) (p : Pfx) : (s.setMe { s.me with pfx := s.me.pfx ++ [p] }).me.pfx = [p] := by
  simp [h]

theorem State.imm_of_no_pfx {s : State} (h : s.me.pfx = []) {w : Nat} (i : BitVec w) : s.imm i = i.toInt := by
  simp [State.imm, State.pextX, h]

/-- R57: behind a PEXT the immediate is X times 2^10 plus the field. -/
theorem State.imm_of_pext {s : State} {x : BitVec 22} (h : s.me.pfx = [.pext x]) (i : BitVec 10) : s.imm i = ((x ++ i : BitVec 32)).toInt := by
  have hx : s.pextX = some x := by simp [State.pextX, h]
  have hcat : BitVec.ofNat 32 (x.toNat * 2 ^ 10 + i.toNat) = x ++ i := by
    apply BitVec.eq_of_toNat_eq
    rw [BitVec.toNat_append, ← Nat.shiftLeft_add_eq_or_of_lt i.isLt, Nat.shiftLeft_eq, BitVec.toNat_ofNat]
    exact Nat.mod_eq_of_lt (by omega)
  rw [State.imm, hx]
  exact congrArg BitVec.toInt hcat

/-- Settles O22: RETIRE by `execRetire_ready`, the immediate behind a PEXT by `State.imm_of_pext`. -/
theorem markersPrefixesAndRetire : Obligations.MarkersPrefixesAndRetire := by
  unfold Obligations.MarkersPrefixesAndRetire
  refine ⟨fun s v h => ⟨?_, fun hm hh hk => ?_⟩, fun s sa rm x i => ?_⟩
  · refine Completes.of_sameMe h rfl ?_
    exact (s.branchRecord_sameButTrace _ _ _ _ _).sameStrands.me
  · obtain ⟨-, -, -, hs, ht, -⟩ := (State.plain_iff s _).mp h
    exact execRetire_ready ht hs hm hh hk
  · refine ⟨rfl, rfl, rfl, fun hp => ⟨?_, ?_, State.imm_of_no_pfx hp i, State.imm_of_pext (State.pfx_addFirst hp _) i⟩⟩
    · rw [State.mode, State.pfx_addFirst hp]; rfl
    · rw [State.pone, State.pfx_addFirst hp]; rfl

end Sys2Proof.Machine
end

section
/-! The turn of a strand: the unit at its pc, the checks of R65 and R422, and what then executes. -/
namespace Sys2Proof.Machine

/-! ### The unit that the words at the pc are -/

/-- R43, R45: a first word that is no prefix begins the instruction. -/
theorem Cluster.unitAt_of_not_prefix {k : Cluster} {pc : Nat} (h : isPrefixWord (k.word pc) = false) :
    k.unitAt pc = { pre := [], own := pc, first := k.word pc, payload := k.word (pc + 4) } := by
  have hp : k.prefixes 3 pc = [] := by simp [Cluster.prefixes, h]
  simp [Cluster.unitAt, hp]

/-- The words of a unit without prefixes, which is one word or an aligned pair, lie in the block of the first (R44, R256). -/
theorem Cluster.unitAddrs_block {k : Cluster} {pc a : Nat} (h : isPrefixWord (k.word pc) = false)
    (hpair : (k.word pc).toNat / 2 ^ 30 = 3 → pc % 8 = 0) (ha : a ∈ k.unitAddrs pc) : a / 32 = pc / 32 := by
  have ha' : a ∈ (span 0 5).map (fun i => pc + 4 * i) ∧ a < (k.unitAt pc).next := by
    simp only [Cluster.unitAddrs, List.mem_filter, Bool.and_eq_true, decide_eq_true_eq] at ha
    exact ⟨ha.1, ha.2.1⟩
  obtain ⟨hmem, hnext⟩ := ha'
  have hlt : a < pc + 4 ∨ (a < pc + 8 ∧ pc % 8 = 0) := by
    rw [Cluster.unitAt_of_not_prefix h] at hnext
    have hnext : a < pc + (if (k.word pc).toNat / 2 ^ 30 == 3 then 8 else 4) := hnext
    split at hnext
    next htwo => exact .inr ⟨hnext, hpair (beq_iff_eq.mp htwo)⟩
    next => exact .inl hnext
  simp only [span, List.map_cons, List.map_nil, List.mem_cons, List.not_mem_nil, or_false] at hmem
  omega

/-- The strand holds a unit without prefixes with the block of its first word. -/
theorem State.unitHeld_of_block {s : State} {k : Cluster} {pc : Nat} (hk : s.cluster (clusterOf s.curTile) = k) (hpc : s.me.pc.toNat = pc)
    (hb : s.me.blocks.contains (pc / 32) = true) (hp : isPrefixWord (k.word pc) = false)
    (hpair : (k.word pc).toNat / 2 ^ 30 = 3 → pc % 8 = 0) : s.unitHeld = true := by
  simp only [State.unitHeld, hk, hpc, hb, Bool.true_and, List.all_eq_true]
  intro a ha
  rw [Cluster.unitAddrs_block hp hpair ha, hb]

/-- R65 steps 1 and 2 let a unit below CLIM pass: one word, or an aligned pair. -/
theorem State.fetchChecks_ok {s : State} {u : FUnit} (hbad : s.me.badEntry = none)
    (hclim : u.own < (s.cluster (clusterOf s.curTile)).clim.toNat)
    (hpair : u.first.toNat / 2 ^ 30 = 3 → u.own % 8 = 0 ∧ u.own + 4 < (s.cluster (clusterOf s.curTile)).clim.toNat) :
    s.fetchChecks u = .ok () := by
  have hown : ¬ (s.cluster (clusterOf s.curTile)).clim.toNat ≤ u.own := by omega
  have htwo : u.two = true → u.own % 8 = 0 ∧ ¬ (s.cluster (clusterOf s.curTile)).clim.toNat ≤ u.own + 4 := fun h => by
    have := hpair (by simpa [FUnit.two] using h)
    omega
  simp only [State.fetchChecks, hbad]
  rw [if_neg (fun h => hown h.2), if_neg (fun ⟨_, h, hlim⟩ => (htwo h).2 hlim), if_neg (fun ⟨_, h, hal⟩ => hal (htwo h).1)]

/-- R65 steps 3 to 7 let a unit without prefixes pass when its words decode to an instruction of assigned registers. -/
theorem State.decodeUnit_ok {s : State} {u : FUnit} {i : Instr} (hpre : u.pre = []) (hd : decodeWords u.first u.payload = .ok i)
    (henc : s.encodingOf i = none) : s.decodeUnit u = .ok ([], i) := by
  have hthird : ¬ (u.third = true) := by simp [FUnit.third, hpre]
  simp only [State.decodeUnit, hd, hpre, List.find?_nil]
  rw [if_neg hthird]
  split
  next x hill =>
    cases hill
    rfl
  next hfound => contradiction
  next herr => contradiction
  next j _ hok _ =>
    cases hok
    rw [henc]
    rfl

/-- A unit that every check of R65 lets pass. -/
theorem State.nextUnit_of_checks {s : State} {u : FUnit} {r : List Instr × Instr}
    (hu : (s.cluster (clusterOf s.curTile)).unitAt s.me.pc.toNat = u) (hfetch : s.fetchChecks u = .ok ()) (hb : s.breakpoint = false)
    (hstore : s.storeCheck = .ok ()) (hdecode : s.decodeUnit u = .ok r) (hparity : s.parity r.1 r.2 = .ok ()) : s.nextUnit = .ok r := by
  simp [State.nextUnit, hu, hfetch, hb, hstore, hdecode, hparity, Except.map]

/-- A unit without prefixes that lies below CLIM and whose words decode to an instruction of assigned registers runs, where no SRAM
error, no breakpoint and no bad entry stops it (R65, R422). -/
theorem State.nextUnit_ok {s : State} {k : Cluster} {pc : Nat} {i : Instr} (hk : s.cluster (clusterOf s.curTile) = k)
    (hpc : s.me.pc.toNat = pc) (hbad : s.me.badEntry = none) (hkerrs : k.errs = []) (herrs : s.here.errs = []) (hb : s.breakpoint = false)
    (hp : isPrefixWord (k.word pc) = false) (hclim : pc < k.clim.toNat)
    (hpair : (k.word pc).toNat / 2 ^ 30 = 3 → pc % 8 = 0 ∧ pc + 4 < k.clim.toNat)
    (hd : decodeWords (k.word pc) (k.word (pc + 4)) = .ok i) (henc : s.encodingOf i = none) : s.nextUnit = .ok ([], i) := by
  subst hk hpc
  have hstore : s.storeCheck = .ok () := if_pos hkerrs
  have hparity : s.parity [] i = .ok () := if_pos (.inl herrs)
  exact State.nextUnit_of_checks (Cluster.unitAt_of_not_prefix hp) (State.fetchChecks_ok hbad hclim hpair) hb hstore
    (State.decodeUnit_ok rfl hd henc) hparity

/-- Whether a breakpoint meets a strand turns on its pc and on whether it skips one. -/
theorem State.breakpoint_setMe {s : State} {r : Strand} (hpc : r.pc = s.me.pc) (hskip : r.skipBp = s.me.skipBp) :
    (s.setMe r).breakpoint = s.breakpoint := by
  simp only [State.breakpoint, State.me_setMe, State.here_setMe, hpc, hskip]
  rfl

/-! ### The turn -/

/-- Taking the blocks of a unit changes only the strand's blocks and its request (R256). -/
theorem State.prefetch_eq_setMe (s : State) : ∃ b r, s.prefetch = s.setMe { s.me with blocks := b, req := r } := by
  unfold State.prefetch State.request
  simp only
  split
  · exact ⟨_, _, rfl⟩
  · split
    · exact ⟨_, _, rfl⟩
    · rw [State.setMe_setMe, State.me_setMe]
      exact ⟨_, _, rfl⟩

theorem State.correctStore_clean {s : State} (h : (s.cluster (clusterOf s.curTile)).errs = []) : s.correctStore = s := if_pos h

/-- A turn of a strand passes a cycle and then issues its unit, performing the local stores late or not (R223, R348). -/
theorem step_strandTurn {s : State} {t : Nat} {n : BitVec 2} {late : Bool} {rest : List Turn}
    (h : s.agenda = (if late then .late t n else .strand t n) :: rest) : step s = strandTurn t n late { s with agenda := rest } := by
  unfold step
  rw [h]
  cases late <;> rfl

/-- A strand that is not in RUN issues nothing: its turn only traces the cycle (R223). -/
theorem strandTurn_idle {s : State} {t : Nat} {n : BitVec 2} {late : Bool} (h : (((s.advance 1).turnOf t n late).me.st) ≠ .run) :
    strandTurn t n late s = .next (((s.advance 1).turnOf t n late).traceCycle none) := by
  rw [strandTurn, State.unitTurn, if_pos (.inl h)]

/-- R223, R422: a strand in RUN that holds its unit executes it. -/
theorem strandTurn_issue {s : State} {t : Nat} {n : BitVec 2} {late : Bool} {u v : State} {ps : List Instr} {i : Instr}
    (hu : u = (s.advance 1).turnOf t n late) (hv : v = u.setMe { u.me with pfx := [], touched := [], stepAt := u.me.pc })
    (hst : u.me.st = .run) (hstill : u.tileStill u.curTile = false) (hheld : v.unitHeld = true)
    (hnext : v.prefetch.correctStore.nextUnit = .ok (ps, i)) :
    strandTurn t n late s = match execUnit ps i v.prefetch.correctStore with
      | .next x => .next (v.prefetch.correctStore.afterIssue x i)
      | o => o := by
  have hgo : ¬ (u.me.st ≠ .run ∨ u.tileStill u.curTile = true) := by simp [hst, hstill]
  rw [strandTurn, ← hu, State.unitTurn, if_neg hgo]
  simp only [← hv, hheld, State.issueUnit, hnext]
  cases execUnit ps i v.prefetch.correctStore <;> rfl

/-- Settles O56: the turn by what issues; a unit without prefixes is the instruction that its words decode to. -/
theorem stepRunsDecodedUnit : Obligations.StepRunsDecodedUnit := by
  unfold Obligations.StepRunsDecodedUnit
  intro s t n late rest hag u v k pc
  rw [step_strandTurn hag]
  refine ⟨strandTurn_idle, ?_, ?_⟩
  · intro hst hstill hheld ps i w hnext
    exact strandTurn_issue (s := { s with agenda := rest }) rfl rfl hst hstill hheld hnext
  intro hst hstill hbad hk he hb hblk hp hclim hpair i hd henc
  obtain ⟨b, r, hpre⟩ := v.prefetch_eq_setMe
  have hvp : v.prefetch = u.setMe { u.me with pfx := [], touched := [], stepAt := u.me.pc, blocks := b, req := r } := by
    rw [hpre, State.me_setMe, State.setMe_setMe]
  have hme := congrArg State.me hvp
  rw [State.me_setMe] at hme
  have hheld : v.unitHeld = true :=
    State.unitHeld_of_block (k := k) (pc := pc) rfl (by rw [State.me_setMe]) (by rw [State.me_setMe]; exact hblk) hp fun h => (hpair h).1
  have hclean : v.prefetch.correctStore = v.prefetch := by
    rw [hvp]
    exact State.correctStore_clean hk
  have hnext : v.prefetch.nextUnit = .ok ([], i) := by
    refine State.nextUnit_ok (k := k) (pc := pc) ?_ (by rw [hme]) (by rw [hme]; exact hbad) hk ?_ ?_ hp hclim hpair hd henc <;> rw [hvp]
    · rfl
    · rw [State.here_setMe]; exact he
    · refine Eq.trans (State.breakpoint_setMe ?_ ?_) hb <;> rfl
  refine ⟨(Encoding.encode_decodeWords hd).1, ?_⟩
  rw [← hclean] at hnext
  have hrun := strandTurn_issue (s := { s with agenda := rest }) (u := u) (v := v) rfl rfl hst hstill hheld hnext
  rw [hclean] at hrun
  exact hrun

end Sys2Proof.Machine
end

section
/-! Words of the spec's encodings. -/
namespace Sys2Proof.Machine

/-- Settles O57: each word evaluates to its instruction or to its refusal. -/
theorem wordsDecodeAsTheSpecGivesThem : Obligations.WordsDecodeAsTheSpecGivesThem := by
  unfold Obligations.WordsDecodeAsTheSpecGivesThem
  exact ⟨rfl, rfl, rfl, rfl, rfl, rfl, rfl, rfl, rfl, rfl, rfl, rfl, rfl, rfl, rfl, rfl⟩

end Sys2Proof.Machine
end

section
/-! The elements of a line: what reading them, writing them and going through them lane by lane gives (R104, R157). -/
namespace Sys2Proof.Machine

theorem span_eq_range' (lo n : Nat) : span lo n = List.range' lo n := by
  induction n generalizing lo with
  | zero => rfl
  | succ n ih => rw [span, ih, List.range'_succ]

theorem span_zero_eq_range (n : Nat) : span 0 n = List.range n := by rw [span_eq_range', List.range_eq_range']

theorem lineElem_succ (v w i : Nat) : lineElem v w (i + 1) = lineElem (v / 2 ^ w) w i := by
  rw [lineElem, lineElem, Nat.div_div_eq_div_mul, ← Nat.pow_add, Nat.mul_succ, Nat.add_comm]

theorem lineElem_mod (v w i : Nat) : lineElem v w i % 2 ^ w = lineElem v w i := Nat.mod_mod ..

theorem testBit_lineElem (v w i k : Nat) : (lineElem v w i).testBit k = (decide (k < w) && v.testBit (w * i + k)) := by
  rw [lineElem, Nat.testBit_mod_two_pow, Nat.testBit_div_two_pow, Nat.add_comm]

theorem elemsOf_eq_map (v w n : Nat) : elemsOf v w n = (List.range n).map (lineElem v w) := by
  induction n generalizing v with
  | zero => rfl
  | succ n ih =>
    have hfirst : lineElem v w 0 = v % 2 ^ w := by simp [lineElem]
    have hnext : lineElem v w ∘ Nat.succ = lineElem (v / 2 ^ w) w := funext (lineElem_succ v w)
    rw [elemsOf, ih, List.range_succ_eq_map, List.map_cons, List.map_map, hfirst, hnext]

theorem lineOf_eq_map (v : Line) (w : Nat) : lineOf v w = (List.range (512 / w)).map (lineElem v.toNat w) := elemsOf_eq_map ..

theorem range_map_getD (n i : Nat) (f : Nat → Nat) : ((List.range n).map f).getD i 0 = if i < n then f i else 0 := by
  rw [List.getD_eq_getElem?_getD, List.getElem?_map]
  by_cases hi : i < n <;> simp [hi]

/-- An element past the last one reads 0. -/
theorem elemsOf_getD (v w n i : Nat) : (elemsOf v w n).getD i 0 = if i < n then lineElem v w i else 0 := by
  rw [elemsOf_eq_map, range_map_getD]

theorem zip_range_map {α : Type} (n : Nat) (f : Nat → α) :
    (List.range n).zip ((List.range n).map f) = (List.range n).map fun i => (i, f i) := by
  simpa using List.zip_map' (f := id) (g := f) (l := List.range n)

/-- Lane by lane, with the number of the lane and the element of one line. -/
theorem span_zip_elemsOf_map {α : Type} (v w n : Nat) (f : Nat × Nat → α) :
    ((span 0 n).zip (elemsOf v w n)).map f = (List.range n).map fun i => f (i, lineElem v w i) := by
  rw [span_zero_eq_range, elemsOf_eq_map, zip_range_map, List.map_map]
  rfl

theorem elemsIn_map {α : Type} (w : Nat) (a b d : Line) (f : ElemIn → α) : (elemsIn w a b d).map f = (List.range (512 / w)).map fun i =>
    f { i := i, x := lineElem a.toNat w i, y := lineElem b.toNat w i, z := lineElem d.toNat w i } := by
  rw [elemsIn, span_zero_eq_range]
  simp only [lineOf_eq_map, List.zip_map', zip_range_map, List.map_map]
  rfl

theorem listSet_eq_set {α : Type} (l : List α) (i : Nat) (x : α) : listSet l i x = l.set i x := by
  induction l generalizing i with
  | nil => rfl
  | cons y l ih => cases i with
    | zero => rfl
    | succ i => exact congrArg (y :: ·) (ih i)

theorem listSet_range_map {α : Type} (n i : Nat) (f : Nat → α) (x : α) :
    listSet ((List.range n).map f) i x = (List.range n).map fun j => if j = i then x else f j := by
  rw [listSet_eq_set]
  refine List.ext_getElem (by simp) fun j _ _ => ?_
  simp [List.getElem_set, eq_comm]

/-! ### Packed elements -/

theorem lineElem_packElems (w : Nat) (l : List Nat) (j : Nat) : lineElem (packElems w l) w j = l.getD j 0 % 2 ^ w := by
  induction l generalizing j with
  | nil => simp [packElems, lineElem]
  | cons x l ih =>
    cases j with
    | zero => simp [packElems, lineElem]
    | succ j =>
      have hrest : (x % 2 ^ w + 2 ^ w * packElems w l) / 2 ^ w = packElems w l := by
        rw [Nat.add_mul_div_left _ _ (by positivity), Nat.div_eq_of_lt (Nat.mod_lt _ (by positivity)), Nat.zero_add]
      rw [packElems, lineElem_succ, hrest]
      exact ih j

/-- Bit i of a packed number is a bit of the element that it falls in. -/
theorem testBit_packElems {w : Nat} (hw : 0 < w) (l : List Nat) (i : Nat) :
    (packElems w l).testBit i = (l.getD (i / w) 0).testBit (i % w) := by
  have h := congrArg (Nat.testBit · (i % w)) (lineElem_packElems w l (i / w))
  simpa only [testBit_lineElem, Nat.testBit_mod_two_pow, Nat.mod_lt i hw, decide_true, Bool.true_and, Nat.div_add_mod] using h

theorem lineElem_ofElems {w j : Nat} (l : List Nat) (hj : w * (j + 1) ≤ 512) : lineElem (ofElems w l).toNat w j = l.getD j 0 % 2 ^ w := by
  rw [← lineElem_packElems]
  apply Nat.eq_of_testBit_eq
  intro k
  rw [testBit_lineElem, testBit_lineElem, ofElems, BitVec.testBit_toNat, BitVec.getLsbD_ofNat]
  by_cases hk : k < w
  · have : w * j + k < 512 := by rw [Nat.mul_succ] at hj; omega
    simp [this]
  · simp [hk]

theorem lineOf_eight (v : Line) : lineOf v 8 = (List.range 64).map (lineElem v.toNat 8) := elemsOf_eq_map ..

theorem blend_eq (p : Word) (a b : Line) :
    blend p a b = ofElems 8 ((List.range 64).map fun j => if p.getLsbD j then lineElem a.toNat 8 j else lineElem b.toNat 8 j) := by
  rw [blend, span_zero_eq_range, lineOf_eight, lineOf_eight, List.zip_map', zip_range_map, List.map_map]
  rfl

end Sys2Proof.Machine
end

section
/-! Instructions that change the registers and the flags of their strand and nothing that retirement reads. -/
namespace Sys2Proof.Machine

/-- What retirement reads of the current strand is in t as in s: its state, its loops, whether it steps, its accesses. -/
structure State.KeepsControl (s t : State) : Prop where
  st : t.me.st = s.me.st
  lstk : t.me.lstk = s.me.lstk
  stepping : t.me.stepping = s.me.stepping
  touched : t.me.touched = s.me.touched

namespace State.KeepsControl
variable {s t : State}

theorem setS (s : State) (d : BitVec 6) (x : Word) : s.KeepsControl (s.setS d x) := by
  constructor <;> rw [State.me_setS]

theorem setP (s : State) (p : BitVec 3) (x : Word) : s.KeepsControl (s.setP p x) := by
  constructor <;> rw [State.me_setP]

theorem setV (s : State) (v : BitVec 5) (l : Line) : s.KeepsControl (s.setV v l) := by
  constructor <;> simp [State.setV]

theorem orFlags (h : s.KeepsControl t) (f : Flags) : s.KeepsControl (t.orFlags f) := by
  obtain ⟨hst, hl, hs, ht⟩ := h
  constructor <;> simpa [State.orFlags]

end State.KeepsControl

theorem Completes.of_keepsControl {s t : State} {i : Instr} (h : s.plain (wordsOf i) = true) (he : exec i s = s.finishSeq i (.ok t))
    (hc : s.KeepsControl t) : Completes i s t := by
  obtain ⟨hst, hl, -, hs, ht, -⟩ := (State.plain_iff s _).mp h
  exact Completes.of_quiet h he (hc.st.trans hst) (by rw [hc.lstk, hl]) (hc.stepping.trans hs) (hc.touched.trans ht)

end Sys2Proof.Machine
end

section
/-! Compare, select, convert, broadcast, extract, insert and permute, element by element (R169 to R174). -/
namespace Sys2Proof.Machine
variable {s : State}

/-- Elements of whole bytes fill a line exactly. -/
theorem width_tyOf_bytes : ∀ y : BitVec 4, 8 ≤ (tyOf y).width →
    0 < (tyOf y).width / 8 ∧ 512 / (tyOf y).width * ((tyOf y).width / 8) = 64 := by decide

/-- R169: each bit of an element's bytes is the truth of the element's condition. -/
theorem getLsbD_compareBits {w j : Nat} (hb : 0 < w / 8) (hn : 512 / w * (w / 8) = 64) (c : Nat → Bool) (hj : j < 64) :
    (BitVec.ofNat 64 (packElems (w / 8) ((List.range (512 / w)).map fun i => if c i then 2 ^ (w / 8) - 1 else 0))).getLsbD j =
      c (j / (w / 8)) := by
  have hlane : j / (w / 8) < 512 / w := (Nat.div_lt_iff_lt_mul hb).mpr (by omega)
  rw [BitVec.getLsbD_ofNat, testBit_packElems hb]
  cases hc : c (j / (w / 8)) <;>
    simp [hj, hlane, hc, Nat.testBit_two_pow_sub_one, Nat.mod_lt _ hb]

theorem vcmp_completes (h : s.plain 1 = true) (q : BitVec 3) (a b : BitVec 5) (c : BitVec 3) (y : BitVec 4) :
    let w := (tyOf y).width
    let r : Nat → Bool × Flags := fun j => cmpElem c.toNat (tyOf y) (lineElem (s.getV a).toNat w j) (lineElem (s.getV b).toNat w j)
    8 ≤ w → ∃ m : Word, Completes (.vcmp q a b c y) s ((s.setP q m).orFlags ((List.range (512 / w)).foldl (fun f j => f ||| (r j).2) 0)) ∧
      ∀ j < 64, m.getLsbD j = (r (j / (w / 8))).1 := by
  intro w r hw
  obtain ⟨hb, hn⟩ := width_tyOf_bytes y hw
  refine ⟨_, ?_, fun j hj => getLsbD_compareBits hb hn (fun i => (r i).1) hj⟩
  refine Completes.of_keepsControl h ?_ ((State.KeepsControl.setP ..).orFlags _)
  show execVcmp q a b c y s = _
  simp only [execVcmp, lineOf_eq_map, List.zip_map', List.map_map, List.foldl_map]
  rfl

theorem vsel_completes (h : s.plain 1 = true) (d a b : BitVec 5) (p : BitVec 3) :
    ∃ v : Line, Completes (.vsel d a b p) s (s.setV d v) ∧ ∀ j < 64, lineElem v.toNat 8 j =
      if (s.getP p).getLsbD j then lineElem (s.getV a).toNat 8 j else lineElem (s.getV b).toNat 8 j := by
  refine ⟨blend (s.getP p) (s.getV a) (s.getV b), Completes.of_keepsControl h rfl (.setV ..), fun j hj => ?_⟩
  rw [blend_eq, lineElem_ofElems _ (by omega), range_map_getD, if_pos hj, apply_ite (· % 2 ^ 8), lineElem_mod, lineElem_mod]

/-- Flags collected from the lanes that a condition chooses. -/
theorem foldl_or_filter (l : List Nat) (on : Nat → Bool) (g : Nat → Flags) (a : Flags) :
    (l.filter on).foldl (fun f j => f ||| g j) a = l.foldl (fun f j => f ||| if on j then g j else 0) a := by
  rw [List.foldl_filter]
  congr 1
  funext f j
  split <;> simp

/-- One lane of VCVT: its value and its flags, 0 both where the source has no element for it (R171). -/
theorem cvtLane_eq (dt st : Ty) (mode : Nat) (sat on : Bool) (j x old : Nat) :
    (if on = true then if min dt.count st.count ≤ j then (0, 0) else cvtElem dt st mode sat (if j < st.count then x else 0) else (old, 0)) =
      (if on then (if j < min dt.count st.count then (cvtElem dt st mode sat x).1 else 0) else old,
        if on && decide (j < min dt.count st.count) then (cvtElem dt st mode sat x).2 else 0) := by
  have hm := Nat.min_le_right dt.count st.count
  generalize min dt.count st.count = m at hm ⊢
  by_cases hj : j < m
  · cases on <;> simp [hj, hj.trans_le hm]
  · cases on <;> simp [hj, Nat.not_lt.mp hj]

theorem vcvt_completes (h : s.plain 1 = true) (d a : BitVec 5) (src : BitVec 4) (p : BitVec 3) (y : BitVec 4) :
    let dt := tyOf y
    let st := tyOf src
    let m := min dt.count st.count
    let r : Nat → Nat × Flags := fun j => cvtElem dt st s.mode s.sat (lineElem (s.getV a).toNat st.width j)
    Completes (.vcvt d a src p y) s ((s.setV d (ofElems dt.width ((List.range dt.count).map (fun j =>
      if active (s.getP p) dt.width j then (if j < m then (r j).1 else 0) else lineElem (s.getV d).toNat dt.width j)))).orFlags
        ((((List.range dt.count).filter (fun j => active (s.getP p) dt.width j && decide (j < m))).foldl (fun f j => f ||| (r j).2) 0))) := by
  intro dt st m r
  refine Completes.of_keepsControl h ?_ ((State.KeepsControl.setV ..).orFlags _)
  show execVcvt d a src p y s = _
  simp only [execVcvt, elemsOf_getD, span_zip_elemsOf_map, cvtLane_eq, foldl_or_filter, List.map_map, List.foldl_map]
  rfl

theorem vbcast_completes (h : s.plain 1 = true) (d : BitVec 5) (n : BitVec 6) (p : BitVec 3) (z : BitVec 2) :
    let k := szWidth z
    Completes (.vbcast d n p z) s (s.setV d (ofElems k ((List.range (512 / k)).map fun j =>
      if active (s.getP p) k j then (s.getS n).toNat % 2 ^ k else lineElem (s.getV d).toNat k j))) := by
  refine Completes.of_keepsControl h ?_ (.setV ..)
  show execVbcast d n p z s = _
  rw [execVbcast, lineOf, span_zip_elemsOf_map]

theorem vins_completes (h : s.plain 1 = true) (d : BitVec 5) (n : BitVec 6) (z : BitVec 2) (i : BitVec 6) :
    let k := szWidth z
    Completes (.vins d n z i) s (s.setV d (ofElems k ((List.range (512 / k)).map fun j =>
      if j = i.toNat then (s.getS n).toNat % 2 ^ k else lineElem (s.getV d).toNat k j))) := by
  refine Completes.of_keepsControl h ?_ (.setV ..)
  show execVins d n z i s = _
  rw [execVins, lineOf_eq_map, listSet_range_map]

theorem vperm_completes (h : s.plain 1 = true) (d a b : BitVec 5) (p : BitVec 3) (y : BitVec 4) :
    let w := (tyOf y).width
    Completes (.vperm d a b p y) s (s.setV d (ofElems w ((List.range (512 / w)).map fun j =>
      if active (s.getP p) w j then
        (let m := lineElem (s.getV b).toNat w j; if m < 512 / w then lineElem (s.getV a).toNat w m else 0)
      else lineElem (s.getV d).toNat w j))) := by
  refine Completes.of_keepsControl h ?_ (.setV ..)
  show execVperm d a b p y s = _
  simp only [execVperm, elemsIn_map, lineOf, elemsOf_getD]

end Sys2Proof.Machine
end

section
/-! The reductions (R101, R175) and the shadow check of a floating sum (R425 to R427). -/
namespace Sys2Proof.Machine
variable {s : State}

/-- What a reduction under the predicate p combines: the active elements of a line, the identity for the others (R175). -/
def redInputs (op : Nat) (t : Ty) (p : Word) (v : Line) : List Nat :=
  (List.range (512 / t.width)).map fun j => if active p t.width j then lineElem v.toNat t.width j else redIdentity op t

/-- The result of a reduction in t and its flags: an integer sum is narrowed once, everything else takes the tree of R101. -/
def redResult (op : Nat) (mode : Nat) (sat : Bool) (xs : List Nat) : Ty → Nat × Flags
  | .int sg w =>
    if op = 0 then (narrow ((xs.map (intVal sg w)).foldl (· + ·) 0) sg w sat, 0)
    else treeReduce (fun u v => elemOp op (.int sg w) 0 false u v 0) 6 xs
  | .flt b eb mb bias kind => treeReduce (fun u v => elemOp op (.flt b eb mb bias kind) mode sat u v 0) 6 xs

theorem redResult_of_isFloat {t : Ty} (h : t.isFloat = true) (op mode : Nat) (sat : Bool) (xs : List Nat) :
    redResult op mode sat xs t = treeReduce (fun u v => elemOp op t mode sat u v 0) 6 xs := by
  cases t with
  | int => cases h
  | flt => rfl

/-- How a reduction ends where no lane of the tile is at fault, the shadow check of a floating sum included. -/
theorem State.vecRed_eq (he : s.here.errs = []) (i : Instr) (op : Nat) (d a : BitVec 5) (p : BitVec 3) (y : BitVec 4) :
    let t := tyOf y
    let xs := redInputs op t (s.getP p) (s.getV a)
    let r := redResult op s.mode s.sat xs t
    s.vecRed i op d a p y = s.finishSeq i (
      if t.isFloat && op == 0 && sumDiverges t s.mode s.sat xs r.2 r.1 then .error (.counted cSHADOW 0 1 false 0)
      else .ok ((s.setV d (BitVec.ofNat 512 r.1)).orFlags r.2)) := by
  have hlane : s.laneValue 0 = none := by simp [State.laneValue, he]
  have hdrop : s.dropLanes = s := if_pos he
  intro t xs r
  unfold State.vecRed
  extract_lets w xs' mode sat r' put v
  have hxs : xs' = xs := span_zip_elemsOf_map ..
  have hr : r' = redResult op mode sat xs' t := by
    clear_value xs'
    unfold r'
    cases t <;> rfl
  rw [hxs] at hr
  change r' = r at hr
  have hv : v = r.1 := by
    rw [← hr]
    simp only [v, hlane]
  simp only [hv, hr, hxs, put, hdrop, Bool.and_eq_true, ite_and]
  rfl

/-- Every reduction but a floating sum that diverges from its shadow writes its result and its flags. -/
theorem vecRed_completes (h : s.plain 1 = true) (he : s.here.errs = []) {i : Instr} {op : Nat} {d a : BitVec 5} {p : BitVec 3}
    {y : BitVec 4} (hi : wordsOf i = 1) (hx : exec i s = s.vecRed i op d a p y) {r : Nat × Flags}
    (hr : redResult op s.mode s.sat (redInputs op (tyOf y) (s.getP p) (s.getV a)) (tyOf y) = r)
    (hagree : (tyOf y).isFloat = true → op = 0 →
      sumDiverges (tyOf y) s.mode s.sat (redInputs op (tyOf y) (s.getP p) (s.getV a)) r.2 r.1 = false) :
    Completes i s ((s.setV d (BitVec.ofNat 512 r.1)).orFlags r.2) := by
  subst hr
  refine Completes.of_keepsControl (by rw [hi, h]) ?_ ((State.KeepsControl.setV ..).orFlags _)
  rw [hx, State.vecRed_eq he]
  refine congrArg (s.finishSeq i) (if_neg fun hbad => ?_)
  obtain ⟨⟨hf, hop⟩, hd⟩ : ((tyOf y).isFloat = true ∧ op = 0) ∧ _ = true := by simpa using hbad
  rw [hagree hf hop] at hd
  cases hd

/-- R427: a floating sum whose shadow diverges reports element 0. -/
theorem vredsum_shadow (he : s.here.errs = []) (d a : BitVec 5) (p : BitVec 3) {y : BitVec 4} (hf : (tyOf y).isFloat = true)
    {r : Nat × Flags} (hr : redResult 0 s.mode s.sat (redInputs 0 (tyOf y) (s.getP p) (s.getV a)) (tyOf y) = r)
    (hoff : sumDiverges (tyOf y) s.mode s.sat (redInputs 0 (tyOf y) (s.getP p) (s.getV a)) r.2 r.1 = true) :
    exec (.vredsum d a p y) s = .next (((s.countTrap cSHADOW 0).trapUnit cSHADOW 0 1 false).afterRetire) := by
  subst hr
  refine (State.vecRed_eq he (.vredsum d a p y) 0 d a p y).trans ?_
  simp only [hf, hoff]
  rfl

/-- Settles O25: the lanes of each instruction, then the reductions of floating and of integer elements. -/
theorem vectorMovesAndReductions : Obligations.VectorMovesAndReductions := by
  unfold Obligations.VectorMovesAndReductions
  refine ⟨fun s d a b p q c y src n z i h => ⟨vcmp_completes h q a b c y, vsel_completes h d a b p, vcvt_completes h d a src p y,
    vbcast_completes h d n p z, .of_keepsControl h rfl (.setS ..), fun _ => vins_completes h d n z i, vperm_completes h d a b p y⟩,
    fun s d a p y h he => ?_⟩
  intro t w xs tree done
  refine ⟨fun hf => ?_, fun sg ht => ?_⟩
  · have hres (op : Nat) : redResult op s.mode s.sat (xs op) t = tree op s.mode s.sat := redResult_of_isFloat hf ..
    refine ⟨⟨fun hoff => ?_, vredsum_shadow he d a p hf (hres 0)⟩, vecRed_completes h he rfl rfl (hres 7) nofun,
      vecRed_completes h he rfl rfl (hres 6) nofun⟩
    exact vecRed_completes h he rfl rfl (hres 0) fun _ _ => hoff
  · have hres (op : Nat) : redResult op s.mode s.sat (xs op) t = redResult op s.mode s.sat (xs op) (.int sg w) := congrArg _ ht
    have htree (op : Nat) (hop : op ≠ 0) : redResult op s.mode s.sat (xs op) t = tree op 0 false := by
      rw [hres, redResult, if_neg hop, ← ht]
    refine ⟨vecRed_completes h he rfl rfl (hres 0) ?_, vecRed_completes h he rfl rfl (htree 7 (by decide)) nofun,
      vecRed_completes h he rfl rfl (htree 6 (by decide)) nofun⟩
    exact fun hf => by rw [show tyOf y = .int sg w from ht] at hf; cases hf

end Sys2Proof.Machine
end

section
/-! Formats with infinities (R91): an encoding as a whole number of units of the smallest subnormal, and what decoding and the exact
operations of R100 give in such units. -/
namespace Sys2Proof.Machine

/-- A magnitude with a sign. -/
def signed (n : Bool) (m : Nat) : Int := if n then -(m : Int) else m

/-- The exponent field of an encoding. -/
def expoOf (eb mb v : Nat) : Nat := v / 2 ^ mb % 2 ^ eb

/-- The magnitude of a finite encoding, in units of the smallest subnormal. -/
def magOf (eb mb v : Nat) : Nat := if expoOf eb mb v = 0 then v % 2 ^ mb else (2 ^ mb + v % 2 ^ mb) * 2 ^ (expoOf eb mb v - 1)

/-- The sign of an encoding. -/
def signOf (eb mb v : Nat) : Bool := v.testBit (1 + eb + mb - 1)

/-- The value of a finite encoding, in units of the smallest subnormal. -/
def unitsOf (eb mb v : Nat) : Int := signed (signOf eb mb v) (magOf eb mb v)

/-- The exponent of the smallest subnormal. -/
def lowOf (mb bias : Nat) : Int := 1 - bias - mb

/-- x is a finite value of sign n: e units of 2^u, held exactly. -/
def Ext.Holds (x : Ext) (n : Bool) (e u : Int) : Prop :=
  ∃ (m : Nat) (k : Int), x = .fin n m k false ∧ u ≤ k ∧ signed n m * 2 ^ (k - u).toNat = e

theorem signed_not (n : Bool) (m : Nat) : signed (!n) m = -signed n m := by cases n <;> simp [signed]

theorem signed_mul (a b : Bool) (m n : Nat) : signed (a != b) (m * n) = signed a m * signed b n := by
  cases a <;> cases b <;> simp [signed]

theorem signed_cast_mul (n : Bool) (m p : Nat) : signed n (m * p) = signed n m * p := by cases n <;> simp [signed]

@[simp] theorem signed_eq_zero {n : Bool} {m : Nat} : signed n m = 0 ↔ m = 0 := by cases n <;> simp [signed]

theorem signed_natAbs (e : Int) : signed (decide (e < 0)) e.natAbs = e := by
  by_cases h : e < 0
  · rw [signed, decide_eq_true h, if_pos rfl]; omega
  · rw [signed, decide_eq_false h, if_neg (by decide)]; omega

/-- A power of two split at an exponent between. -/
theorem two_pow_toNat_split {a b c : Int} (hb : c ≤ b) (ha : b ≤ a) :
    (2 : Int) ^ (a - b).toNat * 2 ^ (b - c).toNat = 2 ^ (a - c).toNat := by
  rw [← pow_add]; congr 1; omega

/-- A signed magnitude brought to an exponent between its own and the unit's. -/
theorem signed_scale {c : Bool} {m : Nat} {i l u : Int} (hu : u ≤ l) (hi : l ≤ i) :
    (if c then -((m : Int) * 2 ^ (i - l).toNat) else (m : Int) * 2 ^ (i - l).toNat) * 2 ^ (l - u).toNat = signed c m * 2 ^ (i - u).toNat := by
  rw [← two_pow_toNat_split hu hi]
  cases c <;> simp [signed, mul_assoc]

namespace Ext.Holds
variable {x y z : Ext} {n a b c : Bool} {e f g u v : Int}

theorem fin_zero_iff {m : Nat} {k : Int} (h : signed n m * 2 ^ (k - u).toNat = e) : m = 0 ↔ e = 0 := by
  rw [← h, mul_eq_zero, signed_eq_zero]
  simp

theorem neg (h : x.Holds n e u) : x.neg.Holds (!n) (-e) u := by
  obtain ⟨m, k, rfl, hk, he⟩ := h
  exact ⟨m, k, rfl, hk, by rw [signed_not, neg_mul, he]⟩

/-- The same value in finer units. -/
theorem finer (h : x.Holds n e u) (hv : v ≤ u) : x.Holds n (e * 2 ^ (u - v).toNat) v := by
  obtain ⟨m, k, rfl, hk, he⟩ := h
  exact ⟨m, k, rfl, hv.trans hk, by rw [← he, mul_assoc, two_pow_toNat_split hv hk]⟩

/-- The sign of an exact sum (R100): that of zeros of one sign, and otherwise -0 under RD alone. -/
def sumZero (mode : Nat) (e f : Int) (a b : Bool) : Bool := if e = 0 ∧ f = 0 ∧ a = b then a else mode == 3

theorem add (hx : x.Holds a e u) (hy : y.Holds b f u) (mode : Nat) :
    ∃ n r, extAdd x y mode = (r, 0) ∧ r.Holds n (e + f) u ∧ (e + f = 0 → n = sumZero mode e f a b) := by
  obtain ⟨m, k, rfl, hk, he⟩ := hx
  obtain ⟨p, j, rfl, hj, hf⟩ := hy
  have hm : m = 0 ↔ e = 0 := fin_zero_iff he
  have hp : p = 0 ↔ f = 0 := fin_zero_iff hf
  have hx0 : extAdd (.fin a m k false) (.fin b p j false) mode = (addFin a m k b p j mode, 0) := rfl
  have hl : u ≤ min k j := le_min hk hj
  generalize hs : (if a then -((m : Int) * 2 ^ (k - min k j).toNat) else (m : Int) * 2 ^ (k - min k j).toNat) +
    (if b then -((p : Int) * 2 ^ (j - min k j).toNat) else (p : Int) * 2 ^ (j - min k j).toNat) = s
  have hsum : s * 2 ^ (min k j - u).toNat = e + f := by
    rw [← hs, add_mul, signed_scale hl (min_le_left ..), signed_scale hl (min_le_right ..), he, hf]
  have hadd : addFin a m k b p j mode =
      if s = 0 then .fin (sumZero mode e f a b) 0 (min k j) false else .fin (decide (s < 0)) s.natAbs (min k j) false := by
    simp only [addFin, sumZero, hs, hm, hp]
  have hz : e + f = 0 ↔ s = 0 := by rw [← hsum, mul_eq_zero]; simp
  rw [hx0, hadd]
  split
  case isTrue h0 => exact ⟨_, _, rfl, ⟨0, _, rfl, hl, by simp [hz.mpr h0]⟩, fun _ => rfl⟩
  case isFalse h0 => exact ⟨_, _, rfl, ⟨_, _, rfl, hl, by rw [signed_natAbs, hsum]⟩, fun h => absurd (hz.mp h) h0⟩

theorem mul (hx : x.Holds a e u) (hy : y.Holds b f v) : ∃ r, extMul x y = (r, 0) ∧ r.Holds (a != b) (e * f) (u + v) := by
  obtain ⟨m, k, rfl, hk, rfl⟩ := hx
  obtain ⟨p, j, rfl, hj, rfl⟩ := hy
  refine ⟨_, rfl, m * p, k + j, rfl, by omega, ?_⟩
  rw [signed_mul, show (k + j - (u + v)).toNat = (k - u).toNat + (j - v).toNat by omega, pow_add]
  ring

/-- Finite values compare as their units do. -/
theorem cmp (hx : x.Holds a e u) (hy : y.Holds b f u) : extCmp x y = if e < f then -1 else if e = f then 0 else 1 := by
  obtain ⟨m, k, rfl, hk, he⟩ := hx
  obtain ⟨p, j, rfl, hj, hf⟩ := hy
  have hl : u ≤ min k j := le_min hk hj
  simp only [extCmp]
  generalize hd : (if a then -((m : Int) * 2 ^ (k - min k j).toNat) else (m : Int) * 2 ^ (k - min k j).toNat) -
    (if b then -((p : Int) * 2 ^ (j - min k j).toNat) else (p : Int) * 2 ^ (j - min k j).toNat) = d
  have hdiff : d * 2 ^ (min k j - u).toNat = e - f := by
    rw [← hd, sub_mul, signed_scale hl (min_le_left ..), signed_scale hl (min_le_right ..), he, hf]
  have hpos : (0 : Int) < 2 ^ (min k j - u).toNat := by positivity
  have hlt : d < 0 ↔ e < f := by rw [← sub_neg (a := e), ← hdiff, mul_neg_iff]; simp [hpos, hpos.le.not_gt]
  have heq : d = 0 ↔ e = f := by rw [← sub_eq_zero (a := e), ← hdiff, mul_eq_zero]; simp
  simp only [hlt, heq]

theorem not_nan (h : x.Holds n e u) : x.isNaN = false := by
  obtain ⟨m, k, rfl, -⟩ := h
  rfl

theorem not_sig (h : x.Holds n e u) : x.isSig = false := by
  obtain ⟨m, k, rfl, -⟩ := h
  rfl

theorem fma (hx : x.Holds a e u) (hy : y.Holds b f u) (hz : z.Holds c g (2 * u)) (mode : Nat) :
    ∃ n r, extFma x y z mode = (r, 0) ∧ r.Holds n (e * f + g) (2 * u) ∧ (e * f + g = 0 → n = sumZero mode (e * f) g (a != b) c) := by
  obtain ⟨p, hp, hh⟩ := hx.mul hy
  rw [← two_mul] at hh
  obtain ⟨n, r, hr, h⟩ := hh.add hz mode
  refine ⟨n, r, ?_, h⟩
  simp only [extFma, hx.not_sig, hy.not_sig, hz.not_sig, hp, hr]
  rfl

end Ext.Holds

/-- R91 to R93: what a finite encoding of a format with infinities decodes to. -/
theorem decodeFloat_holds {eb mb bias v : Nat} (hv : expoOf eb mb v ≠ 2 ^ eb - 1) :
    (decodeFloat eb mb bias 0 v).Holds (signOf eb mb v) (unitsOf eb mb v) (lowOf mb bias) := by
  have hs : signOf eb mb v = (v / 2 ^ (mb + eb) % 2 == 1) := by
    rw [signOf, Nat.testBit_eq_decide_div_mod_eq, show 1 + eb + mb - 1 = mb + eb by omega]
    rfl
  have hdec : decodeFloat eb mb bias 0 v = if expoOf eb mb v = 0 then .fin (signOf eb mb v) (v % 2 ^ mb) (lowOf mb bias) false
      else .fin (signOf eb mb v) (2 ^ mb + v % 2 ^ mb) ((expoOf eb mb v : Int) - bias - mb) false := by
    rw [hs]
    unfold decodeFloat
    dsimp only
    rw [if_neg (by exact fun h => hv h.2), if_neg (by simp)]
    rfl
  rw [hdec]
  split
  case isTrue h => exact ⟨_, _, rfl, le_rfl, by simp [unitsOf, magOf, h]⟩
  case isFalse h =>
    refine ⟨_, _, rfl, by unfold lowOf; omega, ?_⟩
    rw [unitsOf, magOf, if_neg h, signed_cast_mul, show ((expoOf eb mb v : Int) - bias - mb - lowOf mb bias).toNat = expoOf eb mb v - 1 by
      unfold lowOf; omega]
    push_cast
    rfl

/-- An encoding is that of a NaN (R91). -/
def nanAt (eb mb v : Nat) : Bool := decide (expoOf eb mb v = 2 ^ eb - 1 ∧ v % 2 ^ mb ≠ 0)

/-- An encoding is that of a signalling NaN (R91). -/
def sigAt (eb mb v : Nat) : Bool := nanAt eb mb v && decide (v % 2 ^ mb < 2 ^ (mb - 1))

theorem decodeFloat_nan (eb mb bias v : Nat) :
    (decodeFloat eb mb bias 0 v).isNaN = nanAt eb mb v ∧ (decodeFloat eb mb bias 0 v).isSig = sigAt eb mb v := by
  have hquiet : (v % 2 ^ mb / 2 ^ (mb - 1) == 0) = decide (v % 2 ^ mb < 2 ^ (mb - 1)) := by
    rw [Bool.eq_iff_iff, beq_iff_eq, decide_eq_true_iff, Nat.div_eq_zero_iff_lt (by positivity)]
  by_cases h : expoOf eb mb v = 2 ^ eb - 1
  · by_cases hf : v % 2 ^ mb = 0
    all_goals
      have h' : v / 2 ^ mb % 2 ^ eb = 2 ^ eb - 1 := h
      simp only [decodeFloat, h', hf, hquiet, sigAt, nanAt, h]
      simp [Ext.isNaN, Ext.isSig, hf]
  · have hh := decodeFloat_holds (bias := bias) h
    rw [hh.not_nan, hh.not_sig]
    simp [sigAt, nanAt, h]

end Sys2Proof.Machine
end

section
/-! The encoding of a rounded magnitude (R91, R96): its fields, and what it reads in units of the smallest subnormal. -/
namespace Sys2Proof.Machine

/-- The sign bit of an encoding, as a number. -/
def signBit (eb mb : Nat) (n : Bool) : Nat := if n then 2 ^ (eb + mb) else 0

/-- The largest finite magnitude, in units of the smallest subnormal. -/
def mostOf (eb mb : Nat) : Nat := (2 ^ (mb + 1) - 1) * 2 ^ (2 ^ eb - 3)

variable {eb mb bias : Nat} {n : Bool} {E f N j : Nat}

/-- What the fields of an encoding read. -/
theorem encoding_fields (hE : E < 2 ^ eb) (hf : f < 2 ^ mb) :
    let v := signBit eb mb n + E * 2 ^ mb + f
    v < 2 ^ (1 + eb + mb) ∧ expoOf eb mb v = E ∧ v % 2 ^ mb = f ∧ signOf eb mb v = n := by
  intro v
  have hv : v = 2 ^ mb * (2 ^ eb * n.toNat + E) + f := by
    simp only [v, signBit]
    cases n <;> simp [pow_add] <;> ring
  have hhi : v / 2 ^ mb = 2 ^ eb * n.toNat + E := by
    rw [hv, Nat.mul_add_div (by positivity), Nat.div_eq_of_lt hf, Nat.add_zero]
  have htop : v / 2 ^ (mb + eb) = n.toNat := by
    rw [pow_add, ← Nat.div_div_eq_div_mul, hhi, Nat.mul_add_div (by positivity), Nat.div_eq_of_lt hE, Nat.add_zero]
  refine ⟨?_, ?_, ?_, ?_⟩
  · rw [show 1 + eb + mb = (mb + eb) + 1 by omega, pow_succ', ← Nat.div_lt_iff_lt_mul (by positivity), htop]
    cases n <;> decide
  · rw [expoOf, hhi, Nat.mul_add_mod, Nat.mod_eq_of_lt hE]
  · rw [hv, Nat.mul_add_mod, Nat.mod_eq_of_lt hf]
  · rw [signOf, Nat.testBit_eq_decide_div_mod_eq, show 1 + eb + mb - 1 = mb + eb by omega, htop]
    cases n <;> rfl

/-- The magnitude that the fields of an encoding give. -/
theorem magOf_encoding (hE : E < 2 ^ eb) (hf : f < 2 ^ mb) :
    magOf eb mb (signBit eb mb n + E * 2 ^ mb + f) = if E = 0 then f else (2 ^ mb + f) * 2 ^ (E - 1) := by
  obtain ⟨-, he, hm, -⟩ := encoding_fields (n := n) hE hf
  rw [magOf, he, hm]

/-- R91: an exponent field whose magnitude is at most the largest finite one is none of an infinity. -/
theorem expo_lt_of_mag_le (hb : 2 ≤ eb) (h : (2 ^ mb + f) * 2 ^ (E - 1) ≤ mostOf eb mb) : E < 2 ^ eb - 1 := by
  have h4 : 2 ^ 2 ≤ 2 ^ eb := Nat.pow_le_pow_right (by decide) hb
  by_contra hE
  refine absurd h (Nat.not_le.mpr ?_)
  calc mostOf eb mb < 2 ^ (mb + 1) * 2 ^ (2 ^ eb - 3) := by
        unfold mostOf; gcongr; exact Nat.sub_one_lt (by positivity)
    _ = 2 ^ mb * 2 ^ (2 ^ eb - 3 + 1) := by ring
    _ ≤ (2 ^ mb + f) * 2 ^ (E - 1) := by
        gcongr
        · omega
        · decide
        · omega

/-- R96: how a magnitude N at the quantum 2^j above the smallest subnormal is packed: N has mb + 1 bits, or fewer at the lowest quantum, or is the
power of two that rounding up has reached. -/
theorem packFinite_fields (hN : N ≤ 2 ^ (mb + 1)) (hj : j ≠ 0 → 2 ^ mb ≤ N) :
    ∃ E f, packFinite eb mb bias n N (lowOf mb bias + j) = signBit eb mb n + E * 2 ^ mb + f ∧ f < 2 ^ mb ∧
      N * 2 ^ j = if E = 0 then f else (2 ^ mb + f) * 2 ^ (E - 1) := by
  by_cases hlt : N < 2 ^ mb
  · obtain rfl : j = 0 := by by_contra h; exact absurd (hj h) (by omega)
    refine ⟨0, N, ?_, hlt, by simp⟩
    unfold packFinite
    by_cases h0 : N = 0
    · simp [h0, signBit]
    · have hl : N.log2 < mb := (Nat.log2_lt h0).mpr hlt
      have he : (N.log2 : Int) + (lowOf mb bias + (0 : Nat)) + bias ≤ 0 := by unfold lowOf; omega
      simp only [if_neg h0, if_pos he]
      simp [signBit, lowOf]
  · have h0 : N ≠ 0 := fun h => hlt (h ▸ by positivity)
    -- the leading bit stands at mb, or one above it
    obtain ⟨c, hl, hc⟩ : ∃ c : Nat, N.log2 = mb + c ∧ (2 ^ mb + (N / 2 ^ c - 2 ^ mb)) * 2 ^ c = N ∧ N / 2 ^ c - 2 ^ mb < 2 ^ mb ∧
        2 ^ mb ≤ N / 2 ^ c := by
      rcases hN.lt_or_eq with h | rfl
      · exact ⟨0, (Nat.log2_eq_iff h0).mpr ⟨Nat.not_lt.mp hlt, h⟩, by simp; omega, by rw [pow_succ] at h; simp; omega, by simp; omega⟩
      · refine ⟨1, Nat.log2_two_pow, ?_, ?_, ?_⟩
        all_goals rw [pow_succ, pow_one, Nat.mul_div_cancel _ (by decide)]
        · simp
        · simp
    obtain ⟨hback, hf, hge⟩ := hc
    refine ⟨c + j + 1, N / 2 ^ c - 2 ^ mb, ?_, hf, ?_⟩
    · unfold packFinite
      have he : ((N.log2 : Int) + (lowOf mb bias + j) + bias) = (c + j + 1 : Nat) := by rw [hl]; unfold lowOf; push_cast; ring
      have hfrac : (if N.log2 ≤ mb then N * 2 ^ (mb - N.log2) else N / 2 ^ (N.log2 - mb)) = N / 2 ^ c := by
        rw [hl]
        by_cases h : c = 0
        · simp [h]
        · rw [if_neg (by omega), Nat.add_sub_cancel_left]
      simp only [if_neg h0, he, hfrac]
      rw [if_neg (by omega), Int.toNat_natCast, Nat.mod_eq_sub_mod hge, Nat.mod_eq_of_lt hf]
      rfl
    · rw [if_neg (by omega), show c + j + 1 - 1 = c + j by omega, pow_add, ← Nat.mul_assoc, hback]

/-- R96: the encoding of such a magnitude that is at most the largest finite one is finite, and reads it with its sign. -/
theorem packFinite_reads (hb : 2 ≤ eb) (hN : N ≤ 2 ^ (mb + 1)) (hj : j ≠ 0 → 2 ^ mb ≤ N) (hmost : N * 2 ^ j ≤ mostOf eb mb) :
    let v := packFinite eb mb bias n N (lowOf mb bias + j)
    (v < 2 ^ (1 + eb + mb) ∧ expoOf eb mb v ≠ 2 ^ eb - 1) ∧ unitsOf eb mb v = signed n (N * 2 ^ j) ∧ signOf eb mb v = n := by
  obtain ⟨E, f, hv, hf, hmag⟩ := packFinite_fields (eb := eb) (bias := bias) (n := n) hN hj
  have hE : E < 2 ^ eb - 1 := by
    by_cases h : E = 0
    · have : 2 ^ 2 ≤ 2 ^ eb := Nat.pow_le_pow_right (by decide) hb
      omega
    · rw [if_neg h] at hmag
      exact expo_lt_of_mag_le hb (hmag ▸ hmost)
  have hE' : E < 2 ^ eb := by omega
  obtain ⟨hlt, he, -, hs⟩ := encoding_fields (n := n) hE' hf
  intro v
  simp only [v, hv]
  exact ⟨⟨hlt, by omega⟩, by rw [unitsOf, hs, magOf_encoding hE' hf, hmag], hs⟩

end Sys2Proof.Machine
end

section
/-! EncodeFloat of a finite value (R95 to R97): the quantum, the rounded magnitude, the flags and the overflow. -/
namespace Sys2Proof.Machine

/-- The quantum at which a magnitude m × 2^k is rounded (R96). -/
def quantumOf (mb bias m : Nat) (k : Int) : Int := max ((Nat.log2 m : Int) + k) (1 - bias) - mb

/-- The whole quanta of a magnitude. -/
def wholeAt (m : Nat) (k q : Int) : Nat := if q ≤ k then m * 2 ^ (k - q).toNat else m / 2 ^ (q - k).toNat

/-- What a magnitude has beyond its whole quanta, in units of 2^k. -/
def restAt (m : Nat) (k q : Int) : Nat := if q ≤ k then 0 else m % 2 ^ (q - k).toNat

/-- Whether a magnitude of w whole quanta and r of d parts of one more is rounded up (R95). -/
def upAt (mode : Nat) (n : Bool) (w r d : Nat) : Bool :=
  decide (r ≠ 0 ∧ (mode = 0 ∧ (d < 2 * r ∨ 2 * r = d ∧ w % 2 = 1) ∨ mode = 2 ∧ n = false ∨ mode = 3 ∧ n = true ∨ mode = 4 ∧ d ≤ 2 * r))

/-- How r of d parts compare with a half, as cutAt tells it. -/
def restCode (r d : Nat) : Nat := if r = 0 then 0 else if 2 * r < d then 1 else if 2 * r = d then 2 else 3

theorem cutAt_exact (m : Nat) (k q : Int) : cutAt m k q false = (wholeAt m k q, restCode (restAt m k q) (2 ^ (q - k).toNat)) := by
  unfold cutAt wholeAt restAt restCode
  split <;> simp

theorem restCode_eq_zero {r d : Nat} : restCode r d = 0 ↔ r = 0 := by
  unfold restCode
  split_ifs <;> simp_all

theorem roundsUp_restCode {mode : Nat} (hm : mode ≤ 4) (n : Bool) (w r d : Nat) : roundsUp mode n w (restCode r d) = upAt mode n w r d := by
  have hcode : (restCode r d = 3 ↔ r ≠ 0 ∧ d < 2 * r) ∧ (restCode r d = 2 ↔ r ≠ 0 ∧ 2 * r = d) := by
    unfold restCode
    split_ifs <;> simp <;> omega
  have h0 : restCode r d ≠ 0 ↔ r ≠ 0 := restCode_eq_zero.not
  generalize restCode r d = c at hcode h0
  obtain ⟨h3, h2⟩ := hcode
  interval_cases mode
  all_goals
    apply Bool.eq_iff_iff.mpr
    cases n <;> simp [roundsUp, upAt, h3, h2, h0] <;> omega

variable {eb mb bias m : Nat} {k : Int}

theorem lowOf_le_quantumOf : lowOf mb bias ≤ quantumOf mb bias m k := by unfold lowOf quantumOf; omega

/-- R96: at the quantum a magnitude has at most mb + 1 bits, and has mb + 1 of them above the lowest quantum. -/
theorem wholeAt_bounds (h0 : m ≠ 0) : wholeAt m k (quantumOf mb bias m k) < 2 ^ (mb + 1) ∧
    (quantumOf mb bias m k ≠ lowOf mb bias → 2 ^ mb ≤ wholeAt m k (quantumOf mb bias m k)) := by
  obtain ⟨hlo, hhi⟩ := (Nat.log2_eq_iff h0).mp rfl
  obtain ⟨hle, heq⟩ : (m.log2 : Int) + k ≤ quantumOf mb bias m k + mb ∧
      (quantumOf mb bias m k ≠ lowOf mb bias → (m.log2 : Int) + k = quantumOf mb bias m k + mb) := by
    unfold quantumOf lowOf; omega
  generalize quantumOf mb bias m k = q at hle heq
  unfold wholeAt
  split
  case isTrue h =>
    obtain ⟨t, ht⟩ : ∃ t : Nat, k - q = t := Int.eq_ofNat_of_zero_le (by omega)
    rw [ht, Int.toNat_natCast]
    constructor
    · calc m * 2 ^ t < 2 ^ (m.log2 + 1) * 2 ^ t := by gcongr
        _ = 2 ^ (m.log2 + t + 1) := by ring
        _ ≤ 2 ^ (mb + 1) := Nat.pow_le_pow_right (by decide) (by omega)
    · intro hq
      rw [show mb = m.log2 + t by have := heq hq; omega, pow_add]
      gcongr
  case isFalse h =>
    obtain ⟨t, ht⟩ : ∃ t : Nat, q - k = t := Int.eq_ofNat_of_zero_le (by omega)
    rw [ht, Int.toNat_natCast]
    constructor
    · rw [Nat.div_lt_iff_lt_mul (by positivity), ← pow_add]
      exact hhi.trans_le (Nat.pow_le_pow_right (by decide) (by omega))
    · intro hq
      rw [Nat.le_div_iff_mul_le (by positivity), ← pow_add, show mb + t = m.log2 by have := heq hq; omega]
      exact hlo

/-- The rounded magnitude, in quanta. -/
def roundedAt (mode : Nat) (n : Bool) (m : Nat) (k q : Int) : Nat :=
  if upAt mode n (wholeAt m k q) (restAt m k q) (2 ^ (q - k).toNat) then wholeAt m k q + 1 else wholeAt m k q

theorem roundedAt_bounds (mode : Nat) (n : Bool) (h0 : m ≠ 0) : roundedAt mode n m k (quantumOf mb bias m k) ≤ 2 ^ (mb + 1) ∧
    (quantumOf mb bias m k ≠ lowOf mb bias → 2 ^ mb ≤ roundedAt mode n m k (quantumOf mb bias m k)) := by
  obtain ⟨hlt, hge⟩ := wholeAt_bounds (mb := mb) (bias := bias) (k := k) h0
  unfold roundedAt
  exact ⟨by split <;> omega, fun h => (hge h).trans (by split <;> omega)⟩

/-- Magnitudes at two exponents compared, whichever is finer. -/
theorem mag_lt_iff {a b : Nat} {i j u : Int} (hi : u ≤ i) (hj : u ≤ j) :
    a * 2 ^ (i - j).toNat < b * 2 ^ (j - i).toNat ↔ a * 2 ^ (i - u).toNat < b * 2 ^ (j - u).toNat := by
  rcases le_total i j with h | h
  · rw [show (i - j).toNat = 0 by omega, show (j - u).toNat = (j - i).toNat + (i - u).toNat by omega, pow_add, pow_zero, mul_one,
      ← mul_assoc]
    exact (Nat.mul_lt_mul_right (by positivity)).symm
  · rw [show (j - i).toNat = 0 by omega, show (i - u).toNat = (i - j).toNat + (j - u).toNat by omega, pow_add, pow_zero, mul_one,
      ← mul_assoc]
    exact (Nat.mul_lt_mul_right (by positivity)).symm

theorem maxFinite_eq (eb mb bias : Nat) : maxFinite eb mb bias 0 = (2 ^ (mb + 1) - 1, ((2 ^ eb : Nat) : Int) - 2 - bias - mb) := by
  simp [maxFinite]

/-- The check of EncodeFloat against the largest finite value, in units of the smallest subnormal. -/
theorem overflows_iff (hb : 2 ≤ eb) {N : Nat} {q : Int} (hq : lowOf mb bias ≤ q) :
    (maxFinite eb mb bias 0).1 * 2 ^ ((maxFinite eb mb bias 0).2 - q).toNat < N * 2 ^ (q - (maxFinite eb mb bias 0).2).toNat ↔
      mostOf eb mb < N * 2 ^ (q - lowOf mb bias).toNat := by
  have h4 : 2 ^ 2 ≤ 2 ^ eb := Nat.pow_le_pow_right (by decide) hb
  have htop : (maxFinite eb mb bias 0).2 - lowOf mb bias = (2 ^ eb - 3 : Nat) := by
    rw [maxFinite_eq]
    simp only [lowOf]
    omega
  rw [mag_lt_iff (u := lowOf mb bias) (by omega) hq, htop, Int.toNat_natCast]
  rfl

/-- R97: OverflowResult is an infinity, or the encoding before it. -/
theorem overflowResult_eq (hb : 2 ≤ eb) (n : Bool) (mode : Nat) (sat : Bool) : overflowResult eb mb bias 0 n mode sat =
    signBit eb mb n + (2 ^ eb - 1) * 2 ^ mb -
      (if sat = false ∧ (mode = 0 ∨ mode = 4 ∨ mode = 2 ∧ n = false ∨ mode = 3 ∧ n = true) then 0 else 1) := by
  have hbig : bigEnc eb mb bias 0 n = signBit eb mb n + (2 ^ eb - 1) * 2 ^ mb := rfl
  have hmax : maxEnc eb mb bias 0 n = signBit eb mb n + (2 ^ eb - 1) * 2 ^ mb - 1 := by
    have hp : 2 ^ mb ≠ 0 := by positivity
    have h4 : 2 ^ 2 ≤ 2 ^ eb := Nat.pow_le_pow_right (by decide) hb
    have hN0 : 2 ^ (mb + 1) - 1 ≠ 0 := by rw [pow_succ]; omega
    have hl : (2 ^ (mb + 1) - 1).log2 = mb := (Nat.log2_eq_iff hN0).mpr ⟨by rw [pow_succ]; omega, by omega⟩
    have he : ((mb : Int) + (((2 ^ eb : Nat) : Int) - 2 - bias - mb) + bias) = (2 ^ eb - 2 : Nat) := by omega
    have hf : (2 ^ (mb + 1) - 1) % 2 ^ mb = 2 ^ mb - 1 := by
      rw [show 2 ^ (mb + 1) - 1 = 2 ^ mb + (2 ^ mb - 1) by rw [pow_succ]; omega, Nat.add_mod_left, Nat.mod_eq_of_lt (by omega)]
    simp only [maxEnc, maxFinite_eq, packFinite, if_neg hN0, hl, he, le_refl, if_true, Nat.sub_self, pow_zero, mul_one, hf, Int.toNat_natCast]
    rw [if_neg (by omega), show 2 ^ eb - 1 = 2 ^ eb - 2 + 1 by omega, Nat.succ_mul]
    simp only [signBit]
    omega
  have hc : (((mode == 0 || mode == 4 || (mode == 2 && !n) || (mode == 3 && n)) && !sat) = true) =
      (sat = false ∧ (mode = 0 ∨ mode = 4 ∨ mode = 2 ∧ n = false ∨ mode = 3 ∧ n = true)) := by
    apply propext
    cases sat <;> cases n <;> simp [or_assoc]
  simp only [overflowResult, hbig, hmax, hc]
  split <;> rfl

/-- R96, R97: EncodeFloat of a finite value that is not 0. -/
theorem encodeFloat_fin (hb : 2 ≤ eb) {mode : Nat} (hmode : mode ≤ 4) (n : Bool) (h0 : m ≠ 0) (sat : Bool) :
    let q := quantumOf mb bias m k
    let N := roundedAt mode n m k q
    let given := N * 2 ^ (q - lowOf mb bias).toNat
    encodeFloat eb mb bias 0 (.fin n m k false) mode sat =
      if mostOf eb mb < given then (overflowResult eb mb bias 0 n mode sat, 0x005)
      else (packFinite eb mb bias n N q, if restAt m k q = 0 then 0 else if given < 2 ^ mb then 0x003 else 0x001) := by
  intro q N given
  have htiny : (q = 1 - (bias : Int) - mb ∧ N < 2 ^ mb) ↔ given < 2 ^ mb := by
    obtain ⟨-, hge⟩ := roundedAt_bounds (mb := mb) (bias := bias) (k := k) mode n h0
    change (q = lowOf mb bias ∧ N < 2 ^ mb) ↔ _
    by_cases hq : q = lowOf mb bias
    · simp [given, hq]
    · have : N ≤ given := Nat.le_mul_of_pos_right _ (by positivity)
      exact iff_of_false (fun h => hq h.1) (by have : 2 ^ mb ≤ N := hge hq; omega)
  have hover := overflows_iff (mb := mb) (bias := bias) hb (N := N) (q := q) lowOf_le_quantumOf
  unfold encodeFloat
  simp only [h0, false_and, if_false, cutAt_exact, roundsUp_restCode hmode]
  change (if (maxFinite eb mb bias 0).1 * 2 ^ ((maxFinite eb mb bias 0).2 - q).toNat < N * 2 ^ (q - (maxFinite eb mb bias 0).2).toNat
      then (_, (if restCode (restAt m k q) (2 ^ (q - k).toNat) = 0 then 0 else flNX) ||| flOF ||| flNX)
      else (packFinite eb mb bias n N q, if restCode (restAt m k q) (2 ^ (q - k).toNat) ≠ 0 ∧ (q = 1 - (bias : Int) - mb ∧ N < 2 ^ mb)
        then (if restCode (restAt m k q) (2 ^ (q - k).toNat) = 0 then 0 else flNX) ||| flUF
        else if restCode (restAt m k q) (2 ^ (q - k).toNat) = 0 then 0 else flNX)) = _
  simp only [hover, htiny, restCode_eq_zero, ne_eq]
  by_cases hr : restAt m k q = 0
  · simp only [hr, not_true, false_and, if_false, if_true]
    rfl
  · simp only [hr, not_false_eq_true, true_and, if_false]
    rfl

theorem encodeFloat_zero (n : Bool) (k : Int) (mode : Nat) (sat : Bool) :
    encodeFloat eb mb bias 0 (.fin n 0 k false) mode sat = (signBit eb mb n, 0) := rfl

/-- R96: a rounded magnitude up to the largest finite one is delivered, NX telling of a rest and UF of a subnormal. -/
theorem encodeFloat_within (hb : 2 ≤ eb) {mode : Nat} (hmode : mode ≤ 4) (n : Bool) (h0 : m ≠ 0) (sat : Bool) :
    let q := quantumOf mb bias m k
    let given := roundedAt mode n m k q * 2 ^ (q - lowOf mb bias).toNat
    let r := encodeFloat eb mb bias 0 (.fin n m k false) mode sat
    given ≤ mostOf eb mb → (r.1 < 2 ^ (1 + eb + mb) ∧ expoOf eb mb r.1 ≠ 2 ^ eb - 1) ∧ unitsOf eb mb r.1 = signed n given ∧ signOf eb mb r.1 = n ∧
      r.2 = (if restAt m k q = 0 then 0 else if given < 2 ^ mb then 0x003 else 0x001) := by
  intro q given r hle
  have hr : r = _ := (encodeFloat_fin hb hmode n h0 sat).trans (if_neg (Nat.not_lt.mpr hle))
  obtain ⟨hN, hge⟩ := roundedAt_bounds (mb := mb) (bias := bias) (k := k) mode n h0
  have hq : quantumOf mb bias m k = lowOf mb bias + ((q - lowOf mb bias).toNat : Nat) := by
    have : lowOf mb bias ≤ q := lowOf_le_quantumOf
    simp only [q]
    omega
  have hread := packFinite_reads (bias := bias) (n := n) (j := (q - lowOf mb bias).toNat) hb hN (fun h => hge (by omega)) hle
  rw [← hq] at hread
  obtain ⟨hfin, hunits, hsgn⟩ := hread
  rw [hr]
  exact ⟨hfin, hunits, hsgn, rfl⟩

/-- R97: beyond it, OverflowResult with OF and NX. -/
theorem encodeFloat_beyond (hb : 2 ≤ eb) {mode : Nat} (hmode : mode ≤ 4) (n : Bool) (h0 : m ≠ 0) (sat : Bool) :
    let q := quantumOf mb bias m k
    mostOf eb mb < roundedAt mode n m k q * 2 ^ (q - lowOf mb bias).toNat →
      encodeFloat eb mb bias 0 (.fin n m k false) mode sat = (signBit eb mb n + (2 ^ eb - 1) * 2 ^ mb -
        (if sat = false ∧ (mode = 0 ∨ mode = 4 ∨ mode = 2 ∧ n = false ∨ mode = 3 ∧ n = true) then 0 else 1), 0x005) := by
  intro q hlt
  rw [encodeFloat_fin hb hmode n h0 sat, if_pos hlt, overflowResult_eq hb]

end Sys2Proof.Machine
end

section
/-! Element operations, compares and conversions of floating elements, in units of the smallest subnormal (R96 to R100, R169, R171). -/
namespace Sys2Proof.Machine

/-- An encoding that is finite in its format. -/
def FiniteAt (eb mb v : Nat) : Prop := v < 2 ^ (1 + eb + mb) ∧ expoOf eb mb v ≠ 2 ^ eb - 1

/-- A result is EncodeFloat of the exact value of e units of 2^u, a zero having the sign given. -/
def RoundsTo (eb mb bias mode : Nat) (sat : Bool) (r : Nat × Flags) (e u : Int) (zero : Bool) : Prop :=
  ∃ (n : Bool) (m : Nat) (k : Int),
    r = encodeFloat eb mb bias 0 (.fin n m k false) mode sat ∧ u ≤ k ∧ signed n m * 2 ^ (k - u).toNat = e ∧ (m = 0 → n = zero)

theorem RoundsTo.of_holds {eb mb bias mode : Nat} {sat n zero : Bool} {x : Ext} {e u : Int} (h : x.Holds n e u) (hz : e = 0 → n = zero) :
    RoundsTo eb mb bias mode sat (encodeFloat eb mb bias 0 x mode sat) e u zero := by
  obtain ⟨m, k, rfl, hk, he⟩ := h
  exact ⟨n, m, k, rfl, hk, he, fun h0 => hz ((Ext.Holds.fin_zero_iff he).mp h0)⟩

open Ext.Holds (sumZero)

section
variable {eb mb bias : Nat}

/-- An operation of R162 on floating elements rounds its exact result once, by PRND. -/
theorem elemOp_eq_encode {op : Nat} (hop : op ≤ 5) (b mode : Nat) (sat : Bool) {x y z : Nat} {r : Ext}
    (h : floatOp op mode (decodeFloat eb mb bias 0 x) (decodeFloat eb mb bias 0 y) (decodeFloat eb mb bias 0 z) = (r, 0)) :
    elemOp op (.flt b eb mb bias 0) mode sat x y z = encodeFloat eb mb bias 0 r mode sat := by
  have hr : roundsFloat op = true := by simp [roundsFloat, hop]
  simp only [elemOp, decodeTy, hr, Bool.true_and, if_true, h, encodeTy]
  rw [if_neg (by omega)]
  simp

/-- R100: the exact result of each operation of R162 on finite elements, and the sign of a zero. -/
theorem elemOp_roundsTo (hlow : lowOf mb bias ≤ 0) (mode : Nat) (sat : Bool) {x y z : Nat} (hx : FiniteAt eb mb x) (hy : FiniteAt eb mb y)
    (hz : FiniteAt eb mb z) :
    let b := 1 + eb + mb
    let low := lowOf mb bias
    let ux := unitsOf eb mb x
    let uy := unitsOf eb mb y
    let fine := unitsOf eb mb z * 2 ^ (-low).toNat
    let nx := signOf eb mb x
    let ny := signOf eb mb y
    let nz := signOf eb mb z
    let rounds := fun op => RoundsTo eb mb bias mode sat (elemOp op (.flt b eb mb bias 0) mode sat x y z)
    rounds 0 (ux + uy) low (sumZero mode ux uy nx ny) ∧
    rounds 1 (ux - uy) low (sumZero mode ux uy nx (!ny)) ∧
    rounds 2 (ux * uy) (2 * low) (nx != ny) ∧
    rounds 3 (ux * uy + fine) (2 * low) (sumZero mode (ux * uy) fine (nx != ny) nz) ∧
    rounds 4 (ux * uy - fine) (2 * low) (sumZero mode (ux * uy) fine (nx != ny) (!nz)) ∧
    rounds 5 (-(ux * uy) + fine) (2 * low) (sumZero mode (ux * uy) fine (!(nx != ny)) nz) := by
  intro b low ux uy fine nx ny nz rounds
  have hX := decodeFloat_holds (bias := bias) hx.2
  have hY := decodeFloat_holds (bias := bias) hy.2
  have hZ : (decodeFloat eb mb bias 0 z).Holds nz fine (2 * low) := by
    have h := (decodeFloat_holds (bias := bias) hz.2).finer (v := 2 * low) (by omega)
    rwa [show (lowOf mb bias - 2 * low).toNat = (-low).toNat by omega] at h
  have hsum {op : Nat} (hop : op ≤ 5) {e u : Int} {zero zero' : Bool} (hzero : zero' = zero)
      (h : ∃ n r, floatOp op mode (decodeFloat eb mb bias 0 x) (decodeFloat eb mb bias 0 y) (decodeFloat eb mb bias 0 z) = (r, 0) ∧
        r.Holds n e u ∧ (e = 0 → n = zero')) : rounds op e u zero := by
    obtain ⟨n, r, hr, hh, hn⟩ := h
    simp only [rounds]
    rw [elemOp_eq_encode hop b mode sat hr]
    exact .of_holds hh (hzero ▸ hn)
  refine ⟨hsum (by decide) rfl (hX.add hY mode), hsum (by decide) ?_ (hX.add hY.neg mode), ?_, hsum (by decide) rfl (hX.fma hY hZ mode),
    hsum (by decide) ?_ (hX.fma hY hZ.neg mode), ?_⟩
  · simp only [sumZero, neg_eq_zero]
    rfl
  · obtain ⟨r, hr, hh⟩ := hX.mul hY
    rw [← two_mul] at hh
    exact hsum (by decide) rfl ⟨_, r, hr, hh, fun _ => rfl⟩
  · simp only [sumZero, neg_eq_zero]
    rfl
  · have h := hX.neg.fma hY hZ mode
    rw [neg_mul] at h
    refine hsum (by decide) ?_ h
    simp only [sumZero, neg_eq_zero, Bool.not_bne]
    rfl

/-- R169: finite elements compare by value, with no flag. -/
theorem cmpElem_finite {x y : Nat} (hx : FiniteAt eb mb x) (hy : FiniteAt eb mb y) {c : Nat} (hc : c < 8) (b : Nat) :
    let ux := unitsOf eb mb x
    let uy := unitsOf eb mb y
    cmpElem c (.flt b eb mb bias 0) x y = ([decide (ux = uy), decide (ux ≠ uy), decide (ux < uy), decide (ux ≤ uy), decide (uy < ux),
      decide (uy ≤ ux), false, true].getD c false, 0) := by
  intro ux uy
  have hX := decodeFloat_holds (bias := bias) hx.2
  have hY := decodeFloat_holds (bias := bias) hy.2
  have hk : extCmp (decodeFloat eb mb bias 0 x) (decodeFloat eb mb bias 0 y) = if ux < uy then -1 else if ux = uy then 0 else 1 := hX.cmp hY
  simp only [cmpElem, decodeTy, hX.not_nan, hY.not_nan, hX.not_sig, hY.not_sig, hk]
  rcases lt_trichotomy ux uy with h | h | h
  · interval_cases c <;> simp [h, h.le, h.ne, h.not_gt]
  · interval_cases c <;> simp [h]
  · interval_cases c <;> simp [h, h.le, h.ne', h.not_gt]

/-- R169: a NaN is unordered, and a signalling one or an ordered condition is invalid. -/
theorem cmpElem_nan {x y : Nat} (h : (nanAt eb mb x || nanAt eb mb y) = true) {c : Nat} (hc : c < 8) (b : Nat) :
    cmpElem c (.flt b eb mb bias 0) x y =
      (c == 1 || c == 6, if sigAt eb mb x || sigAt eb mb y || decide (2 ≤ c ∧ c ≤ 5) then 0x010 else 0) := by
  obtain ⟨hnx, hsx⟩ := decodeFloat_nan eb mb bias x
  obtain ⟨hny, hsy⟩ := decodeFloat_nan eb mb bias y
  simp only [cmpElem, decodeTy, hnx, hny, hsx, hsy, h]
  interval_cases c <;> rfl

end

/-- R171: a conversion is EncodeFloat of the value. -/
theorem cvtElem_finite {eb mb bias x : Nat} (hx : FiniteAt eb mb x) (b b2 eb2 mb2 bias2 mode : Nat) (sat : Bool) :
    RoundsTo eb2 mb2 bias2 mode sat (cvtElem (.flt b2 eb2 mb2 bias2 0) (.flt b eb mb bias 0) mode sat x) (unitsOf eb mb x) (lowOf mb bias)
      (signOf eb mb x) :=
  .of_holds (decodeFloat_holds hx.2) fun _ => rfl

end Sys2Proof.Machine
end

section
/-! The arithmetic of vectors, element by element under a predicate, and the shadow check of its floating results (R158 to R168, R427). -/
namespace Sys2Proof.Machine
variable {s : State}

/-- The result and the flags of operation op on element i. -/
def elemResult (op : Nat) (t : Ty) (mode : Nat) (sat : Bool) (a b d : Line) (i : Nat) : Nat × Flags :=
  elemOp op t mode sat (lineElem a.toNat t.width i) (lineElem b.toNat t.width i) (lineElem d.toNat t.width i)

/-- Element i is active and its result diverges from its shadow, which only floating arithmetic has (R425 to R427). -/
def elemFails (op : Nat) (t : Ty) (p : Word) (mode : Nat) (sat : Bool) (a b d : Line) (i : Nat) : Bool :=
  t.isFloat && decide (op ≤ 11) && active p t.width i &&
    elemDiverges op t mode sat (lineElem a.toNat t.width i) (lineElem b.toNat t.width i) (lineElem d.toNat t.width i)
      (elemResult op t mode sat a b d i).2 (elemResult op t mode sat a b d i).1

/-- How a vector operation ends where no lane of the tile is at fault: the first diverging element is reported, or every active element takes its
result and its flags are gathered. -/
theorem State.vecOp_eq (he : s.here.errs = []) (i : Instr) (op : Nat) (d : BitVec 5) (a b : Line) (p : BitVec 3) (y : BitVec 4) :
    let t := tyOf y
    let w := t.width
    let r := elemResult op t s.mode s.sat a b (s.getV d)
    let failing := (List.range (512 / w)).filter (elemFails op t (s.getP p) s.mode s.sat a b (s.getV d))
    s.vecOp i op d a b p y = s.finishSeq i (match failing with
      | k :: _ => .error (.counted cSHADOW (BitVec.ofNat 8 k) (BitVec.ofNat 64 (failing.foldl (fun m j => m + 2 ^ j) 0)) false (k * w / 32))
      | [] => .ok ((s.setV d (ofElems w ((List.range (512 / w)).map fun i =>
          if active (s.getP p) w i then (r i).1 else lineElem (s.getV d).toNat w i))).orFlags
            (((List.range (512 / w)).filter (active (s.getP p) w)).foldl (fun f i => f ||| (r i).2) 0))) := by
  have hlane (j : Nat) : s.laneValue j = none := by simp [State.laneValue, he]
  have hdrop : s.dropLanes = s := if_pos he
  intro t w r failing
  unfold State.vecOp
  extract_lets pr ins mode sat checked res bad
  have hins : ins = (List.range (512 / w)).map (fun i => ⟨i, lineElem a.toNat w i, lineElem b.toNat w i, lineElem (s.getV d).toNat w i⟩) := by
    simpa using elemsIn_map w a b (s.getV d) id
  have hres : res = (List.range (512 / w)).map (fun i => (if active pr w i then (r i).1 else lineElem (s.getV d).toNat w i,
      if active pr w i then (r i).2 else 0, elemFails op t pr mode sat a b (s.getV d) i)) := by
    simp only [res, hins, List.map_map]
    refine List.map_congr_left fun i _ => ?_
    simp only [Function.comp_apply, hlane, elemFails]
    cases active pr w i
    · simp
    · change (if checked = true then _ else _) = (_, _, checked && true && _)
      cases checked <;> rfl
  have hbad : bad = failing := by
    simp only [bad, hins, hres, List.zip_map', List.filterMap_map]
    exact congrFun List.filterMap_eq_filter _
  rw [hbad, hdrop, hres]
  simp only [List.map_map, List.foldl_map, foldl_or_filter]
  rfl

/-- An element that diverges: SHADOW_DIVERGENCE, SUB the first such element, TVAL all of them (R427). -/
theorem vecOp_shadow (he : s.here.errs = []) {i : Instr} {op : Nat} {d : BitVec 5} {a b : Line} {p : BitVec 3} {y : BitVec 4}
    (hx : exec i s = s.vecOp i op d a b p y) {k : Nat} :
    let w := (tyOf y).width
    let failing := (List.range (512 / w)).filter (elemFails op (tyOf y) (s.getP p) s.mode s.sat a b (s.getV d))
    failing.head? = some k → exec i s = .next (((s.countTrap cSHADOW (k * w / 32)).trapUnit cSHADOW (BitVec.ofNat 8 k)
      (BitVec.ofNat 64 (failing.foldl (fun m j => m + 2 ^ j) 0)) false).afterRetire) := by
  intro w failing hk
  obtain ⟨r, hr⟩ := List.head?_eq_some_iff.mp hk
  rw [hx, State.vecOp_eq he]
  simp only [failing] at hr ⊢
  rw [hr]
  rfl

/-- No element diverges: the active elements take their results, and FLG their flags. -/
theorem vecOp_completes (he : s.here.errs = []) {i : Instr} {op : Nat} {d : BitVec 5} {a b : Line} {p : BitVec 3} {y : BitVec 4}
    (hx : exec i s = s.vecOp i op d a b p y) (h : s.plain (wordsOf i) = true) :
    let w := (tyOf y).width
    let r := elemResult op (tyOf y) s.mode s.sat a b (s.getV d)
    (List.range (512 / w)).filter (elemFails op (tyOf y) (s.getP p) s.mode s.sat a b (s.getV d)) = [] →
      Completes i s ((s.setV d (ofElems w ((List.range (512 / w)).map fun i =>
        if active (s.getP p) w i then (r i).1 else lineElem (s.getV d).toNat w i))).orFlags
          (((List.range (512 / w)).filter (active (s.getP p) w)).foldl (fun f i => f ||| (r i).2) 0)) := by
  intro w r hnone
  simp only [w] at hnone
  refine Completes.of_keepsControl h ?_ ((State.KeepsControl.setV ..).orFlags _)
  rw [hx, State.vecOp_eq he]
  simp only [hnone]
  rfl

/-- Settles O23: the instructions by how a vector operation ends; the floating elements by their exact results in units of the smallest subnormal,
and EncodeFloat by its quantum. -/
theorem vectorOperationsByElement : Obligations.VectorOperationsByElement := by
  unfold Obligations.VectorOperationsByElement
  refine ⟨fun s d a b p y op n he => ?_, fun eb mb bias eb2 mb2 bias2 mode sat hfmt hmode _ => ?_⟩
  · intro va vb rep q hq
    have hx : exec q.1 s = s.vecOp q.1 q.2.1 d va q.2.2.1 p q.2.2.2 := by
      simp only [List.mem_cons, List.not_mem_nil, or_false] at hq
      rcases hq with rfl | rfl | rfl | rfl | rfl | rfl | rfl | rfl | rfl | rfl | rfl | rfl | rfl | rfl | rfl | rfl | rfl | rfl | rfl | rfl
      all_goals rfl
    exact ⟨fun k hk => vecOp_shadow he hx hk, fun h hnone => vecOp_completes he hx h hnone⟩
  · have hb : 2 ≤ eb ∧ lowOf mb bias ≤ 0 := by
      simp only [List.mem_cons, List.not_mem_nil, or_false, Prod.mk.injEq] at hfmt
      rcases hfmt with ⟨rfl, rfl, rfl⟩ | ⟨rfl, rfl, rfl⟩ | ⟨rfl, rfl, rfl⟩ <;> decide
    obtain ⟨hb, hlow⟩ := hb
    refine ⟨fun x y z hx hy hz => elemOp_roundsTo hlow mode sat hx hy hz, fun n m k => ?_,
      fun c x y hc _ _ => ⟨fun hx hy => cmpElem_finite hx hy hc _, fun hnan => cmpElem_nan hnan hc _⟩, fun x hx => cvtElem_finite hx ..⟩
    intro r q d whole rest up given most sign
    have hsign : sign = signBit eb mb n := by simp only [sign, signBit, show 1 + eb + mb - 1 = eb + mb by omega]
    refine ⟨fun h0 => ?_, fun h0 hle => ?_, fun h0 hlt => ?_⟩
    · rw [hsign]
      simp only [r, h0, encodeFloat_zero]
    · exact encodeFloat_within hb hmode n h0 sat hle
    · rw [hsign]
      exact encodeFloat_beyond hb hmode n h0 sat hlt

end Sys2Proof.Machine
end

section
/-! The words of the predicate instructions, OP 0x25 to 0x27 (R63, R181 to R183): their fields, and when a row refuses one. -/
namespace Sys2Proof.Encoding

/-- The word of a predicate instruction, every field of R181 to R183 given. -/
def predWord (op fn : Nat) (d : BitVec 3) (x : BitVec 6) (a b : BitVec 3) : BitVec 32 :=
  BitVec.ofNat 32 (2 ^ 30 + op * 2 ^ 22 + d.toNat * 2 ^ 19 + a.toNat * 2 ^ 16 + b.toNat * 2 ^ 13 + x.toNat * 2 ^ 7 + fn * 2 ^ 3)

theorem row_reserved {w : BitVec 32} {z : Nat} {i : Instr} (h : w.toNat &&& z ≠ 0) : row w z i = .error .reserved := if_pos h

/-- A field that is not 0 leaves a bit in every mask that holds it. -/
theorem and_ne_zero_of_fld {w : BitVec 32} {lo n z : Nat} (hz : ones lo n &&& z = ones lo n) (h : fld w lo n ≠ 0) : w.toNat &&& z ≠ 0 := by
  intro hw
  have hput : put (fld w lo n) lo = 0 := by rw [put_fld, ← hz, ← Nat.and_assoc, Nat.and_right_comm, hw, Nat.zero_and]
  refine h (BitVec.eq_of_toNat_eq ?_)
  simpa [put] using hput

/-- What the fields of a predicate word read. -/
structure PredFields (w : BitVec 32) (op fn : Nat) (d : BitVec 3) (x : BitVec 6) (a b : BitVec 3) : Prop where
  space : (fld w 30 2).toNat = 1
  op : (fld w 22 7).toNat = op
  fn : (fld w 3 4).toNat = fn
  d : fld w 19 3 = d
  x : fld w 7 6 = x
  a : fld w 16 3 = a
  b : fld w 13 3 = b

theorem predWord_fields {op fn : Nat} (hop : op = 0x25 ∨ op = 0x26 ∨ op = 0x27) (hfn : fn < 16) (d : BitVec 3) (x : BitVec 6) (a b : BitVec 3) :
    PredFields (predWord op fn d x a b) op fn d x a b := by
  have hw : predWord op fn d x a b =
      BitVec.ofNat 32 (2 ^ 30 + op * 2 ^ 22 + put d 19 + put a 16 + put b 13 + put x 7 + put (BitVec.ofNat 4 fn) 3) := by
    simp only [predWord, put, BitVec.toNat_ofNat, Nat.mod_eq_of_lt hfn]
  rcases hop with rfl | rfl | rfl
  all_goals
    apply LaidOut.reads_of_eq hw
    case hx =>
      repeat apply LaidOut.addField
      exact LaidOut.fixedBits _
      all_goals rfl
    intro hr
    have hf := hr.field
    simp only [List.forall_mem_cons, Nat.reduceAdd, Nat.reduceLeDiff, forall_const] at hf
    obtain ⟨hn, hx, hb, ha, hd, -⟩ := hf
    exact ⟨hr.fixed 30 2 (by decide) rfl, hr.fixed 22 7 (by decide) rfl, by rw [hn, BitVec.toNat_ofNat, Nat.mod_eq_of_lt hfn], hd, hx, ha, hb⟩

namespace PredFields
variable {w : BitVec 32} {fn : Nat} {d a b : BitVec 3} {x : BitVec 6} (p : BitVec 32)

/-- R181: OP 0x25 has the fn 0 to 4. -/
theorem plog_unassigned (h : PredFields w 0x25 fn d x a b) (hlt : fn < 16) (hge : 5 ≤ fn) : decodeWords w p = .error .unassigned := by
  rw [decodeWords_of_space_one p h.space, decodeB, h.op, h.fn]
  interval_cases fn
  all_goals rfl

/-- R182: OP 0x26 has the fn 0 to 2. -/
theorem pmov_unassigned (h : PredFields w 0x26 fn d x a b) (hlt : fn < 16) (hge : 3 ≤ fn) : decodeWords w p = .error .unassigned := by
  rw [decodeWords_of_space_one p h.space, decodeB, h.op, h.fn]
  interval_cases fn
  all_goals rfl

theorem plog_scalar (h : PredFields w 0x25 fn d x a b) (hlt : fn < 5) (hx : x ≠ 0) : decodeWords w p = .error .reserved := by
  rw [← h.x] at hx
  rw [decodeWords_of_space_one p h.space, decodeB, h.op, h.fn]
  interval_cases fn
  all_goals exact row_reserved (and_ne_zero_of_fld (by decide) hx)

theorem plogNot_b (h : PredFields w 0x25 4 d x a b) (hb : b ≠ 0) : decodeWords w p = .error .reserved := by
  rw [← h.b] at hb
  rw [decodeWords_of_space_one p h.space, decodeB, h.op, h.fn]
  exact row_reserved (and_ne_zero_of_fld (by decide) hb)

theorem pmov_reserved (h : PredFields w 0x26 0 d x a b) (hr : x ≠ 0 ∨ b ≠ 0) : decodeWords w p = .error .reserved := by
  rw [← h.x, ← h.b] at hr
  rw [decodeWords_of_space_one p h.space, decodeB, h.op, h.fn]
  rcases hr with hx | hb
  · exact row_reserved (and_ne_zero_of_fld (by decide) hx)
  · exact row_reserved (and_ne_zero_of_fld (by decide) hb)

theorem pmovFrom_reserved (h : PredFields w 0x26 1 d x a b) (hr : a ≠ 0 ∨ b ≠ 0) : decodeWords w p = .error .reserved := by
  rw [← h.a, ← h.b] at hr
  rw [decodeWords_of_space_one p h.space, decodeB, h.op, h.fn]
  rcases hr with ha | hb
  · exact row_reserved (and_ne_zero_of_fld (by decide) ha)
  · exact row_reserved (and_ne_zero_of_fld (by decide) hb)

theorem pmovTo_reserved (h : PredFields w 0x26 2 d x a b) (hr : d ≠ 0 ∨ b ≠ 0) : decodeWords w p = .error .reserved := by
  rw [← h.d, ← h.b] at hr
  rw [decodeWords_of_space_one p h.space, decodeB, h.op, h.fn]
  rcases hr with hd | hb
  · exact row_reserved (and_ne_zero_of_fld (by decide) hd)
  · exact row_reserved (and_ne_zero_of_fld (by decide) hb)

/-- R183: OP 0x27 has no fn; the bits of one must be zero. -/
theorem pcnt_reserved (h : PredFields w 0x27 fn d x a b) (hr : fn ≠ 0 ∨ d ≠ 0 ∨ b ≠ 0) : decodeWords w p = .error .reserved := by
  have hn (hn : fn ≠ 0) : fld w 3 4 ≠ 0 := fun h0 => hn (by rw [← h.fn, h0]; rfl)
  rw [← h.d, ← h.b] at hr
  rw [decodeWords_of_space_one p h.space, decodeB, h.op]
  rcases hr with hfn | hd | hb
  · exact row_reserved (and_ne_zero_of_fld (by decide) (hn hfn))
  · exact row_reserved (and_ne_zero_of_fld (by decide) hd)
  · exact row_reserved (and_ne_zero_of_fld (by decide) hb)

end PredFields

/-- The words of the predicate instructions, the fields that they do not name being zero. -/
theorem decode_predWords (d a b : BitVec 3) (x : BitVec 6) (p : BitVec 32) :
    decodeWords (predWord 0x25 0 d 0 a b) p = .ok (.plogAnd d a b) ∧ decodeWords (predWord 0x25 1 d 0 a b) p = .ok (.plogOr d a b) ∧
    decodeWords (predWord 0x25 2 d 0 a b) p = .ok (.plogXor d a b) ∧ decodeWords (predWord 0x25 3 d 0 a b) p = .ok (.plogAndn d a b) ∧
    decodeWords (predWord 0x25 4 d 0 a 0) p = .ok (.plogNot d a) ∧ decodeWords (predWord 0x26 0 d 0 a 0) p = .ok (.pmov d a) ∧
    decodeWords (predWord 0x26 1 d x 0 0) p = .ok (.pmovFrom d x) ∧ decodeWords (predWord 0x26 2 0 x a 0) p = .ok (.pmovTo a x) ∧
    decodeWords (predWord 0x27 0 0 x a 0) p = .ok (.pcnt a x) := by
  have key {i : Instr} {w : BitVec 32} {n : Nat} (hn : (numberB i).or (numberB2 i) = some n) (hwf : i.wfFirst = true)
      (hw : w = BitVec.ofNat 32 n) : decodeWords w p = .ok i := decode_numberB p (t := false) hn hwf hw
  refine ⟨key rfl rfl ?_, key rfl rfl ?_, key rfl rfl ?_, key rfl rfl ?_, key rfl rfl ?_, key rfl rfl ?_, key rfl rfl ?_, key rfl rfl ?_,
    key rfl rfl ?_⟩
  all_goals
    refine congrArg (BitVec.ofNat 32) ?_
    simp only [put, BitVec.ofNat_eq_ofNat, BitVec.toNat_ofNat]
    omega

end Sys2Proof.Encoding

namespace Sys2Proof.Machine
open Sys2Proof.Encoding

/-- Settles O26: the words by their fields, and each instruction as one write of a register. -/
theorem predicateInstructions : Obligations.PredicateInstructions := by
  unfold Obligations.PredicateInstructions
  refine ⟨fun d a b x p => ?_, fun s d a b x h => ?_⟩
  · intro word
    obtain ⟨h1, h2, h3, h4, h5, h6, h7, h8, h9⟩ := decode_predWords d a b x p
    have hl {fn : Nat} (h : fn < 16) : PredFields (word 0x25 fn d x a b) 0x25 fn d x a b := predWord_fields (.inl rfl) h d x a b
    have hm {fn : Nat} (h : fn < 16) : PredFields (word 0x26 fn d x a b) 0x26 fn d x a b := predWord_fields (.inr (.inl rfl)) h d x a b
    have hc {fn : Nat} (h : fn < 16) : PredFields (word 0x27 fn d x a b) 0x27 fn d x a b := predWord_fields (.inr (.inr rfl)) h d x a b
    refine ⟨h1, h2, h3, h4, h5, h6, h7, h8, h9, fun fn hfn => ⟨(hl hfn).plog_unassigned p hfn, (hm hfn).pmov_unassigned p hfn,
      (hl hfn).plog_scalar p, (hc hfn).pcnt_reserved p⟩, (hl (by decide)).plogNot_b p, (hm (by decide)).pmov_reserved p,
      (hm (by decide)).pmovFrom_reserved p, (hm (by decide)).pmovTo_reserved p, fun i hi => ?_⟩
    simp only [List.mem_cons, List.not_mem_nil, or_false] at hi
    rcases hi with rfl | rfl | rfl | rfl | rfl | rfl | rfl | rfl | rfl
    all_goals exact ⟨rfl, rfl, rfl⟩
  · intro u v
    have hP {i : Instr} {y : Word} (hw : wordsOf i = 1) (he : exec i s = s.finishSeq i (.ok (s.setP d y))) : Completes i s (s.setP d y) :=
      .of_keepsControl (hw ▸ h) he (.setP ..)
    have hS {i : Instr} {y : Word} (hw : wordsOf i = 1) (he : exec i s = s.finishSeq i (.ok (s.setS x y))) : Completes i s (s.setS x y) :=
      .of_keepsControl (hw ▸ h) he (.setS ..)
    exact ⟨hP rfl rfl, hP rfl rfl, hP rfl rfl, hP rfl rfl, hP rfl rfl, hP rfl rfl, hP rfl rfl, hS rfl rfl, hS rfl rfl⟩

end Sys2Proof.Machine
end

section
/-! Accesses noted for the watchpoints (R511), which a plain retirement forgets, and what issuing stores leaves of the strand. -/
namespace Sys2Proof.Machine

/-- t is u but for accesses noted for the watchpoints. -/
def State.NotedFrom (u t : State) : Prop := t = u ∨ ∃ l, t = u.setMe { u.me with touched := l }

namespace State.NotedFrom
variable {u t : State}

theorem refl (u : State) : u.NotedFrom u := .inl rfl

theorem note (h : u.NotedFrom t) (g wr : Bool) (a n : Nat) : u.NotedFrom (t.note g wr a n) := by
  unfold State.note
  split
  · exact h
  · rcases h with rfl | ⟨l, rfl⟩
    · exact .inr ⟨_, rfl⟩
    · exact .inr ⟨_, by rw [State.me_setMe, State.setMe_setMe]⟩

/-- Accesses noted one after another. -/
theorem noteAll {α : Type} (h : u.NotedFrom t) (f : State → α → State) (hf : ∀ v a, ∃ g wr b n, f v a = v.note g wr b n) (l : List α) :
    u.NotedFrom (l.foldl f t) := by
  refine List.foldlRecOn (motive := u.NotedFrom) _ _ h fun v hv a _ => ?_
  obtain ⟨g, wr, b, n, he⟩ := hf v a
  exact he ▸ hv.note ..

theorem noteLanes (h : u.NotedFrom t) (wr : Bool) (a : Nat) (lanes : List Nat) : u.NotedFrom (t.noteLanes wr a lanes) :=
  h.noteAll _ (fun _ _ => ⟨_, _, _, _, rfl⟩) lanes

theorem setV (h : u.NotedFrom t) (d : BitVec 5) (v : Line) : (u.setV d v).NotedFrom (t.setV d v) := by
  rcases h with rfl | ⟨l, rfl⟩
  · exact .refl _
  · exact .inr ⟨l, by simp [State.setV]⟩

theorem setP (h : u.NotedFrom t) (d : BitVec 3) (v : Word) : (u.setP d v).NotedFrom (t.setP d v) := by
  rcases h with rfl | ⟨l, rfl⟩
  · exact .refl _
  · refine .inr ⟨l, ?_⟩
    by_cases hd : d = 0
    · rw [hd, State.setP_zero, State.setP_zero]
    · simp [State.setP_of_ne _ _ hd]

end State.NotedFrom

/-- A plain instruction whose effect is u with accesses noted completes with u. -/
theorem Completes.of_notedFrom {s t u : State} {i : Instr} (h : s.plain (wordsOf i) = true) (he : exec i s = s.finishSeq i (.ok t))
    (hn : u.NotedFrom t) (hc : s.KeepsControl u) (hd : u.here.dbg = s.here.dbg) : Completes i s u := by
  rcases hn with rfl | ⟨l, rfl⟩
  · exact Completes.of_keepsControl h he hc
  · obtain ⟨hst, hl, -, hs, ht, hw⟩ := (State.plain_iff s _).mp h
    refine Completes.of_noted h he ?_ ?_ ?_ (Tile.unwatched_congr (by simp [hd]) hw) fun a => ?_
    · rw [State.me_setMe]; exact hc.st.trans hst
    · rw [State.me_setMe]; exact (congrArg _ hc.lstk).trans hl
    · rw [State.me_setMe]; exact hc.stepping.trans hs
    · rw [State.me_setMe, State.setMe_setMe, ← State.arriveAt_setMe_me u, ← Strand.untouched u.me (hc.touched.trans ht)]

/-- What retirement reads of the strand and of the tile stays as it was: stores change local memory and what waits to be stored. -/
structure State.KeepsTile (s t : State) : Prop where
  curTile : t.curTile = s.curTile
  curStrand : t.curStrand = s.curStrand
  strands : t.here.strands = s.here.strands
  dbg : t.here.dbg = s.here.dbg

namespace State.KeepsTile
variable {s t u : State}

theorem refl (s : State) : s.KeepsTile s := ⟨rfl, rfl, rfl, rfl⟩

theorem trans (h : s.KeepsTile t) (g : t.KeepsTile u) : s.KeepsTile u :=
  ⟨g.curTile.trans h.curTile, g.curStrand.trans h.curStrand, g.strands.trans h.strands, g.dbg.trans h.dbg⟩

theorem setHere {y : Tile} (hs : y.strands = s.here.strands) (hd : y.dbg = s.here.dbg) : s.KeepsTile (s.setHere y) :=
  ⟨rfl, rfl, by rw [State.here_setHere, hs], by rw [State.here_setHere, hd]⟩

theorem me (h : s.KeepsTile t) : t.me = s.me := by
  simp only [State.me, Tile.strand, h.strands, h.curStrand]

theorem keepsControl (h : s.KeepsTile t) : s.KeepsControl t := by constructor <;> rw [h.me]

/-- Issuing parts of a store changes neither. -/
theorem storeParts (s : State) (l : List Pend) : s.KeepsTile (s.storeParts l) := by
  refine List.foldlRecOn (motive := s.KeepsTile) _ _ (.refl s) fun t ht p _ => ht.trans ?_
  unfold State.storePart
  split
  · exact .setHere rfl rfl
  · obtain ⟨hs, hd⟩ := Tile.performPart_control t.supervisor t.here p
    exact .setHere hs hd

end State.KeepsTile

/-- A store, however it is issued, with its accesses noted. -/
theorem Completes.of_stored {s t u : State} {i : Instr} (h : s.plain (wordsOf i) = true) (he : exec i s = s.finishSeq i (.ok t))
    (hn : u.NotedFrom t) (hk : s.KeepsTile u) : Completes i s u :=
  .of_notedFrom h he hn hk.keepsControl hk.dbg

/-- A vector register loaded. -/
theorem Completes.of_loadedV {s t : State} {i : Instr} {d : BitVec 5} {v : Line} (h : s.plain (wordsOf i) = true)
    (he : exec i s = s.finishSeq i (.ok (t.setV d v))) (hn : s.NotedFrom t) : Completes i s (s.setV d v) :=
  .of_notedFrom h he (hn.setV d v) (.setV ..) (by simp [State.setV])

end Sys2Proof.Machine
end

section
/-! Local memory bit by bit: what numbers and bit fields read (R117), and what storing a field, or bytes one by one, leaves. -/
namespace Sys2Proof.Machine

/-! ### Bytes and bits of a number -/

theorem testBit_ofBytes (l : List Byte) (k : Nat) : (ofBytes l).testBit k = (l.getD (k / 8) 0).getLsbD (k % 8) := by
  induction l generalizing k with
  | nil => simp [ofBytes]
  | cons b r ih =>
    rw [ofBytes, Nat.add_comm, show (256 : Nat) = 2 ^ 8 from rfl, Nat.testBit_two_pow_mul_add _ b.isLt]
    by_cases hk : k < 8
    · rw [if_pos hk, Nat.div_eq_of_lt hk, Nat.mod_eq_of_lt hk]
      rfl
    · rw [if_neg hk, ih, show k / 8 = (k - 8) / 8 + 1 by omega, show k % 8 = (k - 8) % 8 by omega]
      rfl

theorem toBytes_length (n v : Nat) : (toBytes n v).length = n := by
  induction n generalizing v with
  | zero => rfl
  | succ n ih => simp [toBytes, ih]

theorem toBytes_getD (n v i : Nat) : (toBytes n v).getD i 0 = if i < n then BitVec.ofNat 8 (v / 2 ^ (8 * i)) else 0 := by
  induction n generalizing v i with
  | zero => simp [toBytes]
  | succ n ih =>
    cases i with
    | zero => simp [toBytes]
    | succ i =>
      rw [toBytes, List.getD_cons_succ, ih, Nat.div_div_eq_div_mul, show 256 * 2 ^ (8 * i) = 2 ^ (8 * (i + 1)) by rw [Nat.mul_succ, pow_add]; ring]
      simp

theorem getLsbD_ofNat_div {v i b : Nat} (hb : b < 8) : (BitVec.ofNat 8 (v / 2 ^ i)).getLsbD b = v.testBit (i + b) := by
  rw [BitVec.getLsbD_ofNat, decide_eq_true hb, Bool.true_and, Nat.testBit_div_two_pow, Nat.add_comm]

/-! ### What reads return -/

/-- Bit i of local memory. -/
def Tile.bit (x : Tile) (i : Nat) : Bool := (x.byte (i / 8)).getLsbD (i % 8)

theorem Tile.bytes_getD (x : Tile) (a n i : Nat) : (x.bytes a n).getD i 0 = if i < n then x.byte (a + i) else 0 := by
  induction n generalizing a i with
  | zero => rfl
  | succ n ih =>
    cases i with
    | zero => rfl
    | succ i =>
      rw [Tile.bytes, List.getD_cons_succ, ih, show a + 1 + i = a + (i + 1) by omega]
      simp

theorem Tile.testBit_lm (x : Tile) (a n k : Nat) : (x.lm a n).testBit k = (decide (k < 8 * n) && x.bit (8 * a + k)) := by
  rw [Tile.lm, testBit_ofBytes, Tile.bytes_getD, Tile.bit]
  by_cases hk : k < 8 * n
  · rw [if_pos (by omega), decide_eq_true hk, show (8 * a + k) / 8 = a + k / 8 by omega, show (8 * a + k) % 8 = k % 8 by omega, Bool.true_and]
  · rw [if_neg (by omega), decide_eq_false hk, Bool.false_and]
    exact BitVec.getLsbD_zero

theorem Tile.lm_lt (x : Tile) (a n : Nat) : x.lm a n < 2 ^ (8 * n) :=
  Nat.lt_pow_two_of_testBit _ fun k hk => by rw [Tile.testBit_lm, decide_eq_false (by omega), Bool.false_and]

theorem Tile.testBit_bits (x : Tile) (b w k : Nat) : (x.bits b w).testBit k = (decide (k < w) && x.bit (b + k)) := by
  unfold Tile.bits
  split
  case isTrue h => simp [h]
  case isFalse h =>
    rw [Nat.testBit_mod_two_pow, Nat.testBit_div_two_pow, Tile.testBit_lm]
    by_cases hk : k < w
    · rw [decide_eq_true hk, decide_eq_true (by omega), show 8 * (b / 8) + (k + b % 8) = b + k by omega, Bool.true_and]
    · simp [hk]

/-- A byte of a number read from local memory. -/
theorem Tile.lineElem_lm (x : Tile) (a n : Nat) {j : Nat} (hj : j < n) : lineElem (x.lm a n) 8 j = (x.byte (a + j)).toNat := by
  apply Nat.eq_of_testBit_eq
  intro k
  rw [testBit_lineElem, Tile.testBit_lm]
  by_cases hk : k < 8
  · rw [decide_eq_true hk, decide_eq_true (by omega), Tile.bit, show (8 * a + (8 * j + k)) / 8 = a + j by omega,
      show (8 * a + (8 * j + k)) % 8 = k by omega]
    rfl
  · rw [decide_eq_false hk, Bool.false_and]
    exact (BitVec.getLsbD_of_ge _ _ (by omega)).symm

/-- The number of n bytes, from the bytes. -/
theorem Tile.lm_eq {x : Tile} {a n v : Nat} (hv : v < 2 ^ (8 * n)) (h : ∀ i < n, x.byte (a + i) = BitVec.ofNat 8 (v / 2 ^ (8 * i))) :
    x.lm a n = v := by
  apply Nat.eq_of_testBit_eq
  intro k
  rw [Tile.testBit_lm]
  by_cases hk : k < 8 * n
  · rw [decide_eq_true hk, Bool.true_and, Tile.bit, show (8 * a + k) / 8 = a + k / 8 by omega, h _ (by omega),
      getLsbD_ofNat_div (by omega)]
    congr 1
    omega
  · rw [decide_eq_false hk, Bool.false_and]
    exact (Nat.testBit_lt_two_pow (hv.trans_le (Nat.pow_le_pow_right (by decide) (by omega)))).symm

/-- A field, from its bits. -/
theorem Tile.bits_eq {x : Tile} {b w v : Nat} (h : ∀ k < w, x.bit (b + k) = v.testBit k) : x.bits b w = v % 2 ^ w := by
  apply Nat.eq_of_testBit_eq
  intro k
  rw [Tile.testBit_bits, Nat.testBit_mod_two_pow]
  by_cases hk : k < w
  · rw [h k hk]
  · simp [hk]

/-- A byte, from its bits. -/
theorem Tile.byte_eq_of_bit {x y : Tile} {k : Nat} (h : ∀ i, 8 * k ≤ i → i < 8 * k + 8 → x.bit i = y.bit i) : x.byte k = y.byte k := by
  apply BitVec.eq_of_getLsbD_eq
  intro i hi
  have := h (8 * k + i) (by omega) (by omega)
  simpa only [Tile.bit, show (8 * k + i) / 8 = k by omega, show (8 * k + i) % 8 = i by omega] using this

/-! ### A field stored (R131, R178) -/

/-- A number with w of its bits, from o up, replaced. -/
theorem testBit_replaceField (A v o w k : Nat) : (A - A / 2 ^ o % 2 ^ w * 2 ^ o + v % 2 ^ w * 2 ^ o).testBit k =
    if o ≤ k ∧ k < o + w then v.testBit (k - o) else A.testBit k := by
  have hsplit : A = 2 ^ o * (2 ^ w * (A / 2 ^ o / 2 ^ w) + A / 2 ^ o % 2 ^ w) + A % 2 ^ o := by rw [Nat.div_add_mod, Nat.div_add_mod]
  have hlo : A % 2 ^ o < 2 ^ o := Nat.mod_lt _ (by positivity)
  have hnew : A - A / 2 ^ o % 2 ^ w * 2 ^ o + v % 2 ^ w * 2 ^ o = 2 ^ o * (2 ^ w * (A / 2 ^ o / 2 ^ w) + v % 2 ^ w) + A % 2 ^ o := by
    have hle : A / 2 ^ o % 2 ^ w * 2 ^ o ≤ A := (Nat.mul_le_mul_right _ (Nat.mod_le ..)).trans (Nat.div_mul_le_self ..)
    generalize A / 2 ^ o / 2 ^ w = H, A / 2 ^ o % 2 ^ w = M, A % 2 ^ o = L at *
    rw [hsplit, Nat.mul_add, Nat.mul_add, Nat.mul_comm M, Nat.mul_comm (v % 2 ^ w)]
    omega
  rw [hnew, Nat.testBit_two_pow_mul_add _ hlo, Nat.testBit_two_pow_mul_add _ (Nat.mod_lt _ (by positivity))]
  simp only [Nat.testBit_mod_two_pow, Nat.testBit_div_two_pow]
  by_cases h1 : k < o
  · simp [h1, Nat.not_le.mpr h1]
  · by_cases h2 : k - o < w
    · rw [if_neg h1, if_pos h2, if_pos (by omega), decide_eq_true h2, Bool.true_and]
    · rw [if_neg h1, if_neg h2, if_neg (by omega)]
      congr 1
      omega

/-- What storing a field leaves: its bits, and every other bit as before. -/
theorem Tile.bit_storeField (x : Tile) (mgmt : Bool) {b w : Nat} (hw : 0 < w) (v i : Nat) :
    (x.storeBytes mgmt (b / 8) (x.bitsBytes b w v)).bit i = if b ≤ i ∧ i < b + w then v.testBit (i - b) else x.bit i := by
  have hbytes : x.bitsBytes b w v = toBytes ((b + w - 1) / 8 + 1 - b / 8) (x.lm (b / 8) ((b + w - 1) / 8 + 1 - b / 8) -
      x.lm (b / 8) ((b + w - 1) / 8 + 1 - b / 8) / 2 ^ (b % 8) % 2 ^ w * 2 ^ (b % 8) + v % 2 ^ w * 2 ^ (b % 8)) := by
    simp only [Tile.bitsBytes, Tile.bits, if_neg hw.ne']
  rw [Tile.bit, Tile.byte_storeBytes, hbytes, toBytes_length, toBytes_getD]
  generalize hn : (b + w - 1) / 8 + 1 - b / 8 = n
  by_cases hi : b / 8 ≤ i / 8 ∧ i / 8 < b / 8 + n
  · rw [if_pos hi, if_pos (by omega), getLsbD_ofNat_div (Nat.mod_lt _ (by decide)), testBit_replaceField, Tile.testBit_lm]
    by_cases hf : b ≤ i ∧ i < b + w
    · rw [if_pos hf, if_pos (by omega)]
      congr 1
      omega
    · rw [if_neg hf, if_neg (by omega), decide_eq_true (by omega), Bool.true_and, Tile.bit]
      congr 2 <;> omega
  · rw [if_neg hi, if_neg (by omega), Tile.bit]

/-- The fields of the lanes l, lane j at bit base + j × w, stored one after another. -/
def Tile.storeFields (x : Tile) (mgmt : Bool) (base w : Nat) (v : Nat → Nat) (l : List Nat) : Tile :=
  l.foldl (fun y j => y.storeBytes mgmt ((base + j * w) / 8) (y.bitsBytes (base + j * w) w (v j))) x

section
variable {mgmt : Bool} {base w : Nat} {v : Nat → Nat} {l : List Nat} {x : Tile}

theorem Tile.bit_storeFields_other (hw : 0 < w) {i : Nat} (hi : ∀ j ∈ l, i < base + j * w ∨ base + (j + 1) * w ≤ i) :
    (x.storeFields mgmt base w v l).bit i = x.bit i := by
  refine List.foldlRecOn (motive := fun y : Tile => y.bit i = x.bit i) _ _ rfl fun y hy j hj => ?_
  have := hi j hj
  rw [Tile.bit_storeField y mgmt hw, if_neg (by rw [Nat.succ_mul] at this; omega), hy]

theorem Tile.bit_storeFields_lane (hw : 0 < w) {j k : Nat} (hj : j ∈ l) (hk : k < w) :
    (x.storeFields mgmt base w v l).bit (base + j * w + k) = (v j).testBit k := by
  induction l generalizing x with
  | nil => cases hj
  | cons c r ih =>
    change (Tile.storeFields _ mgmt base w v r).bit _ = _
    by_cases hr : j ∈ r
    · exact ih hr
    · obtain rfl : j = c := by simpa [hr] using hj
      rw [Tile.bit_storeFields_other hw fun i hi => ?_, Tile.bit_storeField x mgmt hw, if_pos (by omega)]
      · congr 1
        omega
      · rcases Nat.lt_or_gt_of_ne (fun h : i = j => hr (h ▸ hi)) with h | h
        · exact .inr ((Nat.add_le_add_left (Nat.mul_le_mul_right w h) base).trans (Nat.le_add_right ..))
        · refine .inl ?_
          have := Nat.mul_le_mul_right w h
          rw [Nat.succ_mul] at this
          omega

end

/-! ### Bytes stored one by one -/

/-- The byte at k after bytes are written from a list of addresses. -/
def byteAfter (k : Nat) (l : List (Nat × Byte)) (b : Byte) : Byte := l.foldl (fun b c => if c.1 = k then c.2 else b) b

theorem byteAfter_append (k : Nat) (l r : List (Nat × Byte)) (b : Byte) : byteAfter k (l ++ r) b = byteAfter k r (byteAfter k l b) :=
  List.foldl_append

/-- Bytes written from an address up. -/
theorem byteAfter_mapIdx (k a : Nat) (bs : List Byte) (b : Byte) :
    byteAfter k (bs.mapIdx fun j c => (a + j, c)) b = if a ≤ k ∧ k < a + bs.length then bs.getD (k - a) 0 else b := by
  induction bs generalizing a b with
  | nil => simp [byteAfter]
  | cons c r ih =>
    have hshift : (fun j c => (a + (j + 1), c) : Nat → Byte → Nat × Byte) = fun j c => (a + 1 + j, c) := by
      funext j c
      rw [show a + (j + 1) = a + 1 + j by omega]
    rw [List.mapIdx_cons, hshift]
    change byteAfter k _ (if a + 0 = k then c else b) = _
    rw [ih, List.length_cons]
    by_cases hk : k = a
    · subst hk
      rw [if_neg (by omega), if_pos (by omega), if_pos (by omega), Nat.sub_self]
      rfl
    · by_cases hin : a + 1 ≤ k ∧ k < a + 1 + r.length
      · rw [if_pos hin, if_pos (by omega), show k - a = k - (a + 1) + 1 by omega, List.getD_cons_succ]
      · rw [if_neg hin, if_neg (by omega), if_neg (by omega)]

theorem Tile.byte_writeCells (l : List (Nat × Byte)) (k : Nat) (x : Tile) :
    (l.foldl (fun y c => y.writeBytes c.1 [c.2]) x).byte k = byteAfter k l (x.byte k) := by
  induction l generalizing x with
  | nil => rfl
  | cons c r ih =>
    have hone : (x.writeBytes c.1 [c.2]).byte k = if c.1 = k then c.2 else x.byte k := by
      rw [Tile.byte_writeBytes]
      by_cases hk : c.1 = k
      · rw [if_pos hk, if_pos (by simp; omega), hk, Nat.sub_self]
        rfl
      · rw [if_neg hk, if_neg (by simp; omega)]
    rw [List.foldl_cons, ih, hone]
    rfl

/-- What storing bytes one by one leaves at each address. -/
theorem Tile.byte_storeCells (x : Tile) (mgmt : Bool) (l : List (Nat × Byte)) (k : Nat) : (x.storeCells mgmt l).byte k = byteAfter k l (x.byte k) := by
  have htouch : (l.foldl (fun y c => y.touch mgmt (c.1 / 64) (1#64 <<< (c.1 % 64))) x).byte k = x.byte k :=
    List.foldlRecOn (motive := fun y : Tile => y.byte k = x.byte k) _ _ rfl fun y hy c _ => by rw [Tile.byte_touch, hy]
  unfold Tile.storeCells
  rw [Tile.byte_writeCells, htouch]

theorem Tile.storeCells_control (x : Tile) (mgmt : Bool) (l : List (Nat × Byte)) :
    (x.storeCells mgmt l).strands = x.strands ∧ (x.storeCells mgmt l).dbg = x.dbg := by
  have htouch : (l.foldl (fun y c => y.touch mgmt (c.1 / 64) (1#64 <<< (c.1 % 64))) x).strands = x.strands ∧
      (l.foldl (fun y c => y.touch mgmt (c.1 / 64) (1#64 <<< (c.1 % 64))) x).dbg = x.dbg :=
    List.foldlRecOn (motive := fun y : Tile => y.strands = x.strands ∧ y.dbg = x.dbg) _ _ ⟨rfl, rfl⟩ fun y hy c _ => by
      obtain ⟨hs, hd, -⟩ := Tile.touch_strands y mgmt (c.1 / 64) (1#64 <<< (c.1 % 64))
      exact ⟨hs.trans hy.1, hd.trans hy.2⟩
  exact List.foldlRecOn (motive := fun y : Tile => y.strands = x.strands ∧ y.dbg = x.dbg) _ _ htouch fun _ hy _ _ => hy

end Sys2Proof.Machine
end

section
/-! The parts of a store (R346) as blocks of its bytes, and room in retention (R278) for a store of at most 64 lines. -/
namespace Sys2Proof.Machine

/-! ### Lists without repetitions -/

theorem eraseDups_nodup (l : List Nat) : l.eraseDups.Nodup := by
  induction hn : l.length using Nat.strong_induction_on generalizing l with
  | _ n ih =>
    cases l with
    | nil => simp
    | cons a r =>
      subst hn
      rw [List.eraseDups_cons, List.nodup_cons]
      refine ⟨fun h => ?_, ih _ (Nat.lt_succ_of_le (List.length_filter_le ..)) _ rfl⟩
      simpa using List.mem_eraseDups.mp h

theorem eraseDups_length_le {l r : List Nat} (h : l ⊆ r) : l.eraseDups.length ≤ r.length :=
  (List.subperm_of_subset (eraseDups_nodup l) fun _ hx => h (List.mem_eraseDups.mp hx)).length_le

/-- The keys of blocks that each have one key of their own, in order. -/
theorem eraseDups_flatMap_keys {α : Type} {keys : List Nat} {g : Nat → List α} {f : α → Nat} (hk : keys.Nodup) (hne : ∀ k ∈ keys, g k ≠ [])
    (hf : ∀ k ∈ keys, ∀ c ∈ g k, f c = k) : ((keys.flatMap g).map f).eraseDups = keys := by
  induction keys with
  | nil => rfl
  | cons k r ih =>
    obtain ⟨hkr, hr⟩ := List.nodup_cons.mp hk
    obtain ⟨c, cs, hg⟩ := List.exists_cons_of_ne_nil (hne k (by simp))
    have hself (x : α) (hx : x ∈ cs) : f x = k := hf k (by simp) x (hg ▸ List.mem_cons_of_mem c hx)
    have hhead : ((cs.map f).filter fun b => !b == k) = [] := by simpa [List.filter_eq_nil_iff] using hself
    have htail : (((r.flatMap g).map f).filter fun b => !b == k) = (r.flatMap g).map f := by
      refine List.filter_eq_self.mpr fun b hb => ?_
      obtain ⟨x, hx, rfl⟩ := List.mem_map.mp hb
      obtain ⟨j, hj, hxj⟩ := List.mem_flatMap.mp hx
      rw [hf j (List.mem_cons_of_mem k hj) x hxj]
      simpa using fun h : j = k => hkr (h ▸ hj)
    rw [List.flatMap_cons, hg, List.map_append, List.map_cons, List.cons_append, List.eraseDups_cons, hf k (by simp) c (by simp [hg]),
      List.filter_append, hhead, htail, List.nil_append, ih hr (fun j hj => hne j (List.mem_cons_of_mem k hj))
        fun j hj => hf j (List.mem_cons_of_mem k hj)]

theorem filter_flatMap_key {α : Type} {keys : List Nat} {g : Nat → List α} {f : α → Nat} (hk : keys.Nodup) (hf : ∀ k ∈ keys, ∀ c ∈ g k, f c = k)
    {k : Nat} (hm : k ∈ keys) : (keys.flatMap g).filter (fun c => f c == k) = g k := by
  induction keys with
  | nil => cases hm
  | cons j r ih =>
    obtain ⟨hjr, hr⟩ := List.nodup_cons.mp hk
    have hrest (h : k ∉ r) : (r.flatMap g).filter (fun c => f c == k) = [] := by
      refine List.filter_eq_nil_iff.mpr fun c hc => ?_
      obtain ⟨i, hi, hci⟩ := List.mem_flatMap.mp hc
      rw [hf i (List.mem_cons_of_mem j hi) c hci]
      simpa using fun h' : i = k => h (h' ▸ hi)
    have hown : (g j).filter (fun c => f c == k) = if j = k then g j else [] := by
      split
      case isTrue h => exact List.filter_eq_self.mpr fun c hc => by simp [hf j (by simp) c hc, h]
      case isFalse h => exact List.filter_eq_nil_iff.mpr fun c hc => by simp [hf j (by simp) c hc, h]
    rw [List.flatMap_cons, List.filter_append, hown]
    by_cases hjk : j = k
    · subst hjk
      rw [if_pos rfl, hrest hjr, List.append_nil]
    · have hkr : k ∈ r := (List.mem_cons.mp hm).resolve_left (Ne.symm hjk)
      rw [if_neg hjk, List.nil_append, ih hr (fun i hi => hf i (List.mem_cons_of_mem j hi)) hkr]

/-! ### Parts -/

/-- A store whose cells come in blocks, each the cells of one part: one part for each block (R346). -/
theorem partsOf_flatMap (n : BitVec 2) (cycle part : Nat) {keys : List Nat} {g : Nat → List WCell} (hk : keys.Nodup)
    (hne : ∀ k ∈ keys, g k ≠ []) (hg : ∀ k ∈ keys, ∀ c ∈ g k, c.addr / part = k) :
    partsOf n cycle part (keys.flatMap g) = keys.map fun k => { strand := n, since := cycle, line := k * part / 64, cells := g k } := by
  rw [partsOf, eraseDups_flatMap_keys hk hne hg]
  exact List.map_congr_left fun k hm => by rw [filter_flatMap_key hk hg hm]

theorem toBytes_add (m n v : Nat) : toBytes (m + n) v = toBytes m v ++ toBytes n (v / 256 ^ m) := by
  induction m generalizing v with
  | zero => simp [toBytes]
  | succ m ih =>
    rw [Nat.succ_add, toBytes, ih, toBytes, List.cons_append, Nat.div_div_eq_div_mul, pow_succ']

theorem byteCells_append (a : Nat) (l r : List Byte) : byteCells a (l ++ r) = byteCells a l ++ byteCells (a + l.length) r := by
  induction l generalizing a with
  | nil => rfl
  | cons b l ih =>
    rw [List.cons_append, byteCells, ih, byteCells, List.cons_append, List.length_cons, show a + (l.length + 1) = a + 1 + l.length by omega]

theorem byteCells_addr {a : Nat} {l : List Byte} : ∀ c ∈ byteCells a l, a ≤ c.addr ∧ c.addr < a + l.length := by
  induction l generalizing a with
  | nil => nofun
  | cons b l ih =>
    intro c hc
    rw [List.length_cons]
    rcases List.mem_cons.mp hc with rfl | hc
    · exact ⟨le_rfl, by dsimp only; omega⟩
    · have := ih c hc
      omega

theorem byteCells_eq_mapIdx (a : Nat) (l : List Byte) :
    byteCells a l = (l.mapIdx fun j b => (a + j, b)).map fun c => { addr := c.1, mask := 0xFF, val := c.2 } := by
  induction l generalizing a with
  | nil => rfl
  | cons b l ih =>
    have hshift : (fun j c => (a + (j + 1), c) : Nat → Byte → Nat × Byte) = fun j c => (a + 1 + j, c) := by
      funext j c
      rw [show a + (j + 1) = a + 1 + j by omega]
    rw [byteCells, ih, List.mapIdx_cons, List.map_cons, hshift]
    rfl

/-- The bytes of n parts are those of each part. -/
theorem byteCells_parts (a n v : Nat) : byteCells a (toBytes (16 * n) v) =
    (List.range n).flatMap fun j => byteCells (a + 16 * j) (toBytes 16 (v / 2 ^ (128 * j))) := by
  induction n with
  | zero => rfl
  | succ n ih =>
    rw [Nat.mul_succ, toBytes_add, byteCells_append, ih, toBytes_length, List.range_succ, List.flatMap_append, List.flatMap_singleton,
      show 256 ^ (16 * n) = 2 ^ (128 * n) by rw [show 256 = 2 ^ 8 from rfl, ← pow_mul, ← Nat.mul_assoc]]

/-- R177, R346: a whole line is stored in four parts. -/
theorem partsOf_line (n : BitVec 2) (cycle line v : Nat) : partsOf n cycle 16 (byteCells (64 * line) (toBytes 64 v)) =
    (List.range 4).map fun j =>
      { strand := n, since := cycle, line := line, cells := byteCells (64 * line + 16 * j) (toBytes 16 (v / 2 ^ (128 * j))) } := by
  have hcells : byteCells (64 * line) (toBytes 64 v) = ((List.range 4).map (4 * line + ·)).flatMap fun k =>
      byteCells (16 * k) (toBytes 16 (v / 2 ^ (128 * (k - 4 * line)))) := by
    rw [show 64 = 16 * 4 from rfl, byteCells_parts, List.flatMap_map]
    congr 1
    funext j
    rw [Nat.add_sub_cancel_left, Nat.mul_add, ← Nat.mul_assoc]
  rw [hcells, partsOf_flatMap n cycle 16 (List.nodup_range.map fun i j h => Nat.add_left_cancel h) (fun k _ => by simp [toBytes, byteCells])
    fun k _ c hc => by
      obtain ⟨hlo, hhi⟩ := byteCells_addr c hc
      rw [toBytes_length] at hhi
      omega, List.map_map]
  refine List.map_congr_left fun j hj => ?_
  have hj4 : j < 4 := List.mem_range.mp hj
  simp only [Function.comp_apply, Nat.add_sub_cancel_left, show (4 * line + j) * 16 / 64 = line by omega,
    show 16 * (4 * line + j) = 64 * line + 16 * j by omega]

/-! ### Room for pre-images -/

/-- R278: there is room for a store of at most 64 lines. -/
theorem Tile.retentionOk_of_room {x : Tile} {lines ls : List Nat} (mgmt : Bool) (hroom : x.retu + 64 * (64 + x.sbuf.length) ≤ 65536)
    (hsub : lines ⊆ ls) (hlen : ls.length ≤ 64) : x.retentionOk mgmt lines = true := by
  have hle : ((x.sbuf.map Pend.line ++ lines).eraseDups.filter (x.needsPre mgmt)).length ≤ (x.sbuf.map Pend.line ++ ls).length :=
    (List.length_filter_le ..).trans (eraseDups_length_le (List.append_subset.mpr
      ⟨List.subset_append_left .., fun _ h => List.subset_append_right _ _ (hsub h)⟩))
  rw [List.length_append, List.length_map] at hle
  exact decide_eq_true (by omega)

end Sys2Proof.Machine
end

section
/-! Whole lines under a byte predicate, and described lines (R176, R177, R264). -/
namespace Sys2Proof.Machine
variable {s : State}

theorem State.KeepsControl.trans {s t u : State} (h : s.KeepsControl t) (g : t.KeepsControl u) : s.KeepsControl u :=
  ⟨g.st.trans h.st, g.lstk.trans h.lstk, g.stepping.trans h.stepping, g.touched.trans h.touched⟩

theorem State.preRead_none (he : s.here.errs = []) (tval : Word) (l : List Nat) : s.preRead tval l = .ok s := by
  cases l with
  | nil => rfl
  | cons k r => exact if_pos he

theorem Tile.lanesLocked_of_no_locks {x : Tile} (h : x.locks = []) (a : Nat) (lanes : List Nat) (acc : Access) : x.lanesLocked a lanes acc = false := by
  simp [Tile.lanesLocked, Tile.locked, h]

theorem lanesOn_eq (p : Word) : lanesOn p 0 64 = (List.range 64).filter fun j => p.getLsbD j := by rw [lanesOn, span_zero_eq_range]

/-- A number read from local memory fits in its bits. -/
theorem Tile.toNat_ofNat_lm (x : Tile) (a n : Nat) : (BitVec.ofNat (8 * n) (x.lm a n)).toNat = x.lm a n := by
  rw [BitVec.toNat_ofNat, Nat.mod_eq_of_lt (Tile.lm_lt ..)]

/-- R176: VLD where nothing stops it. -/
theorem exec_vld (hp : s.pone = false) (he : s.here.errs = []) (hl : s.here.locks = []) {x : BitVec 5} {b : BitVec 6} {p : BitVec 3} {i : BitVec 8}
    (hb : (s.address b i 64).toNat < 2 ^ 18) (ha : (s.address b i 64).toNat % 64 = 0) :
    exec (.vld x b p i) s = s.finishSeq (.vld x b p i) (.ok ((s.noteLanes false (s.address b i 64).toNat (lanesOn (s.getP p) 0 64)).setV x
      (blend (s.getP p) (BitVec.ofNat 512 (s.view.lm (s.address b i 64).toNat 64)) (s.getV x)))) := by
  show execVld x b p i s = _
  have hread : (if (lanesOn (s.getP p) 0 64).isEmpty = true then Except.ok s
      else s.readLines (s.address b i 64) [(s.address b i 64).toNat / 64]) = .ok s := by
    rw [State.readLines_none s he, ite_self]
  simp only [execVld, State.finishPone, hp, hread, Tile.lanesLocked_of_no_locks hl, Nat.not_le.mpr hb, ha, ne_eq, not_true, Bool.not_false,
    Bool.false_and, if_true, if_false, Bool.false_eq_true]
  rfl

theorem vld_completes (h : s.plain 1 = true) (hp : s.pone = false) (he : s.here.errs = []) (hl : s.here.locks = []) {x : BitVec 5} {b : BitVec 6}
    {p : BitVec 3} {i : BitVec 8} (hb : (s.address b i 64).toNat < 2 ^ 18) (ha : (s.address b i 64).toNat % 64 = 0) :
    ∃ v : Line, Completes (.vld x b p i) s (s.setV x v) ∧ ∀ j < 64, lineElem v.toNat 8 j =
      if (s.getP p).getLsbD j then (s.view.byte ((s.address b i 64).toNat + j)).toNat else lineElem (s.getV x).toNat 8 j := by
  refine ⟨_, Completes.of_loadedV h (exec_vld hp he hl hb ha) (.noteLanes (.refl s) ..), fun j hj => ?_⟩
  have hline : (BitVec.ofNat 512 (s.view.lm (s.address b i 64).toNat 64)).toNat = s.view.lm (s.address b i 64).toNat 64 :=
    Tile.toNat_ofNat_lm s.view (s.address b i 64).toNat 64
  rw [blend_eq, lineElem_ofElems _ (by omega), range_map_getD, if_pos hj, hline, Tile.lineElem_lm _ _ _ hj, apply_ite (· % 2 ^ 8), lineElem_mod,
    Nat.mod_eq_of_lt (BitVec.isLt _)]

/-! ### VST -/

/-- Bytes stored in the lanes of a span that a predicate selects. -/
theorem byteAfter_lanes (k a n : Nat) (q : Nat → Bool) (f : Nat → Byte) (b : Byte) :
    byteAfter k (((List.range n).filter q).map fun j => (a + j, f j)) b = if a ≤ k ∧ k < a + n ∧ q (k - a) = true then f (k - a) else b := by
  induction n with
  | zero => exact (if_neg (by omega)).symm
  | succ n ih =>
    have hlane : byteAfter k (([n].filter q).map fun j => (a + j, f j)) (if a ≤ k ∧ k < a + n ∧ q (k - a) = true then f (k - a) else b) =
        if q n = true ∧ a + n = k then f n else if a ≤ k ∧ k < a + n ∧ q (k - a) = true then f (k - a) else b := by
      cases hq : q n <;> simp [byteAfter, hq]
    rw [List.range_succ, List.filter_append, List.map_append, byteAfter_append, ih, hlane]
    by_cases hk : k = a + n
    · subst hk
      simp
    · rw [if_neg (by omega)]
      simp only [show k < a + (n + 1) ↔ k < a + n by omega]

/-- The bytes of VST, each with its address. -/
def State.vstCells (s : State) (x : BitVec 5) (p : BitVec 3) (a : Nat) : List (Nat × Byte) :=
  ((List.range 64).filter fun j => (s.getP p).getLsbD j).map fun j => (a + j, BitVec.ofNat 8 (lineElem (s.getV x).toNat 8 j))

section
variable {x : BitVec 5} {b : BitVec 6} {p : BitVec 3} {i : BitVec 8}

/-- R176: VST where nothing stops it. -/
theorem exec_vst (he : s.here.errs = []) (hl : s.here.locks = []) (hb : (s.address b i 64).toNat < 2 ^ 18)
    (ha : (s.address b i 64).toNat % 64 = 0) (hr : s.here.retentionOk (isMgmt s.curTile) [(s.address b i 64).toNat / 64] = true) :
    exec (.vst x b p i) s = s.finishSeq (.vst x b p i) (.ok ((s.putCells 16 (s.vstCells x p (s.address b i 64).toNat)).noteLanes true
      (s.address b i 64).toNat (lanesOn (s.getP p) 0 64))) := by
  have hr' : s.here.retentionOk s.supervisor [(s.address b i 64).toNat / 64] = true := hr
  have hcells : (lanesOn (s.getP p) 0 64).map (fun j => ((s.address b i 64).toNat + j, BitVec.ofNat 8 ((lineOf (s.getV x) 8).getD j 0))) =
      s.vstCells x p (s.address b i 64).toNat := by
    rw [lanesOn_eq]
    refine List.map_congr_left fun j hj => ?_
    rw [lineOf_eight, range_map_getD, if_pos (List.mem_range.mp (List.mem_filter.mp hj).1)]
  show execVst x b p i s = _
  simp only [execVst, hcells, State.preRead_none he, ite_self, hr', Tile.lanesLocked_of_no_locks hl, Nat.not_le.mpr hb, ha, ne_eq, not_true,
    Bool.not_true, Bool.and_false, if_false, Bool.false_eq_true]
  rfl

theorem State.KeepsTile.storeCells (s : State) (l : List (Nat × Byte)) : s.KeepsTile (s.setHere (s.here.storeCells s.supervisor l)) :=
  .setHere (Tile.storeCells_control ..).1 (Tile.storeCells_control ..).2

theorem State.putCells_keepsTile (s : State) (part : Nat) (l : List (Nat × Byte)) : s.KeepsTile (s.putCells part l) := by
  unfold State.putCells
  split
  · exact .storeCells s l
  · exact .storeParts s _

theorem vst_completes (h : s.plain 1 = true) (he : s.here.errs = []) (hl : s.here.locks = []) (hb : (s.address b i 64).toNat < 2 ^ 18)
    (ha : (s.address b i 64).toNat % 64 = 0) (hr : s.here.retentionOk (isMgmt s.curTile) [(s.address b i 64).toNat / 64] = true) :
    Completes (.vst x b p i) s (s.putCells 16 (s.vstCells x p (s.address b i 64).toNat)) :=
  .of_stored h (exec_vst he hl hb ha hr) (.noteLanes (.refl _) ..) (s.putCells_keepsTile 16 _)

/-! ### VLDD -/

theorem State.dbg_setP (t : State) (d : BitVec 3) (v : Word) : (t.setP d v).here.dbg = t.here.dbg := by
  by_cases hd : d = 0
  · rw [hd, State.setP_zero]
  · simp [State.setP_of_ne _ _ hd]

/-- R177: VLDD where nothing stops it. -/
theorem exec_vldd (he : s.here.errs = []) (hb : (s.address b i 64).toNat < 2 ^ 18) (ha : (s.address b i 64).toNat % 64 = 0)
    (hl : s.here.locked (s.address b i 64).toNat 64 .load = false) :
    exec (.vldd x b p i) s = s.finishSeq (.vldd x b p i) (.ok (((s.note false false (s.address b i 64).toNat 64).setV x
      (BitVec.ofNat 512 (s.view.lm (s.address b i 64).toNat 64))).setP p
      (BitVec.ofNat 64 ((s.view.bandAt ((s.address b i 64).toNat / 64)).toNat / 2 ^ 16)))) := by
  show execVldd x b p i s = _
  simp only [execVldd, State.readSide_none s he, State.readLines_none s he, State.andThen_same, hl, Nat.not_le.mpr hb, ha, ne_eq, not_true,
    if_false, Bool.false_eq_true]
  rfl

theorem vldd_completes (h : s.plain 1 = true) (he : s.here.errs = []) (hb : (s.address b i 64).toNat < 2 ^ 18)
    (ha : (s.address b i 64).toNat % 64 = 0) (hl : s.here.locked (s.address b i 64).toNat 64 .load = false) :
    Completes (.vldd x b p i) s ((s.setV x (BitVec.ofNat 512 (s.view.lm (s.address b i 64).toNat 64))).setP p
      (BitVec.ofNat 64 ((s.view.bandAt ((s.address b i 64).toNat / 64)).toNat / 2 ^ 16))) :=
  .of_notedFrom h (exec_vldd he hb ha hl) (((State.NotedFrom.refl s).note ..).setV .. |>.setP ..) ((State.KeepsControl.setV ..).trans (.setP ..))
    ((State.dbg_setP ..).trans (by simp [State.setV]))

/-! ### VSTD -/

/-- The line that VSTD writes: a 6-bit line with bits 511:480 as 0 (R177). -/
def State.vstdLine (s : State) (x : BitVec 5) (d : Nat) : Nat :=
  if d / 256 = 0x12 ∨ d / 256 = 0x13 then (s.getV x).toNat % 2 ^ 480 else (s.getV x).toNat

/-- R177: VSTD where nothing stops it. -/
theorem exec_vstd (he : s.here.errs = []) (hb : (s.address b i 64).toNat < 2 ^ 18) (ha : (s.address b i 64).toNat % 64 = 0)
    (hf : fmtAssigned ((s.getP p).toNat % 2 ^ 16 / 256) = true) (hl : s.here.locked (s.address b i 64).toNat 64 .store = false)
    (hr : s.here.retentionOk (isMgmt s.curTile) [(s.address b i 64).toNat / 64] = true) :
    exec (.vstd x b p i) s = s.finishSeq (.vstd x b p i) (.ok ((s.putLine ((s.address b i 64).toNat / 64)
      (s.vstdLine x ((s.getP p).toNat % 2 ^ 16)) (BitVec.ofNat 16 ((s.getP p).toNat % 2 ^ 16))).note false true (s.address b i 64).toNat 64)) := by
  have hr' : s.here.retentionOk s.supervisor [(s.address b i 64).toNat / 64] = true := hr
  show execVstd x b p i s = _
  simp only [execVstd, State.preRead_none he, hr', hl, hf, Nat.not_le.mpr hb, ha, ne_eq, not_true, Bool.not_true, if_false, Bool.false_eq_true]
  rfl

theorem State.putLine_keepsTile (s : State) (line v : Nat) (d : BitVec 16) : s.KeepsTile (s.putLine line v d) := by
  obtain ⟨hs, hd, -⟩ := Tile.storeBytes_rest s.here s.supervisor (64 * line) (toBytes 64 v)
  unfold State.putLine
  split
  · exact .setHere hs hd
  · exact .storeParts s _

theorem vstd_completes (h : s.plain 1 = true) (he : s.here.errs = []) (hb : (s.address b i 64).toNat < 2 ^ 18)
    (ha : (s.address b i 64).toNat % 64 = 0) (hf : fmtAssigned ((s.getP p).toNat % 2 ^ 16 / 256) = true)
    (hl : s.here.locked (s.address b i 64).toNat 64 .store = false)
    (hr : s.here.retentionOk (isMgmt s.curTile) [(s.address b i 64).toNat / 64] = true) :
    Completes (.vstd x b p i) s (s.putLine ((s.address b i 64).toNat / 64) (s.vstdLine x ((s.getP p).toNat % 2 ^ 16))
      (BitVec.ofNat 16 ((s.getP p).toNat % 2 ^ 16))) :=
  .of_stored h (exec_vstd he hb ha hf hl hr) ((State.NotedFrom.refl _).note ..) (s.putLine_keepsTile ..)

end

/-- A described line performed at once: its bytes, and the descriptor in the upper half of its side band. -/
theorem State.putLine_direct (h : s.direct = true) (line v : Nat) {d : Nat} (hd : d < 2 ^ 16) : s.putLine line v (BitVec.ofNat 16 d) =
    s.setHere ((s.here.storeBytes s.supervisor (64 * line) (toBytes 64 v)).setBand line
      (((s.here.storeBytes s.supervisor (64 * line) (toBytes 64 v)).bandAt line &&& 0xFFFF) ||| BitVec.ofNat 32 (d * 2 ^ 16))) := by
  rw [State.putLine, if_pos h, Tile.setDesc, BitVec.toNat_ofNat, Nat.mod_eq_of_lt hd]

/-- A described line not performed at once: four parts, the descriptor with the first. -/
theorem State.putLine_late (h : s.direct = false) (line v : Nat) (d : BitVec 16) : s.putLine line v d =
    s.storeParts ((List.range 4).map fun j =>
      { strand := s.curStrand, since := s.cycle, line := line, cells := byteCells (64 * line + 16 * j) (toBytes 16 (v / 2 ^ (128 * j))),
        desc := if j = 0 then some d else none }) := by
  rw [State.putLine, if_neg (by simp [h]), partsOf_line]
  rfl

end Sys2Proof.Machine
end

section
/-! Fields of bits, one for each active lane, packed from a bit address (R178). -/
namespace Sys2Proof.Machine

/-! ### The bytes and the lines touched -/

theorem szWidth_pos (z : BitVec 2) : 0 < szWidth z := Nat.mul_pos (by decide) (Nat.two_pow_pos _)

theorem lanes_pos (z : BitVec 2) : 0 < 512 / szWidth z :=
  Nat.div_pos (by
    have := Nat.pow_le_pow_right (n := 2) (by decide) (show z.toNat ≤ 3 by omega)
    rw [szWidth]
    omega) (szWidth_pos z)

/-- The fields of all lanes are together no longer than a line. -/
theorem fields_le_line {fw w : Nat} (h : fw ≤ w) : 512 / w * fw ≤ 512 := (Nat.mul_le_mul_left _ h).trans (Nat.div_mul_le_self ..)

theorem lane_end_le {n j : Nat} (hj : j < n) (b fw : Nat) : b + j * fw + fw ≤ b + n * fw := by
  have := Nat.mul_le_mul_right fw hj
  rw [Nat.succ_mul] at this
  omega

theorem fieldBytes_bounds {p : Word} {b w fw k : Nat} (hf : 0 < fw) (hk : k ∈ fieldBytes p b w fw) : b / 8 ≤ k ∧ 8 * k < b + 512 / w * fw := by
  obtain ⟨j, hj, hk⟩ := List.mem_flatMap.mp hk
  rw [span_zero_eq_range] at hj
  have hend := lane_end_le (List.mem_range.mp (List.mem_filter.mp hj).1) b fw
  rw [span_eq_range', List.mem_range'_1] at hk
  omega

/-- The fields of an instruction touch at most two lines. -/
theorem fieldLines_subset {p : Word} {b w fw : Nat} (hf : 0 < fw) (hw : fw ≤ w) :
    ((fieldBytes p b w fw).map (fun k => k / 64)).eraseDups ⊆ [b / 512, b / 512 + 1] := by
  intro l hl
  obtain ⟨k, hk, rfl⟩ := List.mem_map.mp (List.mem_eraseDups.mp hl)
  have := fieldBytes_bounds hf hk
  have := fields_le_line hw
  simp only [List.mem_cons, List.not_mem_nil, or_false]
  omega

variable {s : State} {x : BitVec 5} {b : BitVec 6} {p : BitVec 3} {z : BitVec 2} {e : BitVec 1} {f : BitVec 5}

/-- Nothing stops fields that end in local memory where no lock is held. -/
theorem State.checkFields_ok {adr : Word} {w fw : Nat} {bytes : List Nat} {acc : Access} (hl : s.here.locks = []) (hpos : 0 < 512 / w * fw)
    (hb : adr.toNat + 512 / w * fw ≤ 2 ^ 21)
    (hr : acc = .store → s.here.retentionOk s.supervisor (bytes.map (fun k => k / 64)).eraseDups = true) :
    s.checkFields adr w fw bytes acc = .ok () := by
  rw [State.checkFields, if_neg (by omega), if_neg (by simp [Tile.lanesLocked_of_no_locks hl]), if_neg fun h => by simp [hr h.1] at h]

/-! ### VLDB -/

/-- The element that VLDB puts in an active lane: its field, sign- or zero-extended (R178). -/
def State.vldbElem (s : State) (base w fw : Nat) (e : BitVec 1) (j : Nat) : Nat :=
  if e = 1 then wrapEnc (intVal true fw (s.view.bits (base + j * fw) fw)) w else s.view.bits (base + j * fw) fw

theorem exec_vldb (he : s.here.errs = []) (hl : s.here.locks = [])
    (hb : (s.getS b).toNat + 512 / szWidth z * (f.toNat + 1) ≤ 2 ^ 21) :
    exec (.vldb x b p z e f) s = s.finishSeq (.vldb x b p z e f) (.ok ((s.noteLanes false 0
      (fieldBytes (s.getP p) (s.getS b).toNat (szWidth z) (f.toNat + 1))).setV x (ofElems (szWidth z) ((List.range (512 / szWidth z)).map fun j =>
        if active (s.getP p) (szWidth z) j then s.vldbElem (s.getS b).toNat (szWidth z) (f.toNat + 1) e j
        else lineElem (s.getV x).toNat (szWidth z) j)))) := by
  show execVldb x b p z e f s = _
  simp only [execVldb, State.checkFields_ok hl (Nat.mul_pos (lanes_pos z) f.toNat.succ_pos) hb (acc := .load) nofun, State.readLines_none s he,
    lineOf, span_zip_elemsOf_map]
  rfl

theorem vldb_completes (h : s.plain 1 = true) (he : s.here.errs = []) (hl : s.here.locks = [])
    (hb : (s.getS b).toNat + 512 / szWidth z * (f.toNat + 1) ≤ 2 ^ 21) :
    Completes (.vldb x b p z e f) s (s.setV x (ofElems (szWidth z) ((List.range (512 / szWidth z)).map fun j =>
      if active (s.getP p) (szWidth z) j then s.vldbElem (s.getS b).toNat (szWidth z) (f.toNat + 1) e j
      else lineElem (s.getV x).toNat (szWidth z) j))) :=
  .of_loadedV h (exec_vldb he hl hb) (.noteLanes (.refl s) ..)

/-! ### VSTB -/

theorem State.putBits_keepsTile (s : State) (l : List (Nat × Nat × Nat)) : s.KeepsTile (s.putBits l) := by
  unfold State.putBits
  split
  · have hfold := List.foldlRecOn (motive := fun y : Tile => y.strands = s.here.strands ∧ y.dbg = s.here.dbg) l
      (fun y c => y.storeBytes s.supervisor (c.1 / 8) (y.bitsBytes c.1 c.2.1 c.2.2)) ⟨rfl, rfl⟩ fun y hy c _ => by
        obtain ⟨hs, hd, -⟩ := Tile.storeBytes_rest y s.supervisor (c.1 / 8) (y.bitsBytes c.1 c.2.1 c.2.2)
        exact ⟨hs.trans hy.1, hd.trans hy.2⟩
    exact .setHere hfold.1 hfold.2
  · exact .storeParts s _

/-- The active lanes of elements of width w. -/
def activeLanes (p : Word) (w : Nat) : List Nat := (List.range (512 / w)).filter fun j => active p w j

theorem mem_activeLanes {p : Word} {w j : Nat} : j ∈ activeLanes p w ↔ j < 512 / w ∧ active p w j = true := by
  rw [activeLanes, List.mem_filter, List.mem_range]

/-- The elements of active lanes. -/
theorem lineOf_getD_activeLane {p : Word} {w j : Nat} (hj : j ∈ activeLanes p w) (v : Line) : (lineOf v w).getD j 0 = lineElem v.toNat w j := by
  rw [lineOf_eq_map, range_map_getD, if_pos (mem_activeLanes.mp hj).1]

/-- The fields of VSTB: bit address, width, value. -/
def State.vstbFields (s : State) (x : BitVec 5) (base : Nat) (p : Word) (w fw : Nat) : List (Nat × Nat × Nat) :=
  (activeLanes p w).map fun j => (base + j * fw, fw, lineElem (s.getV x).toNat w j)

theorem exec_vstb (he : s.here.errs = []) (hl : s.here.locks = []) (hf : f.toNat + 1 ≤ szWidth z)
    (hb : (s.getS b).toNat + 512 / szWidth z * (f.toNat + 1) ≤ 2 ^ 21) (hroom : s.here.retu + 64 * (64 + s.here.sbuf.length) ≤ 65536) :
    exec (.vstb x b p z f) s = s.finishSeq (.vstb x b p z f) (.ok ((s.putBits
      (s.vstbFields x (s.getS b).toNat (s.getP p) (szWidth z) (f.toNat + 1))).noteLanes true 0
        (fieldBytes (s.getP p) (s.getS b).toNat (szWidth z) (f.toNat + 1)))) := by
  have hfields : ((span 0 (512 / szWidth z)).filter fun i => active (s.getP p) (szWidth z) i).map (fun i =>
      ((s.getS b).toNat + i * (f.toNat + 1), f.toNat + 1, (lineOf (s.getV x) (szWidth z)).getD i 0)) =
        s.vstbFields x (s.getS b).toNat (s.getP p) (szWidth z) (f.toNat + 1) := by
    rw [span_zero_eq_range]
    exact List.map_congr_left fun j hj => by rw [lineOf_getD_activeLane hj]
  have hcheck := State.checkFields_ok (acc := .store) hl (Nat.mul_pos (lanes_pos z) f.toNat.succ_pos) hb fun _ =>
    Tile.retentionOk_of_room s.supervisor hroom (fieldLines_subset (p := s.getP p) (b := (s.getS b).toNat) f.toNat.succ_pos hf) (by simp)
  show execVstb x b p z f s = _
  simp only [execVstb, hcheck, hfields, State.readLines_none s he, State.andThen_same, State.preRead_none he]
  rfl

theorem vstb_completes (h : s.plain 1 = true) (he : s.here.errs = []) (hl : s.here.locks = []) (hf : f.toNat + 1 ≤ szWidth z)
    (hb : (s.getS b).toNat + 512 / szWidth z * (f.toNat + 1) ≤ 2 ^ 21) (hroom : s.here.retu + 64 * (64 + s.here.sbuf.length) ≤ 65536) :
    Completes (.vstb x b p z f) s (s.putBits (s.vstbFields x (s.getS b).toNat (s.getP p) (szWidth z) (f.toNat + 1))) :=
  .of_stored h (exec_vstb he hl hf hb hroom) (.noteLanes (.refl _) ..) (s.putBits_keepsTile _)

theorem State.putBits_direct (h : s.direct = true) (base : Nat) (pr : Word) (w fw : Nat) : s.putBits (s.vstbFields x base pr w fw) =
    s.setHere (s.here.storeFields s.supervisor base fw (lineElem (s.getV x).toNat w) (activeLanes pr w)) := by
  rw [State.putBits, if_pos h, State.vstbFields, List.foldl_map]
  rfl

theorem State.putBits_late (h : s.direct = false) (base : Nat) (pr : Word) (w fw : Nat) : s.putBits (s.vstbFields x base pr w fw) =
    s.storeParts (partsOf s.curStrand s.cycle 64 ((activeLanes pr w).flatMap fun j =>
      fieldCells (base + j * fw) fw (lineElem (s.getV x).toNat w j))) := by
  rw [State.putBits, if_neg (by simp [h]), State.vstbFields, List.flatMap_map]

end Sys2Proof.Machine
end

section
/-! Gathers and scatters: elements at the addresses that a vector of indices gives (R179). -/
namespace Sys2Proof.Machine

/-! ### Lanes and addresses -/

theorem szWidth_div (z : BitVec 2) : szWidth z / 8 = 2 ^ z.toNat := Nat.mul_div_cancel_left _ (by decide)

theorem activeLanes_length (p : Word) (z : BitVec 2) : (activeLanes p (szWidth z)).length ≤ 64 := by
  have hle : 512 / szWidth z ≤ 512 / 8 := Nat.div_le_div_left (Nat.le_mul_of_pos_right 8 (Nat.two_pow_pos _)) (by decide)
  exact (List.length_filter_le ..).trans (by rwa [List.length_range])

/-- The lanes go up. -/
theorem activeLanes_pairwise (p : Word) (w : Nat) : (activeLanes p w).Pairwise (· < ·) := List.pairwise_lt_range.filter _

/-- Different addresses of aligned blocks are a block apart. -/
theorem blocks_apart {m a b : Nat} (ha : a % m = 0) (hb : b % m = 0) (h : a ≠ b) : a + m ≤ b ∨ b + m ≤ a := by
  obtain ⟨q, rfl⟩ := Nat.dvd_of_mod_eq_zero ha
  obtain ⟨r, rfl⟩ := Nat.dvd_of_mod_eq_zero hb
  have hqr : q ≠ r := fun e => h (e ▸ rfl)
  rcases Nat.lt_or_gt_of_ne hqr with hlt | hlt
  · exact .inl ((Nat.mul_succ m q).symm.trans_le (Nat.mul_le_mul_left m hlt))
  · exact .inr ((Nat.mul_succ m r).symm.trans_le (Nat.mul_le_mul_left m hlt))

/-- The address of lane j. -/
def State.laneAddr (s : State) (b : BitVec 6) (v : BitVec 5) (w j : Nat) : Word := s.elemAddr b w (lineElem (s.getV v).toNat w j)

/-- The active lanes with their addresses. -/
def State.lanePairs (s : State) (b : BitVec 6) (v : BitVec 5) (p : Word) (w : Nat) : List (Nat × Word) :=
  (activeLanes p w).map fun j => (j, s.laneAddr b v w j)

theorem State.lanePairs_eq (s : State) (b : BitVec 6) (v : BitVec 5) (p : Word) (w : Nat) :
    ((span 0 (512 / w)).filter fun k => active p w k).map (fun k => (k, s.elemAddr b w ((lineOf (s.getV v) w).getD k 0))) =
      s.lanePairs b v p w := by
  rw [span_zero_eq_range]
  exact List.map_congr_left fun j hj => by rw [lineOf_getD_activeLane hj, State.laneAddr]

/-- The active lanes address elements within local memory, aligned. -/
def State.LanesInside (s : State) (b : BitVec 6) (v : BitVec 5) (p : Word) (w : Nat) : Prop :=
  ∀ j ∈ activeLanes p w, (s.laneAddr b v w j).toNat < 2 ^ 18 ∧ (s.laneAddr b v w j).toNat % (w / 8) = 0

variable {s : State} {x v : BitVec 5} {b : BitVec 6} {p : BitVec 3} {z : BitVec 2}

theorem State.checkElems_ok {w : Nat} {acc : Access} (hl : s.here.locks = []) {els : List (Nat × Word)}
    (h : ∀ c ∈ els, c.2.toNat < 2 ^ 18 ∧ c.2.toNat % (w / 8) = 0) : s.checkElems w acc els = .ok () := by
  induction els with
  | nil => rfl
  | cons c r ih =>
    obtain ⟨hb, ha⟩ := h c (by simp)
    have hfree : s.here.locked c.2.toNat (w / 8) acc = false := by simp [Tile.locked, hl]
    rw [State.checkElems, if_neg (Nat.not_le.mpr hb), if_neg (not_not_intro ha), if_neg (by simp [hfree]), ih fun d hd => h d (by simp [hd])]

theorem State.checkElems_lanePairs {pr : Word} {w : Nat} {acc : Access} (hl : s.here.locks = []) (h : s.LanesInside b v pr w) :
    s.checkElems w acc (s.lanePairs b v pr w) = .ok () :=
  State.checkElems_ok hl (List.forall_mem_map.mpr h)

/-! ### VGATH -/

/-- Elements of a list set one after another. -/
theorem foldl_listSet (n : Nat) (g : Nat → Nat) (ks : List Nat) (f : Nat → Nat) :
    ks.foldl (fun l k => listSet l k (g k)) ((List.range n).map f) = (List.range n).map fun j => if j ∈ ks then g j else f j := by
  induction ks generalizing f with
  | nil => simp
  | cons k r ih =>
    rw [List.foldl_cons, listSet_range_map, ih]
    refine List.map_congr_left fun j _ => ?_
    by_cases hr : j ∈ r
    · simp [hr]
    · by_cases hk : j = k <;> simp [hr, hk]

/-- The line that VGATH leaves: elements of local memory in the active lanes. -/
def State.vgathLine (s : State) (x : BitVec 5) (b : BitVec 6) (p : Word) (w : Nat) (v : BitVec 5) : Line :=
  ofElems w ((List.range (512 / w)).map fun j =>
    if active p w j then s.view.lm (s.laneAddr b v w j).toNat (w / 8) else lineElem (s.getV x).toNat w j)

theorem State.vgathLine_eq (s : State) (x : BitVec 5) (b : BitVec 6) (p : Word) (w : Nat) (v : BitVec 5) :
    ofElems w ((s.lanePairs b v p w).foldl (fun l e => listSet l e.1 (s.view.lm e.2.toNat (w / 8))) (lineOf (s.getV x) w)) =
      s.vgathLine x b p w v := by
  rw [State.lanePairs, List.foldl_map, lineOf_eq_map, foldl_listSet, State.vgathLine]
  congr 1
  refine List.map_congr_left fun j hj => ?_
  simp [mem_activeLanes, List.mem_range.mp hj]

theorem exec_vgath (he : s.here.errs = []) (hl : s.here.locks = []) (ha : s.LanesInside b v (s.getP p) (szWidth z)) :
    exec (.vgath x b p z v) s = s.finishSeq (.vgath x b p z v) (.ok (((s.lanePairs b v (s.getP p) (szWidth z)).foldl
      (fun t e => t.note false false e.2.toNat (szWidth z / 8)) s).setV x (s.vgathLine x b (s.getP p) (szWidth z) v))) := by
  show execVgath x b p z v s = _
  simp only [execVgath, State.lanePairs_eq, State.checkElems_lanePairs hl ha, ← State.vgathLine_eq]
  rw [List.foldl_fixed' (a := (.ok s : Except Stop State)) fun e => ?_]
  show s.keepSoft s (s.readLines ..) = _
  rw [State.keepSoft_same, State.readLines_none s he]

theorem vgath_completes (h : s.plain 1 = true) (he : s.here.errs = []) (hl : s.here.locks = [])
    (ha : s.LanesInside b v (s.getP p) (szWidth z)) :
    Completes (.vgath x b p z v) s (s.setV x (s.vgathLine x b (s.getP p) (szWidth z) v)) :=
  .of_loadedV h (exec_vgath he hl ha) (.noteAll (.refl s) _ (fun _ _ => ⟨_, _, _, _, rfl⟩) _)

/-! ### VSCAT -/

/-- R278: there is room for the lines of at most 64 elements. -/
theorem firstNoRetention_of_room {y : Tile} (mgmt : Bool) (hroom : y.retu + 64 * (64 + y.sbuf.length) ≤ 65536) {els : List (Nat × Word)}
    {lines : List Nat} (hlen : lines.length + els.length ≤ 64) : firstNoRetention y mgmt lines els = none := by
  induction els generalizing lines with
  | nil => rfl
  | cons c r ih =>
    rw [List.length_cons] at hlen
    have hls : (lines ++ [c.2.toNat / 64]).length ≤ 64 := by rw [List.length_append, List.length_singleton]; omega
    rw [firstNoRetention, if_pos (Tile.retentionOk_of_room mgmt hroom (List.Subset.refl _) hls),
      ih (by rw [List.length_append, List.length_singleton]; omega)]

/-- The bytes of VSCAT, each with its address, element after element. -/
def State.vscatCells (s : State) (x : BitVec 5) (b : BitVec 6) (p : Word) (w : Nat) (v : BitVec 5) : List (Nat × Byte) :=
  (activeLanes p w).flatMap fun j => (toBytes (w / 8) (lineElem (s.getV x).toNat w j)).mapIdx fun i c => ((s.laneAddr b v w j).toNat + i, c)

theorem State.vscatCells_eq (s : State) (x : BitVec 5) (b : BitVec 6) (p : Word) (w : Nat) (v : BitVec 5) :
    (s.lanePairs b v p w).flatMap (fun e => (toBytes (w / 8) ((lineOf (s.getV x) w).getD e.1 0)).mapIdx fun i c => (e.2.toNat + i, c)) =
      s.vscatCells x b p w v := by
  rw [State.lanePairs, List.flatMap_map, State.vscatCells]
  exact List.flatMap_congr fun j hj => by rw [lineOf_getD_activeLane hj]

theorem exec_vscat (he : s.here.errs = []) (hl : s.here.locks = []) (ha : s.LanesInside b v (s.getP p) (szWidth z))
    (hroom : s.here.retu + 64 * (64 + s.here.sbuf.length) ≤ 65536) :
    exec (.vscat x b p z v) s = s.finishSeq (.vscat x b p z v) (.ok ((s.lanePairs b v (s.getP p) (szWidth z)).foldl
      (fun t e => t.note false true e.2.toNat (szWidth z / 8)) (s.putCells (szWidth z / 8) (s.vscatCells x b (s.getP p) (szWidth z) v)))) := by
  have hlen : ([] : List Nat).length + (s.lanePairs b v (s.getP p) (szWidth z)).length ≤ 64 := by
    simpa [State.lanePairs] using activeLanes_length (s.getP p) z
  show execVscat x b p z v s = _
  simp only [execVscat, State.lanePairs_eq, State.checkElems_lanePairs hl ha, State.vscatCells_eq, firstNoRetention_of_room _ hroom hlen]
  rw [List.foldl_fixed' (a := (.ok s : Except Stop State)) fun e => ?_]
  · rfl
  · show s.keepSoft s (s.preRead ..) = _
    rw [State.keepSoft_same, State.preRead_none he]

theorem vscat_completes (h : s.plain 1 = true) (he : s.here.errs = []) (hl : s.here.locks = [])
    (ha : s.LanesInside b v (s.getP p) (szWidth z)) (hroom : s.here.retu + 64 * (64 + s.here.sbuf.length) ≤ 65536) :
    Completes (.vscat x b p z v) s (s.putCells (szWidth z / 8) (s.vscatCells x b (s.getP p) (szWidth z) v)) :=
  .of_stored h (exec_vscat he hl ha hroom) (.noteAll (.refl _) _ (fun _ _ => ⟨_, _, _, _, rfl⟩) _) (s.putCells_keepsTile ..)

/-! ### The bytes that a scatter leaves -/

/-- Blocks of bytes stored one after another. -/
def blockCells (a : Nat → Nat) (bs : Nat → List Byte) (ks : List Nat) : List (Nat × Byte) :=
  ks.flatMap fun j => (bs j).mapIdx fun i c => (a j + i, c)

section
variable {a : Nat → Nat} {bs : Nat → List Byte} {ks : List Nat} {k : Nat}

/-- A byte in no block. -/
theorem byteAfter_blockCells_other (h : ∀ j ∈ ks, k < a j ∨ a j + (bs j).length ≤ k) (c : Byte) : byteAfter k (blockCells a bs ks) c = c := by
  induction ks generalizing c with
  | nil => rfl
  | cons j r ih =>
    have hj := h j (by simp)
    rw [blockCells, List.flatMap_cons, byteAfter_append, byteAfter_mapIdx, if_neg (by omega)]
    exact ih (fun i hi => h i (by simp [hi])) c

/-- A byte of a block that no later block overlaps. -/
theorem byteAfter_blockCells_last (hks : ks.Pairwise (· < ·)) {j : Nat} (hj : j ∈ ks)
    (h : ∀ i ∈ ks, j < i → k < a i ∨ a i + (bs i).length ≤ k) (hk : a j ≤ k ∧ k < a j + (bs j).length) (c : Byte) :
    byteAfter k (blockCells a bs ks) c = (bs j).getD (k - a j) 0 := by
  induction ks generalizing c with
  | nil => cases hj
  | cons i r ih =>
    obtain ⟨hi, hr⟩ := List.pairwise_cons.mp hks
    rw [blockCells, List.flatMap_cons, byteAfter_append]
    rcases List.mem_cons.mp hj with rfl | hjr
    · rw [byteAfter_mapIdx, if_pos hk]
      exact byteAfter_blockCells_other (fun l hl => h l (by simp [hl]) (hi l hl)) _
    · exact ih hr hjr (fun l hl => h l (by simp [hl])) _

end

/-- The elements of a scatter performed at once: bytes of no element stay. -/
theorem State.byte_vscat_other {pr : Word} {w k : Nat}
    (h : ∀ j ∈ activeLanes pr w, k < (s.laneAddr b v w j).toNat ∨ (s.laneAddr b v w j).toNat + w / 8 ≤ k) :
    (s.here.storeCells s.supervisor (s.vscatCells x b pr w v)).byte k = s.here.byte k := by
  rw [Tile.byte_storeCells]
  exact byteAfter_blockCells_other (fun j hj => by rw [toBytes_length]; exact h j hj) _

/-- The elements of a scatter performed at once: the last element at an address stands there. -/
theorem State.lm_vscat_last {pr : Word} (ha : s.LanesInside b v pr (szWidth z)) {j : Nat} (hj : j ∈ activeLanes pr (szWidth z))
    (h : ∀ i ∈ activeLanes pr (szWidth z), j < i → s.laneAddr b v (szWidth z) i ≠ s.laneAddr b v (szWidth z) j) :
    (s.here.storeCells s.supervisor (s.vscatCells x b pr (szWidth z) v)).lm (s.laneAddr b v (szWidth z) j).toNat (szWidth z / 8) =
      lineElem (s.getV x).toNat (szWidth z) j := by
  have hw : 8 * (szWidth z / 8) = szWidth z := by rw [szWidth_div, szWidth]
  refine Tile.lm_eq (by rw [hw]; exact Nat.mod_lt _ (Nat.two_pow_pos _)) fun i hi => ?_
  rw [Tile.byte_storeCells]
  refine (byteAfter_blockCells_last (activeLanes_pairwise pr _) hj (fun l hl hjl => ?_) (by rw [toBytes_length]; omega) _).trans ?_
  · have := blocks_apart (ha l hl).2 (ha j hj).2 fun heq => h l hl hjl (BitVec.eq_of_toNat_eq heq)
    rw [toBytes_length]
    omega
  · rw [Nat.add_sub_cancel_left, toBytes_getD, if_pos hi]

/-- Bytes not stored at once. -/
theorem State.putCells_late (h : s.direct = false) (part : Nat) (l : List (Nat × Byte)) : s.putCells part l =
    s.storeParts (partsOf s.curStrand s.cycle part (l.map fun c => { addr := c.1, mask := 0xFF, val := c.2 })) :=
  if_neg (by simp [h])

theorem State.putCells_vscat_late (h : s.direct = false) (pr : Word) (w : Nat) : s.putCells (w / 8) (s.vscatCells x b pr w v) =
    s.storeParts (partsOf s.curStrand s.cycle (w / 8) ((activeLanes pr w).flatMap fun j =>
      byteCells (s.laneAddr b v w j).toNat (toBytes (w / 8) (lineElem (s.getV x).toNat w j)))) := by
  rw [State.putCells_late h, State.vscatCells, List.map_flatMap]
  simp only [byteCells_eq_mapIdx]

end Sys2Proof.Machine
end

section
/-! The vector accesses to local memory (R176 to R179), performed at once or left in the parts of R346. -/
namespace Sys2Proof.Machine
variable {s : State} {x v : BitVec 5} {b : BitVec 6} {p : BitVec 3} {i : BitVec 8} {z : BitVec 2} {f : BitVec 5}

theorem State.putCells_direct (h : s.direct = true) (part : Nat) (l : List (Nat × Byte)) :
    s.putCells part l = s.setHere (s.here.storeCells s.supervisor l) := if_pos h

/-- VST performed at once: the bytes selected, and every other byte as before. -/
theorem State.byte_vst (s : State) (x : BitVec 5) (p : BitVec 3) (a k : Nat) : (s.here.storeCells s.supervisor (s.vstCells x p a)).byte k =
    if a ≤ k ∧ k < a + 64 ∧ (s.getP p).getLsbD (k - a) = true then BitVec.ofNat 8 (lineElem (s.getV x).toNat 8 (k - a)) else s.here.byte k := by
  rw [Tile.byte_storeCells, State.vstCells, byteAfter_lanes k a 64 (fun j => (s.getP p).getLsbD j)
    (fun j => BitVec.ofNat 8 (lineElem (s.getV x).toNat 8 j))]

theorem State.putCells_vst_late (h : s.direct = false) (a : Nat) : s.putCells 16 (s.vstCells x p a) =
    s.storeParts (partsOf s.curStrand s.cycle 16 (((List.range 64).filter fun j => (s.getP p).getLsbD j).map fun j =>
      { addr := a + j, mask := 0xFF, val := BitVec.ofNat 8 (lineElem (s.getV x).toNat 8 (a + j - a)) })) := by
  rw [State.putCells_late h, State.vstCells, List.map_map]
  simp only [Function.comp_def, Nat.add_sub_cancel_left]

/-- VSTB performed at once: the fields, and every byte that no field touches as before. -/
theorem vstb_direct (hc : Completes (.vstb x b p z f) s (s.putBits (s.vstbFields x (s.getS b).toNat (s.getP p) (szWidth z) (f.toNat + 1))))
    (hd : s.direct = true) : ∃ y : Tile, Completes (.vstb x b p z f) s (s.setHere y) ∧ y.strands = s.here.strands ∧
      (∀ j ∈ activeLanes (s.getP p) (szWidth z),
        y.bits ((s.getS b).toNat + j * (f.toNat + 1)) (f.toNat + 1) = lineElem (s.getV x).toNat (szWidth z) j % 2 ^ (f.toNat + 1)) ∧
      ∀ k, (∀ j ∈ activeLanes (s.getP p) (szWidth z), 8 * k + 8 ≤ (s.getS b).toNat + j * (f.toNat + 1) ∨
        (s.getS b).toNat + (j + 1) * (f.toNat + 1) ≤ 8 * k) → y.byte k = s.here.byte k := by
  have hk := s.putBits_keepsTile (s.vstbFields x (s.getS b).toNat (s.getP p) (szWidth z) (f.toNat + 1))
  rw [State.putBits_direct hd] at hc hk
  refine ⟨_, hc, by simpa using hk.strands, fun j hj => ?_, fun k hout => ?_⟩
  · exact Tile.bits_eq fun k hk => Tile.bit_storeFields_lane f.toNat.succ_pos hj hk
  · exact Tile.byte_eq_of_bit fun l hlo hhi => Tile.bit_storeFields_other f.toNat.succ_pos fun j hj =>
      (hout j hj).imp hhi.trans_le (·.trans hlo)

/-- Settles O28: each access completes where its checks pass, and what its store leaves is read off byte by byte or bit by bit. -/
theorem vectorMemoryAccesses : Obligations.VectorMemoryAccesses := by
  unfold Obligations.VectorMemoryAccesses
  constructor
  · intro s x b p i h hp he adr line mgmt pr stored hb ha
    refine ⟨fun hl => vld_completes h hp he hl hb ha, fun hl hr => ?_, vldd_completes h he hb ha, ?_⟩
    · have hc := vst_completes (x := x) (p := p) h he hl hb ha hr
      refine ⟨fun hd => ?_, fun hd => ?_⟩
      · rw [State.putCells_direct hd] at hc
        exact ⟨_, hc, (Tile.storeCells_control ..).1, s.byte_vst x p adr⟩
      · rwa [State.putCells_vst_late hd] at hc
    · intro dsc v hf hl hr
      have hc := vstd_completes (x := x) h he hb ha hf hl hr
      have hline : 64 * line = adr := Nat.mul_div_cancel' (Nat.dvd_of_mod_eq_zero ha)
      refine ⟨fun hd => ?_, fun hd => ?_⟩
      · rw [State.putLine_direct hd _ _ (Nat.mod_lt _ (Nat.two_pow_pos 16))] at hc
        rwa [hline] at hc
      · rw [State.putLine_late hd] at hc
        rwa [hline] at hc
  · intro s x v b p z e f h he hl w fw base pr n on old at_ room
    refine ⟨fun hf hb => ⟨vldb_completes h he hl hb, fun hroom hd => ?_, fun hroom hd => ?_⟩, fun ha => ?_⟩
    · obtain ⟨y, hc, hs, hin, hout⟩ := vstb_direct (vstb_completes h he hl hf hb hroom) hd
      exact ⟨y, hc, hs, fun j hj hon => hin j (mem_activeLanes.mpr ⟨hj, hon⟩),
        fun k hk => hout k fun j hj => hk j (mem_activeLanes.mp hj).1 (mem_activeLanes.mp hj).2⟩
    · have hc := vstb_completes (x := x) (p := p) h he hl hf hb hroom
      rwa [State.putBits_late hd] at hc
    · have hin : s.LanesInside b v pr (szWidth z) := fun j hj => ha j (mem_activeLanes.mp hj).1 (mem_activeLanes.mp hj).2
      refine ⟨vgath_completes h he hl hin, fun hroom hd => ?_, fun hroom hd => ?_⟩
      · have hc := vscat_completes (x := x) h he hl hin hroom
        rw [State.putCells_direct hd] at hc
        refine ⟨_, hc, (Tile.storeCells_control ..).1, fun k hk => State.byte_vscat_other fun j hj => ?_, fun j hj hon hlast => ?_⟩
        · exact hk j (mem_activeLanes.mp hj).1 (mem_activeLanes.mp hj).2
        · exact State.lm_vscat_last hin (mem_activeLanes.mpr ⟨hj, hon⟩) fun l hl hjl =>
            hlast l (mem_activeLanes.mp hl).1 hjl (mem_activeLanes.mp hl).2
      · have hc := vscat_completes (x := x) h he hl hin hroom
        rwa [State.putCells_vscat_late hd] at hc

end Sys2Proof.Machine
end

section
/-! The matrix instructions: what their entry checks, and accumulators element by element (R108, R186, R187, R202 to R204). -/
namespace Sys2Proof.Machine
variable {s : State}

/-! ### Elements of an accumulator -/

/-- A map that lists f over a span. -/
theorem SMap.find_span_map {α : Type} (f : Nat → α) (lo n k : Nat) :
    SMap.find ((span lo n).map fun i => (i, f i)) k = if lo ≤ k ∧ k < lo + n then some (f k) else none := by
  induction n generalizing lo with
  | zero => exact (if_neg (by omega)).symm
  | succ n ih =>
    rw [span, List.map_cons, SMap.find, ih]
    by_cases hk : lo = k
    · subst hk
      rw [if_pos rfl, if_pos (by omega)]
    · rw [if_neg hk]
      exact if_congr (by omega) rfl rfl

theorem Acc.all_eq_map (a : Acc) : a.all = (List.range 256).map a.elem := by rw [Acc.all, span_zero_eq_range]

theorem accOf_elem (anc : BitVec 16) (f : Nat → AccElem) {e : Nat} (he : e < 256) : (accOf anc ((List.range 256).map f)).elem e = f e := by
  have hzip : (accOf anc ((List.range 256).map f)).elems = (span 0 256).map fun i => (i, f i) := by
    rw [accOf, span_zero_eq_range, zip_range_map]
  rw [Acc.elem, hzip, SMap.get, SMap.find_span_map, if_pos (by omega)]
  rfl

/-! ### The entry of a matrix instruction -/

theorem State.matrixEntry_ok (hq : s.here.mmaq = []) (hh : s.me.held = none) (accs : List (BitVec 3)) : s.matrixEntry accs = .ok () := by
  have hnone : accs.find? (fun a => s.here.mmaq.any fun m => m.acc == a) = none := by simp [hq]
  rw [State.matrixEntry, Tile.mmaOf, hnone, hq, hh]
  rfl

/-- R187: the stores not yet performed need at most one pre-image each. -/
theorem State.checkAccPre_ok (hr : s.here.retu + 64 * s.here.sbuf.length + 2560 ≤ 65536) (c : BitVec 3) : s.checkAccPre c = .ok () := by
  have hle : ((s.here.sbuf.map Pend.line).eraseDups.filter (s.here.needsPre s.supervisor)).length ≤ s.here.sbuf.length :=
    (List.length_filter_le ..).trans ((eraseDups_length_le (List.Subset.refl _)).trans_eq (List.length_map _))
  have hroom : s.here.accRoom s.supervisor = true := decide_eq_true (by omega)
  exact if_neg (by simp [hroom])

theorem State.readAcc_ok (he : s.here.errs = []) (c : BitVec 3) : s.readAcc c = .ok s := State.readMark_none s he ..

theorem State.preAcc_ok (he : s.here.errs = []) (c : BitVec 3) : s.preAcc c = .ok s := by
  rw [State.preAcc, State.readAcc_ok he, ite_self]

/-! ### An accumulator written -/

theorem Tile.touchAcc_control (x : Tile) (mgmt : Bool) (c : BitVec 3) :
    (x.touchAcc mgmt c).strands = x.strands ∧ (x.touchAcc mgmt c).dbg = x.dbg := by
  unfold Tile.touchAcc
  split <;> exact ⟨rfl, rfl⟩

theorem State.writeAcc_keepsTile (s : State) (c : BitVec 3) (a : Acc) : s.KeepsTile (s.writeAcc c a) :=
  .setHere (Tile.touchAcc_control ..).1 (Tile.touchAcc_control ..).2

/-- The accumulator that ACCANCH leaves, and the flags of each element (R203). -/
def Acc.rescaled (a : Acc) (new : BitVec 16) : List (AccElem × Flags) := (List.range 256).map fun e => rescale (a.anc.toInt - new.toInt) (a.elem e)

section
variable (hq : s.here.mmaq = []) (hh : s.me.held = none)
include hq hh

/-- R204: ACCADD of two anchors ends in DESCRIPTOR_INVALID. -/
theorem exec_accadd_anchors {c a : BitVec 3} (ha : (s.here.accAt c).anc ≠ (s.here.accAt a).anc) :
    exec (.accadd c a) s = .next ((s.takeTrap 0x0D 7 (BitVec.ofNat 64 ((s.here.accAt c).anc.toNat * 2 ^ 16 + (s.here.accAt a).anc.toNat))
      s.me.pc.toNat false).afterRetire) := by
  show execAccadd c a s = _
  rw [execAccadd, State.matrixEntry_ok hq hh]
  simp only [ne_eq, ha, not_false_eq_true, if_true]
  exact State.finishSeq_raise s _ 0x0D 7 _ (by decide)

variable (he : s.here.errs = []) (hr : s.here.retu + 64 * s.here.sbuf.length + 2560 ≤ 65536)
include he hr

/-- R202: ZACC where nothing stops it. -/
theorem exec_zacc (c : BitVec 3) (x : BitVec 6) :
    exec (.zacc c x) s = s.finishSeq (.zacc c x) (.ok (s.writeAcc c { elems := [], anc := (s.getS x).setWidth 16 })) := by
  show execZacc c x s = _
  rw [execZacc, State.matrixEntry_ok hq hh, State.checkAccPre_ok hr, State.preAcc_ok he]
  rfl

/-- R203: ACCANCH where nothing stops it. -/
theorem exec_accanch (c : BitVec 3) (x : BitVec 6) :
    let l := (s.here.accAt c).rescaled ((s.getS x).setWidth 16)
    exec (.accanch c x) s = s.finishSeq (.accanch c x) (.ok ((s.writeAcc c (accOf ((s.getS x).setWidth 16) (l.map Prod.fst))).orFlags
      (l.foldl (fun f e => f ||| e.2) 0))) := by
  show execAccanch c x s = _
  have hall (q : Acc) (new : BitVec 16) : q.all.map (rescale (q.anc.toInt - new.toInt)) = q.rescaled new := by
    rw [Acc.all_eq_map, List.map_map]
    rfl
  simp only [execAccanch, State.matrixEntry_ok hq hh, State.checkAccPre_ok hr, State.readAcc_ok he, State.andThen_same, hall]
  rfl

/-- R204: ACCADD of two accumulators of one anchor where nothing stops it. -/
theorem exec_accadd {c a : BitVec 3} (ha : (s.here.accAt c).anc = (s.here.accAt a).anc) :
    exec (.accadd c a) s = s.finishSeq (.accadd c a) (.ok (s.writeAcc c (accOf (s.here.accAt c).anc
      ((List.range 256).map fun e => accCombine ((s.here.accAt c).elem e) ((s.here.accAt a).elem e))))) := by
  show execAccadd c a s = _
  simp only [execAccadd, State.matrixEntry_ok hq hh, State.checkAccPre_ok hr, State.readAcc_ok he, State.andThen_same, Acc.all_eq_map,
    List.zip_map', List.map_map, ha, ne_eq, not_true, if_false]
  rfl

end

/-- Settles O29: each instruction ends in writeAcc of an accumulator whose elements are read one by one, or ACCADD in its trap. -/
theorem accumulatorUpdates : Obligations.AccumulatorUpdates := by
  unfold Obligations.AccumulatorUpdates
  intro s c a x h hq hh he hr old add new
  refine ⟨?_, ?_, fun ha => ?_, exec_accadd_anchors hq hh⟩
  · exact .of_keepsControl h (exec_zacc hq hh he hr c x) (s.writeAcc_keepsTile ..).keepsControl
  · refine ⟨_, _, .of_keepsControl h (exec_accanch hq hh he hr c x) ((s.writeAcc_keepsTile ..).keepsControl.orFlags _), rfl, fun e hlt => ?_⟩
    rw [Acc.rescaled, List.map_map, accOf_elem _ _ hlt]
    rfl
  · exact ⟨_, .of_keepsControl h (exec_accadd hq hh he hr ha) (s.writeAcc_keepsTile ..).keepsControl, rfl, fun e hlt => accOf_elem _ _ hlt⟩

end Sys2Proof.Machine
end

section
/-! Codebooks and descriptor registers loaded from local memory, and a quarter of a descriptor replaced (R210 to R212). -/
namespace Sys2Proof.Machine
variable {s : State}

theorem Tile.locked_of_no_locks {x : Tile} (h : x.locks = []) (a n : Nat) (acc : Access) : x.locked a n acc = false := by simp [Tile.locked, h]

theorem State.checkBlockAt_ok (hl : s.here.locks = []) {b : Word} {n align : Nat} (hb : b.toNat + n ≤ 2 ^ 18) (ha : b.toNat % align = 0)
    (acc : Access) : s.checkBlockAt b n align acc = .ok () := by
  rw [State.checkBlockAt, if_neg (Nat.not_lt.mpr hb), if_neg (not_not.mpr ha), Tile.locked_of_no_locks hl]
  rfl

/-- R210: CBLD where nothing stops it. -/
theorem exec_cbld (hq : s.here.mmaq = []) (hh : s.me.held = none) (he : s.here.errs = []) (hl : s.here.locks = []) {b : BitVec 6}
    (hb : (s.getS b).toNat + 32 ≤ 2 ^ 18) (ha : (s.getS b).toNat % 32 = 0) (c ta tb : BitVec 2) :
    exec (.cbld c b ta tb) s = s.finishSeq (.cbld c b ta tb) (.ok ((s.setHere { s.here with
      cb := s.here.cb.set c.toNat (BitVec.ofNat 256 (s.view.lm (s.getS b).toNat 32)) c.isLt, ta := ta, tb := tb }).note
        false false (s.getS b).toNat 32)) := by
  show execCbld c b ta tb s = _
  rw [execCbld, State.matrixEntry_ok hq hh, if_neg (not_not.mpr hq), State.checkBlockAt_ok hl hb ha, State.readLines_none s he]
  rfl

/-- R211: LDD where nothing stops it. -/
theorem exec_ldd (he : s.here.errs = []) (hl : s.here.locks = []) {b : BitVec 6} {i : BitVec 8} {adr : Word}
    (hadr : s.getS b + BitVec.ofNat 64 (64 * i.toNat) = adr) (hb : adr.toNat + 32 ≤ 2 ^ 18) (ha : adr.toNat % 32 = 0) (d : BitVec 3) :
    exec (.ldd d b i) s = s.finishSeq (.ldd d b i) (.ok ((s.note false false adr.toNat 32).setD d
      (BitVec.ofNat 256 (s.view.lm adr.toNat 32)))) := by
  show execLdd d b i s = _
  simp only [execLdd, Nat.mul_comm i.toNat, hadr, State.checkBlockAt_ok hl hb ha, State.readLines_none s he]
  rfl

theorem State.NotedFrom.setD {u t : State} (h : u.NotedFrom t) (d : BitVec 3) (v : Desc) : (u.setD d v).NotedFrom (t.setD d v) := by
  rcases h with rfl | ⟨l, rfl⟩
  · exact .refl _
  · exact .inr ⟨l, by simp [State.setD]⟩

theorem State.KeepsControl.setD (s : State) (d : BitVec 3) (v : Desc) : s.KeepsControl (s.setD d v) := by
  constructor <;> simp [State.setD]

/-- Quarter n of a descriptor replaced (R212). -/
def quarterSet (old : Desc) (n : Nat) (x : Word) : Desc := BitVec.ofNat 256 (packElems 64 (listSet (elemsOf old.toNat 64 4) n x.toNat))

theorem getLsbD_quarterSet (old : Desc) (n : Nat) (x : Word) {j : Nat} (hj : j < 256) :
    (quarterSet old n x).getLsbD j = if j / 64 = n then x.getLsbD (j % 64) else old.getLsbD j := by
  have hq : j / 64 < 4 := by omega
  rw [quarterSet, BitVec.getLsbD_ofNat, decide_eq_true hj, Bool.true_and, testBit_packElems (by decide), elemsOf_eq_map, listSet_range_map,
    range_map_getD, if_pos hq]
  split
  · rfl
  · rw [testBit_lineElem, decide_eq_true (Nat.mod_lt j (by decide)), Bool.true_and, Nat.div_add_mod]
    rfl

/-- Settles O33: the loads by what they leave once their accesses are forgotten, SETD bit by bit. -/
theorem descriptorAndCodebookLoads : Obligations.DescriptorAndCodebookLoads := by
  unfold Obligations.DescriptorAndCodebookLoads
  intro s d b i c ta tb n h he hl at_ off
  refine ⟨fun hq hh hb ha => ?_, fun hb ha => ?_, fun _ => ?_⟩
  · exact .of_stored h (exec_cbld hq hh he hl hb ha c ta tb) ((State.NotedFrom.refl _).note ..) (.setHere rfl rfl)
  · exact .of_notedFrom h (exec_ldd he hl rfl hb ha d) (((State.NotedFrom.refl s).note ..).setD ..) (.setD ..) (by simp [State.setD])
  · exact ⟨quarterSet (s.getD d) n.toNat at_, .of_keepsControl h rfl (.setD ..), fun j hj => getLsbD_quarterSet _ _ _ hj⟩

end Sys2Proof.Machine
end

section
/-! What operations on local memory leave of the rest of their tile, and MMA's issue (R189 to R193, R352). -/
namespace Sys2Proof.Machine

/-! ### The rest of the tile -/

/-- y is x but for local memory, its side band and their pre-images. -/
def Tile.SameButMemory (x y : Tile) : Prop :=
  ∃ mem undef band pre loose, y = { x with mem := mem, undef := undef, band := band, pre := pre, loose := loose }

namespace Tile.SameButMemory
variable {x y z : Tile}

theorem refl (x : Tile) : x.SameButMemory x := ⟨_, _, _, _, _, rfl⟩

theorem trans (h : x.SameButMemory y) (g : y.SameButMemory z) : x.SameButMemory z := by
  obtain ⟨_, _, _, _, _, rfl⟩ := h
  obtain ⟨_, _, _, _, _, rfl⟩ := g
  exact ⟨_, _, _, _, _, rfl⟩

/-- Operations done one after another. -/
theorem foldl {α : Type} {f : Tile → α → Tile} (hf : ∀ (y : Tile) a, y.SameButMemory (f y a)) (l : List α) (x : Tile) : x.SameButMemory (l.foldl f x) :=
  List.foldlRecOn (motive := x.SameButMemory) _ _ (.refl x) fun y hy a _ => hy.trans (hf y a)

theorem touch (x : Tile) (mgmt : Bool) (line : Nat) (mask : BitVec 64) : x.SameButMemory (x.touch mgmt line mask) := by
  unfold Tile.touch
  split
  · exact ⟨_, _, _, _, _, rfl⟩
  · split <;> exact ⟨_, _, _, _, _, rfl⟩

theorem writeBytes (x : Tile) (a : Nat) (l : List Byte) : x.SameButMemory (x.writeBytes a l) := ⟨_, _, _, _, _, rfl⟩

theorem setDesc (x : Tile) (line : Nat) (d : BitVec 16) : x.SameButMemory (x.setDesc line d) := ⟨_, _, _, _, _, rfl⟩

theorem storeBytes (x : Tile) (mgmt : Bool) (a : Nat) (l : List Byte) : x.SameButMemory (x.storeBytes mgmt a l) :=
  (foldl (fun y k => touch y mgmt k _) _ x).trans (writeBytes ..)

theorem performPart (mgmt : Bool) (x : Tile) (p : Pend) : x.SameButMemory (Tile.performPart mgmt x p) := by
  have hcells := foldl (fun y (c : WCell) => writeBytes y c.addr [c.onto (y.byte c.addr)]) p.cells (x.touch mgmt p.line p.mask)
  refine (touch x mgmt p.line p.mask).trans (hcells.trans ?_)
  unfold Tile.performPart Tile.putPart
  split
  · exact setDesc ..
  · exact refl _

theorem under (x : Tile) (e : EarlyRead) : x.SameButMemory (x.under e) :=
  (foldl (fun y (c : Nat × Byte) => writeBytes y c.1 [c.2]) e.cells x).trans ⟨_, _, _, _, _, rfl⟩

end Tile.SameButMemory

/-! ### Every store of the tile performed -/

variable {s : State}

theorem State.settle_sameButMemory (s : State) : Tile.SameButMemory { s.here with sbuf := [] } s.settle.here := by
  unfold State.settle
  split
  case isTrue h => exact ⟨s.here.mem, s.here.undef, s.here.band, s.here.pre, s.here.loose, by rw [← h]⟩
  case isFalse => rw [State.here_setHere]; exact .foldl (Tile.SameButMemory.performPart _) _ _

theorem State.settle_keepsTile (s : State) : s.KeepsTile s.settle := by
  obtain ⟨_, _, _, _, _, h⟩ := s.settle_sameButMemory
  refine ⟨?_, ?_, by rw [h], by rw [h]⟩ <;> (unfold State.settle; split <;> rfl)

theorem State.setHere_settle (s : State) (y : Tile) : s.settle.setHere y = s.setHere y := by
  unfold State.settle
  split
  · rfl
  · exact State.setHere_setHere ..

/-! ### The issue of an MMA -/

/-- The operand's descriptor passes the checks of R192; klen is what KLEN must equal. -/
structure OperandOk (d : Desc) (klen : Nat) : Prop where
  named : d.toNat &&& dNamed = d.toNat
  base : dBase d % 64 = 0
  stride : dStride d % 64 = 0
  klen_pos : 0 < dKlen d
  klen_le : dKlen d ≤ 64
  klen_eq : dKlen d = klen
  cls : dClass d ≤ 5
  bound : dBase d + dLen d ≤ 0x40000

theorem checkOperand_ok {d : Desc} {klen : Nat} (h : OperandOk d klen) (num : BitVec 3) : checkOperand d num klen = .ok () := by
  have hklen : ¬(dKlen d = 0 ∨ 64 < dKlen d ∨ dKlen d ≠ klen) := by
    have := h.klen_pos
    have := h.klen_le
    have := h.klen_eq
    omega
  rw [checkOperand, if_neg (not_not.mpr h.named), if_neg (by simp [h.base, h.stride]), if_neg hklen, if_neg (Nat.not_lt.mpr h.cls),
    if_neg (Nat.not_lt.mpr h.bound)]

theorem Tile.operandClash_of_no_locks {x : Tile} (h : x.locks = []) (d : Desc) : x.operandClash d = [] := by
  simp [Tile.operandClash, Tile.clashes, h]

theorem operandLock_length_le (d : Desc) (n : BitVec 2) (k : BitVec 4) : (operandLock d n k).length ≤ 1 := by
  unfold operandLock
  split <;> simp

/-- The tile that an MMA leaves: the pre-image of its accumulator taken, its locks held, the MMA alone in the queue (R193). -/
def State.mmaIssued (s : State) (c : BitVec 3) (da db : Desc) (k : BitVec 4) : Tile :=
  let x := s.settle.here.touchAcc (isMgmt s.curTile) c
  { x with
    locks := operandLock da s.curStrand k ++ operandLock db s.curStrand k
    mmaq := [{ strand := s.curStrand, own := s.me.pc, acc := c, dA := da, dB := db, tok := k, mtm := s.me.mtm, before := x.accAt c }] }

/-- Neither settling nor taking the pre-image changes the locks, the matrix unit's queue or the superstep. -/
theorem State.settled_touchAcc_units (s : State) (c : BitVec 3) : let x := s.settle.here.touchAcc (isMgmt s.curTile) c
    x.locks = s.here.locks ∧ x.mmaq = s.here.mmaq ∧ x.num = s.here.num := by
  obtain ⟨_, _, _, _, _, h⟩ := s.settle_sameButMemory
  unfold Tile.touchAcc
  split <;> (rw [h]; exact ⟨rfl, rfl, rfl⟩)

theorem State.settle_errs (s : State) : s.settle.here.errs = s.here.errs := by
  obtain ⟨_, _, _, _, _, h⟩ := s.settle_sameButMemory
  rw [h]

/-- R191 to R193: MMA where nothing stops it. -/
theorem exec_mma (hq : s.here.mmaq = []) (hh : s.me.held = none) (he : s.here.errs = []) (hl : s.here.locks = [])
    (hr : s.here.retu + 64 * s.here.sbuf.length + 2560 ≤ 65536) {k : BitVec 4} (hk : (s.getTok k).st ≠ .pending) {a b : BitVec 3}
    (ha : OperandOk (s.getD a) (dKlen (s.getD a))) (hb : OperandOk (s.getD b) (dKlen (s.getD a))) (c : BitVec 3) :
    exec (.mma c a b k) s = s.finishSeq (.mma c a b k)
      (.ok ((s.setHere (s.mmaIssued c (s.getD a) (s.getD b) k)).setTok k (takenToken .mma s.here.num))) := by
  have hkeep := s.settle_keepsTile
  obtain ⟨hlocks, hmmaq, hnum⟩ := s.settled_touchAcc_units c
  have hfew : ¬16 < (operandLock (s.getD a) s.curStrand k ++ operandLock (s.getD b) s.curStrand k).length := by
    have := operandLock_length_le (s.getD a) s.curStrand k
    have := operandLock_length_le (s.getD b) s.curStrand k
    rw [List.length_append]
    omega
  have hsup : s.settle.supervisor = isMgmt s.curTile := congrArg isMgmt hkeep.curTile
  show execMma c a b k s = _
  rw [execMma, State.matrixEntry_ok hq hh, checkOperand_ok ha, checkOperand_ok hb, State.checkAccPre_ok hr, Tile.operandClash_of_no_locks hl,
    Tile.operandClash_of_no_locks hl, hl, List.length_nil, Nat.zero_add, if_neg hfew, State.preAcc_ok (s.settle_errs.trans he), if_neg hk]
  refine congrArg (fun t => s.finishSeq _ (.ok t)) ?_
  simp only [hsup, hlocks, hmmaq, hnum, hl, hq, hkeep.curStrand, hkeep.me, State.setHere_settle, State.mmaIssued, List.nil_append]

theorem State.mmaIssued_keepsTile (s : State) (c : BitVec 3) (da db : Desc) (k : BitVec 4) : s.KeepsTile (s.setHere (s.mmaIssued c da db k)) := by
  obtain ⟨hstrands, hdbg⟩ := s.settle.here.touchAcc_control (isMgmt s.curTile) c
  exact .setHere (hstrands.trans s.settle_keepsTile.strands) (hdbg.trans s.settle_keepsTile.dbg)

theorem State.KeepsControl.setTok {s t : State} (h : s.KeepsControl t) (k : BitVec 4) (x : Token) : s.KeepsControl (t.setTok k x) := by
  obtain ⟨hst, hl, hs, ht⟩ := h
  constructor <;> simpa [State.setTok, Strand.setTok]

/-- Settles O31: what settling leaves beside local memory passes the remaining checks, and the queue, the locks and the token are written. -/
theorem mmaIssues : Obligations.MmaIssues := by
  unfold Obligations.MmaIssues
  intro s c a b k h hq hh he hr hk da db okay lock hda hdb hl
  have hok (d : Desc) (hd : okay d) : OperandOk d (dKlen da) := by
    obtain ⟨hn, hb, hs, hpos, hle, heq, hcls, hend⟩ := hd
    exact ⟨hn, hb, hs, hpos, hle, heq, hcls, hend⟩
  exact .of_keepsControl h (exec_mma hq hh he hl hr hk (hok da hda) (hok db hdb) c) ((s.mmaIssued_keepsTile c da db k).keepsControl.setTok ..)

end Sys2Proof.Machine
end

section
/-! The matrix unit's k-block: the 256 elements of a block, their flags, and the end of an MMA (R193 to R196, R428). -/
namespace Sys2Proof.Machine

/-- A table of rows read row by row. -/
theorem flatMap_range_map {α : Type} (f : Nat → Nat → α) (n : Nat) {m : Nat} (hm : 0 < m) :
    (List.range n).flatMap (fun i => (List.range m).map (f i)) = (List.range (n * m)).map fun e => f (e / m) (e % m) := by
  induction n with
  | zero => simp
  | succ n ih =>
    rw [List.range_succ, List.flatMap_append, ih, List.flatMap_singleton, Nat.succ_mul, List.range_add, List.map_append, List.map_map]
    congr 1
    refine List.map_congr_left fun j hj => ?_
    have hj := List.mem_range.mp hj
    rw [Function.comp_apply, Nat.mul_comm n m, Nat.mul_add_div hm, Nat.div_eq_of_lt hj, Nat.mul_add_mod, Nat.mod_eq_of_lt hj, Nat.add_zero]

theorem getLsbD_foldl_or {α : Type} (g : α → Flags) (i : Nat) (l : List α) (a : Flags) :
    (l.foldl (fun f e => f ||| g e) a).getLsbD i = (a.getLsbD i || l.any fun e => (g e).getLsbD i) := by
  induction l generalizing a with
  | nil => simp
  | cons e r ih => rw [List.foldl_cons, ih, BitVec.getLsbD_or, List.any_cons, Bool.or_assoc]

theorem Mma.next_eq (m : Mma) : m.next = (List.range (dKlen m.dA)).find? fun i => !m.mtm.getLsbD i := by rw [Mma.next, span_zero_eq_range]

theorem Tile.mmaView_accAt (x : Tile) (m : Mma) (j : Nat) (c : BitVec 3) : (x.mmaView m j).accAt c = x.accAt c := by
  unfold Tile.mmaView
  split
  · rfl
  · rename_i e _
    obtain ⟨_, _, _, _, _, h⟩ := Tile.SameButMemory.under x e
    rw [h]
    rfl

/-- Rows 0 to 15 of an operand in k-block j. -/
def Tile.operandRows (y : Tile) (d : Desc) (j : Nat) : List (List Ext) := (List.range 16).map fun i => y.operandRow d i j

/-- Element e of the products of k-block j, with its flags (R194). -/
def Tile.blockElem (y : Tile) (anc : Int) (m : Mma) (j e : Nat) : AccElem × Flags :=
  dotElem anc (y.operandRow m.dA (e / 16) j) (y.operandRow m.dB (e % 16) j)

/-- The sums of the 256 elements of k-block j. -/
def Tile.blockSums (y : Tile) (anc : Int) (m : Mma) (j : Nat) : List AccElem := (List.range 256).map fun e => (y.blockElem anc m j e).1

/-- The flags of the 256 elements of k-block j. -/
def Tile.blockFlags (y : Tile) (anc : Int) (m : Mma) (j : Nat) : Flags := (List.range 256).foldl (fun f e => f ||| (y.blockElem anc m j e).2) 0

theorem Tile.blockElems_eq (y : Tile) (anc : Int) (m : Mma) (j : Nat) :
    ((y.operandRows m.dA j).flatMap fun a => (y.operandRows m.dB j).map fun b => dotElem anc a b) =
      (List.range 256).map (y.blockElem anc m j) := by
  simp only [Tile.operandRows, List.flatMap_map, List.map_map]
  exact flatMap_range_map (fun i k => dotElem anc (y.operandRow m.dA i j) (y.operandRow m.dB k j)) 16 (by decide)

theorem Tile.getLsbD_blockFlags (y : Tile) (anc : Int) (m : Mma) (j i : Nat) :
    (y.blockFlags anc m j).getLsbD i = (List.range 256).any fun e => (y.blockElem anc m j e).2.getLsbD i := by
  rw [Tile.blockFlags, getLsbD_foldl_or, show (0 : Flags).getLsbD i = false from BitVec.getLsbD_zero, Bool.false_or]

/-- The accumulator with an element added to each of its own (R112). -/
def Acc.added (a : Acc) (els : List AccElem) : Acc := accOf a.anc ((a.all.zip els).map fun e => accCombine e.1 e.2)

theorem Acc.added_elem (a : Acc) (f : Nat → AccElem) {e : Nat} (he : e < 256) :
    (a.added ((List.range 256).map f)).elem e = accCombine (a.elem e) (f e) := by
  rw [Acc.added, Acc.all_eq_map, List.zip_map', List.map_map, accOf_elem _ _ he]
  rfl

/-! ### A turn of the matrix unit -/

variable {s : State} {m : Mma} {rest : List Mma} {x y : Tile}

theorem State.blockReads_none {t : Nat} (he : (s.tile t).errs = []) (m : Mma) (j : Nat) : s.blockReads t m j = s := if_pos he

theorem State.correctAt_none {t : Nat} (he : (s.tile t).errs = []) (loc : ErrAt) : s.correctAt t loc = s := by simp [State.correctAt, he]

theorem Tile.hardAt_none (he : x.errs = []) (loc : ErrAt) : x.hardAt loc = false := by simp [Tile.hardAt, he]

/-- The strand of an MMA once its k-block j has been added: the bit of the block, and the flags of the products (R196, R201). -/
def Strand.blockDone (r : Strand) (j : Nat) (fl : Flags) : Strand := { r with mtm := r.mtm ||| (1#64 <<< j), flg := r.flg ||| fl.setWidth 19 }

theorem Strand.getLsbD_flg_blockDone (r : Strand) (y : Tile) (anc : Int) (m : Mma) (j i : Nat) :
    (r.blockDone j (y.blockFlags anc m j)).flg.getLsbD i =
      (r.flg.getLsbD i || (List.range 256).any fun e => decide (i < 19) && (y.blockElem anc m j e).2.getLsbD i) := by
  rw [Strand.blockDone, BitVec.getLsbD_or, BitVec.getLsbD_setWidth, Tile.getLsbD_blockFlags]
  cases decide (i < 19) <;> simp

/-- The tile once k-block j of the MMA at its head has been added: els the elements that the block gives. -/
def Tile.blockDone (x : Tile) (m : Mma) (rest : List Mma) (j : Nat) (els : List AccElem) (fl : Flags) : Tile :=
  { x.setAcc m.acc ((x.accAt m.acc).added els) with
    mmaq := { m with mtm := m.mtm ||| (1#64 <<< j), early := SMap.del m.early j } :: rest }.setStrand m.strand ((x.strand m.strand).blockDone j fl)

/-- R193 to R196: a k-block that CheckBlock passes is added, or ends the MMA where it diverges from its shadow (R428). -/
theorem exec_mmaKblock_block (hx : s.tile s.ev.tile = x) (he : x.errs = []) (hq : x.mmaq = m :: rest) {j : Nat} (hj : m.next = some j)
    (hy : x.mmaView m j = y) (hc : y.checkBlock m j = none) {anc : Int} (ha : (x.accAt m.acc).anc.toInt = anc) :
    exec .mmaKblock s =
      if shadowFails anc (y.operandRows m.dA j) (y.operandRows m.dB j) (y.blockSums anc m j) (bend s.ev.nums (y.blockSums anc m j))
      then .next (s.mmaFault s.ev.tile m 0x32 (BitVec.ofNat 8 j) false j)
      else .next (s.setTile s.ev.tile (x.blockDone m rest j (bend s.ev.nums (y.blockSums anc m j)) (y.blockFlags anc m j))) := by
  subst hx hy
  have hrows (d : Desc) : ((span 0 16).map fun i => ((s.tile s.ev.tile).mmaView m j).operandRow d i j) =
      ((s.tile s.ev.tile).mmaView m j).operandRows d j := by rw [span_zero_eq_range, Tile.operandRows]
  have hfst : ((List.range 256).map (((s.tile s.ev.tile).mmaView m j).blockElem anc m j)).map Prod.fst =
      ((s.tile s.ev.tile).mmaView m j).blockSums anc m j := List.map_map
  show execMmaKblock s = _
  simp only [execMmaKblock, hq, hj, hc, State.blockReads_none he, Tile.mmaView_accAt, Tile.blockElems_eq, Tile.hardAt_none he,
    State.correctAt_none he, Bool.false_eq_true, if_false, ha, hfst, hrows,
    List.foldl_map]
  rfl

/-- R196: where no block is left the MMA ends, its token SET with status 0 and its locks released. -/
theorem exec_mmaKblock_end (hx : s.tile s.ev.tile = x) (hq : x.mmaq = m :: rest) (hj : m.next = none) :
    exec .mmaKblock s = .next (s.setTile s.ev.tile ((({ x with mmaq := rest } : Tile).unlock m.strand m.tok [.mma]).setStrand m.strand
      { (x.strand m.strand).setTok m.tok { (x.strand m.strand).tok m.tok with st := .set, status := 0 } with mtm := 0 })) := by
  subst hx
  show execMmaKblock s = _
  simp only [execMmaKblock, hq, hj]
  rfl

/-- Settles O32: the block that the model runs is the table of its 256 elements, added element by element. -/
theorem mmaBlockAccumulates : Obligations.MmaBlockAccumulates := by
  unfold Obligations.MmaBlockAccumulates
  intro s m rest t x blocks he hq
  constructor
  · intro j hj hc seen acc rows dot sums off
    have hexec := exec_mmaKblock_block rfl he hq (m.next_eq.trans hj) rfl hc rfl
    refine ⟨fun hoff => hexec.trans (if_pos hoff), fun hn hoff => ?_⟩
    rw [hn] at hexec
    refine ⟨acc.added sums, (x.strand m.strand).blockDone j (seen.blockFlags acc.anc.toInt m j), hexec.trans (if_neg (Bool.eq_false_iff.mp hoff)),
      rfl, fun e hlt => acc.added_elem _ hlt, rfl, fun i => ?_⟩
    exact (x.strand m.strand).getLsbD_flg_blockDone seen acc.anc.toInt m j i
  · exact fun hj => exec_mmaKblock_end rfl hq (m.next_eq.trans hj)

end Sys2Proof.Machine
end

section
/-! Described lines stored one after another: what each byte and each descriptor reads, and the parts that wait (R177, R206, R346). -/
namespace Sys2Proof.Machine

/-! ### Lines performed at once -/

/-- The number of n bytes, from bytes of a number that may be longer. -/
theorem Tile.lm_eq_mod {x : Tile} {a n v : Nat} (h : ∀ i < n, x.byte (a + i) = BitVec.ofNat 8 (v / 2 ^ (8 * i))) :
    x.lm a n = v % 2 ^ (8 * n) := by
  refine Tile.lm_eq (Nat.mod_lt _ (Nat.two_pow_pos _)) fun i hi => (h i hi).trans (BitVec.eq_of_getLsbD_eq fun b hb => ?_)
  rw [getLsbD_ofNat_div hb, getLsbD_ofNat_div hb, Nat.testBit_mod_two_pow, decide_eq_true (by omega), Bool.true_and]

/-- The described lines l 0 to l (n - 1), each a line and its descriptor, stored from a line on. -/
def Tile.storeLines (x : Tile) (mgmt : Bool) (line : Nat) (l : Nat → Nat × Nat) (n : Nat) : Tile :=
  (List.range n).foldl (fun y j => (y.storeBytes mgmt (64 * (line + j)) (toBytes 64 (l j).1)).setDesc (line + j) (BitVec.ofNat 16 (l j).2)) x

section
variable (x : Tile) (mgmt : Bool) (line : Nat) (l : Nat → Nat × Nat) (n : Nat)

theorem Tile.storeLines_succ : x.storeLines mgmt line l (n + 1) =
    ((x.storeLines mgmt line l n).storeBytes mgmt (64 * (line + n)) (toBytes 64 (l n).1)).setDesc (line + n) (BitVec.ofNat 16 (l n).2) := by
  rw [Tile.storeLines, List.range_succ, List.foldl_append]
  rfl

theorem Tile.storeLines_sameButMemory : x.SameButMemory (x.storeLines mgmt line l n) :=
  .foldl (fun y _ => (Tile.SameButMemory.storeBytes y ..).trans (.setDesc ..)) _ x

theorem Tile.byte_storeLines (k : Nat) : (x.storeLines mgmt line l n).byte k =
    if 64 * line ≤ k ∧ k < 64 * (line + n) then BitVec.ofNat 8 ((l (k / 64 - line)).1 / 2 ^ (8 * (k % 64))) else x.byte k := by
  induction n with
  | zero => exact (if_neg (by omega)).symm
  | succ n ih =>
    have hset (y : Tile) (d : BitVec 16) : (y.setDesc (line + n) d).byte k = y.byte k := rfl
    rw [Tile.storeLines_succ, hset, Tile.byte_storeBytes, ih, toBytes_length, toBytes_getD]
    by_cases hk : 64 * (line + n) ≤ k ∧ k < 64 * (line + n) + 64
    · rw [if_pos hk, if_pos (by omega), if_pos (by omega), show k / 64 - line = n by omega, show k - 64 * (line + n) = k % 64 by omega]
    · rw [if_neg hk]
      exact if_congr (by omega) rfl rfl

/-- The line at each place stored. -/
theorem Tile.lm_storeLines {j : Nat} (hj : j < n) : (x.storeLines mgmt line l n).lm (64 * (line + j)) 64 = (l j).1 % 2 ^ 512 := by
  have hbyte (i : Nat) (hi : i < 64) : (x.storeLines mgmt line l n).byte (64 * (line + j) + i) = BitVec.ofNat 8 ((l j).1 / 2 ^ (8 * i)) := by
    rw [Tile.byte_storeLines, if_pos (by omega), show (64 * (line + j) + i) / 64 - line = j by omega,
      show (64 * (line + j) + i) % 64 = i by omega]
  have hlm := Tile.lm_eq_mod hbyte
  rwa [show 8 * 64 = 512 from rfl] at hlm

theorem Tile.bandAt_storeLines (k : Nat) : (x.storeLines mgmt line l n).bandAt k = if line ≤ k ∧ k < line + n
    then (x.bandAt k &&& 0xFFFF) ||| BitVec.ofNat 32 ((BitVec.ofNat 16 (l (k - line)).2).toNat * 2 ^ 16) else x.bandAt k := by
  induction n with
  | zero => exact (if_neg (by omega)).symm
  | succ n ih =>
    have hband (y : Tile) (a : Nat) (bs : List Byte) (i : Nat) : (y.storeBytes mgmt a bs).bandAt i = y.bandAt i := by
      obtain ⟨-, -, -, -, hb⟩ := y.storeBytes_rest mgmt a bs
      rw [Tile.bandAt, Tile.bandAt, hb]
    rw [Tile.storeLines_succ, Tile.setDesc]
    by_cases hk : k = line + n
    · subst hk
      rw [Tile.bandAt, Tile.setBand, SMap.get_set_self, hband, ih, if_neg (by omega), if_pos (by omega), Nat.add_sub_cancel_left]
    · rw [Tile.bandAt, Tile.setBand, SMap.get_set_ne _ _ _ hk, ← Tile.bandAt, hband, ih]
      exact if_congr (by omega) rfl rfl

end

/-- A side band with its descriptor replaced: the descriptor above, the tags as before (R18). -/
theorem band_setDesc (b : BitVec 32) (d : BitVec 16) :
    ((b &&& 0xFFFF) ||| BitVec.ofNat 32 (d.toNat * 2 ^ 16)).toNat / 2 ^ 16 = d.toNat ∧
      ((b &&& 0xFFFF) ||| BitVec.ofNat 32 (d.toNat * 2 ^ 16)).toNat % 2 ^ 16 = b.toNat % 2 ^ 16 := by
  have hlo : b.toNat &&& 0xFFFF = b.toNat % 2 ^ 16 := Nat.and_two_pow_sub_one_eq_mod b.toNat 16
  have hd := d.isLt
  have hsum : ((b &&& 0xFFFF) ||| BitVec.ofNat 32 (d.toNat * 2 ^ 16)).toNat = 2 ^ 16 * d.toNat + b.toNat % 2 ^ 16 := by
    rw [Nat.two_pow_add_eq_or_of_lt (Nat.mod_lt _ (by decide)), Nat.or_comm, ← hlo, BitVec.toNat_or, BitVec.toNat_and, BitVec.toNat_ofNat,
      Nat.mod_eq_of_lt (by omega), Nat.mul_comm d.toNat]
    rfl
  omega

/-! ### Lines that the turn performs or leaves -/

variable {s : State}

/-- The described lines l 0 to l (n - 1) stored by the strand from a line on. -/
def State.putLines (s : State) (line : Nat) (l : Nat → Nat × Nat) (n : Nat) : State :=
  (List.range n).foldl (fun u j => u.putLine (line + j) (l j).1 (BitVec.ofNat 16 (l j).2)) s

theorem State.putLines_succ (s : State) (line : Nat) (l : Nat → Nat × Nat) (n : Nat) :
    s.putLines line l (n + 1) = (s.putLines line l n).putLine (line + n) (l n).1 (BitVec.ofNat 16 (l n).2) := by
  rw [State.putLines, List.range_succ, List.foldl_append]
  rfl

theorem State.putLines_keepsTile (s : State) (line : Nat) (l : Nat → Nat × Nat) (n : Nat) : s.KeepsTile (s.putLines line l n) :=
  List.foldlRecOn (motive := s.KeepsTile) _ _ (.refl s) fun t ht _ _ => ht.trans (t.putLine_keepsTile ..)

/-- A store performed at once leaves the next one of the turn to be performed at once too. -/
theorem State.putLines_direct (h : s.direct = true) (line : Nat) (l : Nat → Nat × Nat) (n : Nat) :
    s.putLines line l (n + 1) = s.setHere (s.here.storeLines s.supervisor line l (n + 1)) := by
  induction n with
  | zero => exact if_pos h
  | succ n ih =>
    obtain ⟨_, _, _, _, _, hsame⟩ := s.here.storeLines_sameButMemory s.supervisor line l (n + 1)
    have hdirect : (s.setHere (s.here.storeLines s.supervisor line l (n + 1))).direct = true := by
      rw [State.direct, State.here_setHere, hsame]
      exact h
    rw [State.putLines_succ, ih, State.putLine, if_pos hdirect, State.here_setHere, State.setHere_setHere, Tile.storeLines_succ _ _ _ _ (n + 1)]
    rfl

/-- The parts of one described line (R346). -/
def State.lineParts (s : State) (line v : Nat) (d : BitVec 16) : List Pend :=
  (List.range 4).map fun q =>
    { strand := s.curStrand, since := s.cycle, line := line, cells := byteCells (64 * line + 16 * q) (toBytes 16 (v / 2 ^ (128 * q))),
      desc := if q = 0 then some d else none }

/-- What makes the strand's stores wait goes on while it issues more: its turn, and its stores not yet performed. -/
structure State.StillWaits (s t : State) : Prop where
  late : t.late = s.late
  cycle : t.cycle = s.cycle
  curStrand : t.curStrand = s.curStrand
  sbuf : s.here.sbuf ⊆ t.here.sbuf

theorem State.stillWaits_storePart (s : State) (p : Pend) : s.StillWaits (s.storePart p) := by
  unfold State.storePart
  split
  · exact ⟨rfl, rfl, rfl, by rw [State.here_setHere]; exact List.subset_append_left ..⟩
  · obtain ⟨_, _, _, _, _, h⟩ := Tile.SameButMemory.performPart s.supervisor s.here p
    exact ⟨rfl, rfl, rfl, by rw [State.here_setHere, h]; exact List.Subset.refl _⟩

theorem State.stillWaits_storeParts (s : State) (l : List Pend) : s.StillWaits (s.storeParts l) :=
  List.foldlRecOn (motive := s.StillWaits) _ _ ⟨rfl, rfl, rfl, List.Subset.refl _⟩ fun t ht p _ => by
    obtain ⟨hl, hc, hs, hb⟩ := t.stillWaits_storePart p
    exact ⟨hl.trans ht.late, hc.trans ht.cycle, hs.trans ht.curStrand, fun _ hq => hb (ht.sbuf hq)⟩

theorem State.StillWaits.direct {s t : State} (h : s.StillWaits t) (hd : s.direct = false) : t.direct = false := by
  rw [State.direct, Bool.and_eq_false_iff] at hd ⊢
  rw [h.late, h.curStrand]
  refine hd.imp_right fun hb => ?_
  obtain ⟨p, hp, hown⟩ := List.all_eq_false.mp hb
  exact List.all_eq_false.mpr ⟨p, h.sbuf hp, hown⟩

/-- A store that waits leaves the next one of the turn waiting too. -/
theorem State.putLines_late (h : s.direct = false) (line : Nat) (l : Nat → Nat × Nat) (n : Nat) : s.putLines line l n =
    s.storeParts ((List.range n).flatMap fun j => s.lineParts (line + j) (l j).1 (BitVec.ofNat 16 (l j).2)) := by
  induction n with
  | zero => rfl
  | succ n ih =>
    have hwait := s.stillWaits_storeParts ((List.range n).flatMap fun j => s.lineParts (line + j) (l j).1 (BitVec.ofNat 16 (l j).2))
    have hlast : (s.putLines line l n).putLine (line + n) (l n).1 (BitVec.ofNat 16 (l n).2) =
        (s.putLines line l n).storeParts (s.lineParts (line + n) (l n).1 (BitVec.ofNat 16 (l n).2)) := by
      rw [← ih] at hwait
      rw [State.putLine_late (hwait.direct h), State.lineParts, hwait.curStrand, hwait.cycle]
    rw [State.putLines_succ, hlast, ih, List.range_succ, List.flatMap_append, List.flatMap_singleton]
    exact List.foldl_append.symm

end Sys2Proof.Machine
end

section
/-! Accumulators as rows of extended reals and as raw bytes, and what a plain retirement forgets around them (R114, R205, R208). -/
namespace Sys2Proof.Machine

/-! ### Rows -/

theorem span_map {α : Type} (lo n : Nat) (f : Nat → α) : (span lo n).map f = (List.range n).map fun j => f (lo + j) := by
  rw [span_eq_range', List.range'_eq_map_range, List.map_map]
  rfl

theorem find_span_none {p : Nat → Bool} {lo n : Nat} (h : ∀ j < n, p (lo + j) = false) : (span lo n).find? p = none := by
  rw [span_eq_range', List.find?_eq_none]
  intro k hk
  obtain ⟨hlo, hhi⟩ := List.mem_range'_1.mp hk
  rw [← Nat.add_sub_cancel' hlo, h _ (by omega)]
  exact Bool.false_ne_true

/-- The 16 extended reals of a row of an accumulator (R205). -/
def Acc.row (a : Acc) (k : Nat) : List Ext := (List.range 16).map fun j => accExt a.anc.toInt (a.elem (16 * k + j))

theorem Acc.span_row (a : Acc) (k : Nat) : ((span (16 * k) 16).map fun e => accExt a.anc.toInt (a.elem e)) = a.row k := span_map ..

/-- Row k as f32, each element with its flags (R205). -/
def Acc.rowF32 (a : Acc) (k mode : Nat) (sat : Bool) : List (Nat × Flags) := (a.row k).map fun e => encodeTy tF32 e mode sat

/-- The flags of row k as f32, with AOV where an element passes the accumulator's range (R113, R205). -/
def Acc.rowFlags (a : Acc) (k mode : Nat) (sat : Bool) : Flags :=
  let fl := (a.rowF32 k mode sat).foldl (fun f e => f ||| e.2) 0
  if rowOverflows a k = true then fl ||| flAOV else fl

/-- Line j of an ACCST from row r on, with its descriptor and its flags (R206). -/
def Acc.quantRow (a : Acc) (y : BitVec 4) (r j : Nat) : Nat × Nat × Flags := quantizeLine (accstFmt y) (a.row (r + j))

/-- The line and the descriptor of it. -/
def Acc.quantLine (a : Acc) (y : BitVec 4) (r j : Nat) : Nat × Nat := ((a.quantRow y r j).1, (a.quantRow y r j).2.1)

/-! ### The raw form -/

/-- The 4,096 bytes of the raw form of an accumulator (R114, R208). -/
def Acc.raws (a : Acc) : List Byte := (List.range 256).flatMap fun e => rawElem a.anc (a.elem e)

theorem Tile.bytes_add (x : Tile) (a m n : Nat) : x.bytes a (m + n) = x.bytes a m ++ x.bytes (a + m) n := by
  induction m generalizing a with
  | zero => rw [Nat.zero_add]; rfl
  | succ m ih => rw [Nat.succ_add, Tile.bytes, ih, Tile.bytes, List.cons_append, Nat.add_assoc, Nat.add_comm 1 m]

theorem Tile.bytes_length (x : Tile) (a n : Nat) : (x.bytes a n).length = n := by
  induction n generalizing a with
  | zero => rfl
  | succ n ih => rw [Tile.bytes, List.length_cons, ih]

/-- Bytes of local memory cut into pieces. -/
theorem Tile.chunksOf_bytes (x : Tile) (a n k : Nat) : chunksOf n k (x.bytes a (n * k)) = (List.range k).map fun e => x.bytes (a + n * e) n := by
  induction k generalizing a with
  | zero => rfl
  | succ k ih =>
    rw [Nat.mul_succ, Nat.add_comm (n * k), Tile.bytes_add, chunksOf, List.take_left' (x.bytes_length a n), List.drop_left' (x.bytes_length a n), ih,
      List.range_succ_eq_map, List.map_cons, List.map_map]
    refine congrArg (x.bytes a n :: ·) (List.map_congr_left fun e _ => ?_)
    rw [Function.comp_apply, Nat.mul_succ, Nat.add_assoc, Nat.add_comm n]

/-- Raw element e as the strand reads it (R208). -/
def State.rawAt (s : State) (a e : Nat) : List Byte := s.view.bytes (a + 16 * e) 16

/-- The anchor that a raw element names (R114). -/
def rawAnchor (l : List Byte) : Nat := ofBytes ((l.drop 12).take 2)

/-- The 256 raw elements from an address are valid and of one anchor (R208). -/
def State.RawsOk (s : State) (a : Nat) : Prop :=
  ∀ e < 256, rawValid (s.rawAt a e) = true ∧ rawAnchor (s.rawAt a e) = rawAnchor (s.rawAt a 0)

theorem State.rawAt_chunks (s : State) (a : Nat) : chunksOf 16 256 (s.view.bytes a 4096) = (List.range 256).map (s.rawAt a) :=
  s.view.chunksOf_bytes a 16 256

theorem State.rawAt_first (s : State) (a : Nat) : ((List.range 256).map (s.rawAt a)).headD [] = s.rawAt a 0 := by
  rw [show 256 = 255 + 1 from rfl, List.range_succ_eq_map]
  rfl

theorem State.RawsOk.find_none {s : State} {a : Nat} (h : s.RawsOk a) :
    (span 0 256).find? (fun e => !rawValid (((List.range 256).map (s.rawAt a)).getD e []) ||
      rawAnchor (((List.range 256).map (s.rawAt a)).getD e []) != rawAnchor (s.rawAt a 0)) = none :=
  find_span_none fun e he => by
    have hget : ((List.range 256).map (s.rawAt a)).getD (0 + e) [] = s.rawAt a e := by simp [List.getD_eq_getElem?_getD, he]
    obtain ⟨hvalid, hanchor⟩ := h e he
    rw [hget, hvalid, hanchor, bne_self_eq_false]
    rfl

/-! ### Accesses noted around flags, stores and accumulators -/

theorem State.dbg_orFlags (t : State) (f : Flags) : (t.orFlags f).here.dbg = t.here.dbg := by simp [State.orFlags]

theorem State.NotedFrom.orFlags {u t : State} (h : u.NotedFrom t) (f : Flags) : (u.orFlags f).NotedFrom (t.orFlags f) := by
  rcases h with rfl | ⟨l, rfl⟩
  · exact .refl _
  · exact .inr ⟨l, by simp [State.orFlags]⟩

theorem State.putBytes_keepsTile (s : State) (part a : Nat) (l : List Byte) : s.KeepsTile (s.putBytes part a l) := by
  obtain ⟨hs, hd, -⟩ := Tile.storeBytes_rest s.here s.supervisor a l
  unfold State.putBytes
  split
  · exact .setHere hs hd
  · exact .storeParts s _

theorem Tile.touchAcc_setStrand (x : Tile) (mgmt : Bool) (c : BitVec 3) (n : BitVec 2) (r : Strand) :
    (x.setStrand n r).touchAcc mgmt c = (x.touchAcc mgmt c).setStrand n r := by
  have hneeds : (x.setStrand n r).needsAccPre mgmt c = x.needsAccPre mgmt c := rfl
  unfold Tile.touchAcc
  rw [hneeds]
  split <;> rfl

theorem State.NotedFrom.writeAcc {u t : State} (h : u.NotedFrom t) (c : BitVec 3) (q : Acc) : (u.writeAcc c q).NotedFrom (t.writeAcc c q) := by
  rcases h with rfl | ⟨l, rfl⟩
  · exact .refl _
  · refine .inr ⟨l, ?_⟩
    rw [(u.writeAcc_keepsTile c q).me, State.writeAcc, State.writeAcc, State.here_setMe, Tile.touchAcc_setStrand, State.setHere_setMe,
      State.setMe_setHere]
    rfl

end Sys2Proof.Machine
end

section
/-! ACCRD, ACCST, ACCSV and ACCLD (R205 to R209). -/
namespace Sys2Proof.Machine
variable {s : State} {c : BitVec 3} {b : BitVec 6} {y r n : BitVec 4} {o : BitVec 1}

section
variable (hq : s.here.mmaq = []) (hh : s.me.held = none) (he : s.here.errs = [])
include hq hh he

/-- R205: ACCRD where nothing stops it. -/
theorem exec_accrd (ho : rowOverflows (s.here.accAt c) r.toNat = false ∨ o = 0) (d : BitVec 5) :
    exec (.accrd c d r o) s = s.finishSeq (.accrd c d r o)
      (.ok ((s.setV d (ofElems 32 (((s.here.accAt c).rowF32 r.toNat s.mode s.sat).map Prod.fst))).orFlags
        ((s.here.accAt c).rowFlags r.toNat s.mode s.sat))) := by
  have hgo : (rowOverflows (s.here.accAt c) r.toNat && o == 1) = false := by
    rcases ho with h | rfl
    · rw [h, Bool.false_and]
    · exact Bool.and_false _
  have hrow (q : Acc) : ((span (16 * r.toNat) 16).map fun e => encodeTy tF32 (accExt q.anc.toInt (q.elem e)) s.mode s.sat) =
      q.rowF32 r.toNat s.mode s.sat := by rw [Acc.rowF32, ← Acc.span_row, List.map_map]; rfl
  show execAccrd c d r o s = _
  simp only [execAccrd, State.matrixEntry_ok hq hh, State.readAcc_ok he, State.andThen_same, hrow, hgo, Bool.false_eq_true, if_false]
  rfl

theorem accrd_completes (h : s.plain 1 = true) (ho : rowOverflows (s.here.accAt c) r.toNat = false ∨ o = 0) (d : BitVec 5) :
    Completes (.accrd c d r o) s ((s.setV d (ofElems 32 (((s.here.accAt c).rowF32 r.toNat s.mode s.sat).map Prod.fst))).orFlags
      ((s.here.accAt c).rowFlags r.toNat s.mode s.sat)) :=
  .of_keepsControl h (exec_accrd hq hh he ho d) ((State.KeepsControl.setV ..).orFlags _)

/-- R205: with o = 1 a row past the accumulator's range ends in ACC_OVERFLOW. -/
theorem exec_accrd_overflow (hov : rowOverflows (s.here.accAt c) r.toNat = true) (d : BitVec 5) : exec (.accrd c d r 1) s =
    .next ((s.takeTrap 0x34 (r.setWidth 8) (c.setWidth 64) s.me.pc.toNat false).afterRetire) := by
  show execAccrd c d r 1 s = _
  simp only [execAccrd, State.matrixEntry_ok hq hh, State.readAcc_ok he, State.andThen_same, hov, beq_self_eq_true, Bool.and_self, if_true]
  exact State.finishSeq_raise s _ 0x34 _ _ (by decide)

variable (hl : s.here.locks = []) (ha : (s.getS b).toNat % 64 = 0)
include hl ha

/-- R206, R207: ACCST where nothing stops it and no element passes the range. -/
theorem exec_accst (hb : (s.getS b).toNat + 64 * (n.toNat + 1) ≤ 2 ^ 18)
    (hov : ∀ j ≤ n.toNat, rowOverflows (s.here.accAt c) (r.toNat + j) = false)
    (hr : s.here.retentionOk (isMgmt s.curTile) (linesOf (s.getS b).toNat (64 * (n.toNat + 1))) = true) (y : BitVec 4) (o : BitVec 1) :
    exec (.accst c b y r n o) s = s.finishSeq (.accst c b y r n o) (.ok
      (((s.putLines ((s.getS b).toNat / 64) ((s.here.accAt c).quantLine y r.toNat) (n.toNat + 1)).note false true (s.getS b).toNat
        (64 * (n.toNat + 1))).orFlags
          ((List.range (n.toNat + 1)).foldl (fun f j => f ||| ((s.here.accAt c).quantRow y r.toNat j).2.2) 0))) := by
  have hr' : s.here.retentionOk s.supervisor (linesOf (s.getS b).toNat (64 * (n.toNat + 1))) = true := hr
  have hbad : (span r.toNat (n.toNat + 1)).find? (rowOverflows (s.here.accAt c)) = none := find_span_none fun j hj => hov j (by omega)
  have hrows (q : Acc) : ((span r.toNat (n.toNat + 1)).map fun row =>
      quantizeLine (accstFmt y) ((span (16 * row) 16).map fun e => accExt q.anc.toInt (q.elem e))) =
        (List.range (n.toNat + 1)).map (q.quantRow y r.toNat) := by
    rw [span_map]
    exact List.map_congr_left fun j _ => congrArg (quantizeLine (accstFmt y)) (q.span_row _)
  show execAccst c b y r n o s = _
  simp only [execAccst, State.matrixEntry_ok hq hh, State.checkBlockAt_ok hl hb ha, State.readAcc_ok he, State.andThen_same, hbad, hrows,
    State.checkRetention, hr', if_true, State.preRead_none he, span_zero_eq_range, zip_range_map, List.foldl_map, Option.isSome_none,
    Bool.false_eq_true, if_false]
  rfl

theorem accst_completes (h : s.plain 1 = true) (hb : (s.getS b).toNat + 64 * (n.toNat + 1) ≤ 2 ^ 18)
    (hov : ∀ j ≤ n.toNat, rowOverflows (s.here.accAt c) (r.toNat + j) = false)
    (hr : s.here.retentionOk (isMgmt s.curTile) (linesOf (s.getS b).toNat (64 * (n.toNat + 1))) = true) (y : BitVec 4) (o : BitVec 1) :
    Completes (.accst c b y r n o) s
      ((s.putLines ((s.getS b).toNat / 64) ((s.here.accAt c).quantLine y r.toNat) (n.toNat + 1)).orFlags
        ((List.range (n.toNat + 1)).foldl (fun f j => f ||| ((s.here.accAt c).quantRow y r.toNat j).2.2) 0)) := by
  have hk := s.putLines_keepsTile ((s.getS b).toNat / 64) ((s.here.accAt c).quantLine y r.toNat) (n.toNat + 1)
  exact .of_notedFrom h (exec_accst hq hh he hl ha hb hov hr y o) (((State.NotedFrom.refl _).note ..).orFlags _) (hk.keepsControl.orFlags _)
    ((State.dbg_orFlags ..).trans hk.dbg)

/-- R208: ACCSV where nothing stops it and no element passes the range. -/
theorem exec_accsv (hb : (s.getS b).toNat + 4096 ≤ 2 ^ 18)
    (hov : ∀ e < 256, (accQ ((s.here.accAt c).elem e)).2 = false)
    (hr : s.here.retentionOk (isMgmt s.curTile) (linesOf (s.getS b).toNat 4096) = true) (o : BitVec 1) :
    exec (.accsv c b o) s = s.finishSeq (.accsv c b o) (.ok ((s.putBytes 16 (s.getS b).toNat (s.here.accAt c).raws).note false true
      (s.getS b).toNat 4096)) := by
  have hr' : s.here.retentionOk s.supervisor (linesOf (s.getS b).toNat 4096) = true := hr
  have hnone : (s.here.accAt c).all.any (fun e => (accQ e).2) = false := by
    rw [Acc.all_eq_map, List.any_map, List.any_eq_false]
    exact fun e he => Bool.eq_false_iff.mp (hov e (List.mem_range.mp he))
  have hraws (q : Acc) : q.all.flatMap (rawElem q.anc) = q.raws := by rw [Acc.all_eq_map, List.flatMap_map, Acc.raws]
  show execAccsv c b o s = _
  simp only [execAccsv, State.matrixEntry_ok hq hh, State.checkBlockAt_ok hl hb ha, State.readAcc_ok he, State.andThen_same, hnone, hraws,
    State.checkRetention, hr', if_true, State.preRead_none he, Bool.false_and, Bool.false_eq_true, if_false]
  rfl

theorem accsv_completes (h : s.plain 1 = true) (hb : (s.getS b).toNat + 4096 ≤ 2 ^ 18)
    (hov : ∀ e < 256, (accQ ((s.here.accAt c).elem e)).2 = false)
    (hr : s.here.retentionOk (isMgmt s.curTile) (linesOf (s.getS b).toNat 4096) = true) (o : BitVec 1) :
    Completes (.accsv c b o) s (s.putBytes 16 (s.getS b).toNat (s.here.accAt c).raws) :=
  .of_stored h (exec_accsv hq hh he hl ha hb hov hr o) ((State.NotedFrom.refl _).note ..) (s.putBytes_keepsTile ..)

/-- R208, R209: ACCLD where nothing stops it and the raw elements are valid and of one anchor. -/
theorem exec_accld (hb : (s.getS b).toNat + 4096 ≤ 2 ^ 18) (hr : s.here.retu + 64 * s.here.sbuf.length + 2560 ≤ 65536)
    (hraw : s.RawsOk (s.getS b).toNat) (c : BitVec 3) :
    exec (.accld c b) s = s.finishSeq (.accld c b) (.ok ((s.note false false (s.getS b).toNat 4096).writeAcc c
      (accOf (BitVec.ofNat 16 (rawAnchor (s.rawAt (s.getS b).toNat 0))) ((List.range 256).map fun e => ofRaw (s.rawAt (s.getS b).toNat e))))) := by
  have hanchor (l : List Byte) : ofBytes ((l.drop 12).take 2) = rawAnchor l := rfl
  show execAccld c b s = _
  simp only [execAccld, State.matrixEntry_ok hq hh, State.checkBlockAt_ok hl hb ha, State.readLines_none s he, State.andThen_same, s.rawAt_chunks,
    s.rawAt_first, hanchor, hraw.find_none, State.checkAccPre_ok hr, State.preAcc_ok he, List.map_map]
  rfl

end

/-- Where the turn performs its stores at once, what ACCST leaves line by line (R206). -/
theorem accst_direct {line : Nat → Nat × Nat} {fl : Flags} (hd : s.direct = true) (ha : (s.getS b).toNat % 64 = 0)
    (hc : Completes (.accst c b y r n o) s ((s.putLines ((s.getS b).toNat / 64) line (n.toNat + 1)).orFlags fl)) :
    ∃ z : Tile, Completes (.accst c b y r n o) s ((s.setHere z).orFlags fl) ∧ z.strands = s.here.strands ∧
      (∀ j ≤ n.toNat, z.lm ((s.getS b).toNat + 64 * j) 64 = (line j).1 % 2 ^ 512 ∧
        (z.bandAt ((s.getS b).toNat / 64 + j)).toNat / 2 ^ 16 = (line j).2 % 2 ^ 16 ∧
        (z.bandAt ((s.getS b).toNat / 64 + j)).toNat % 2 ^ 16 = (s.here.bandAt ((s.getS b).toNat / 64 + j)).toNat % 2 ^ 16) ∧
      ∀ k, (k < (s.getS b).toNat ∨ (s.getS b).toNat + 64 * (n.toNat + 1) ≤ k) → z.byte k = s.here.byte k := by
  generalize (s.getS b).toNat = a at *
  have hline : 64 * (a / 64) = a := Nat.mul_div_cancel' (Nat.dvd_of_mod_eq_zero ha)
  have hk := s.putLines_keepsTile (a / 64) line (n.toNat + 1)
  rw [State.putLines_direct hd] at hc hk
  refine ⟨_, hc, by simpa using hk.strands, fun j hj => ⟨?_, ?_⟩, fun k hout => ?_⟩
  · have hlm := s.here.lm_storeLines s.supervisor (a / 64) line (n.toNat + 1) (Nat.lt_succ_of_le hj)
    rwa [Nat.mul_add, hline] at hlm
  · obtain ⟨hdesc, htags⟩ := band_setDesc (s.here.bandAt (a / 64 + j)) (BitVec.ofNat 16 (line j).2)
    rw [Tile.bandAt_storeLines, if_pos (by omega), Nat.add_sub_cancel_left]
    exact ⟨hdesc.trans (BitVec.toNat_ofNat ..), htags⟩
  · rw [Tile.byte_storeLines, if_neg (by omega)]

/-- Settles O30: each instruction ends in the store, the load or the row that its meaning names, read off line by line. -/
theorem accumulatorReadOut : Obligations.AccumulatorReadOut := by
  unfold Obligations.AccumulatorReadOut
  intro s c d b y r n o h hq hh he hl acc adr a mgmt row f32
  refine ⟨fun hov => ?_, fun hov => ⟨?_, exec_accrd_overflow hq hh he hov d⟩, ?_, ?_, ?_⟩
  · have hc := accrd_completes hq hh he h (o := o) (.inl hov) d
    rwa [Acc.rowFlags, if_neg (Bool.eq_false_iff.mp hov)] at hc
  · have hc := accrd_completes hq hh he h (c := c) (r := r) (.inr rfl) d
    rwa [Acc.rowFlags, if_pos hov] at hc
  · intro ha hb _ hov hr line fl
    have hc := accst_completes hq hh he hl ha h hb hov hr y o
    refine ⟨fun hd => accst_direct hd ha hc, fun hd => ?_⟩
    have hline : 64 * ((s.getS b).toNat / 64) = (s.getS b).toNat := Nat.mul_div_cancel' (Nat.dvd_of_mod_eq_zero ha)
    rw [State.putLines_late hd] at hc
    simp only [State.lineParts, Nat.mul_add, hline] at hc
    exact hc
  · intro ha hb hov hr raws
    have hc := accsv_completes hq hh he hl ha h hb hov hr o
    refine ⟨fun hd => ?_, fun hd => ?_⟩
    · rwa [State.putBytes, if_pos hd] at hc
    · rwa [State.putBytes, if_neg (by simp [hd])] at hc
  · intro ha hb hr raw anc hraw
    exact ⟨_, .of_notedFrom h (exec_accld hq hh he hl ha hb hr hraw c) (((State.NotedFrom.refl s).note ..).writeAcc ..)
      (s.writeAcc_keepsTile ..).keepsControl (s.writeAcc_keepsTile ..).dbg, rfl, fun e hlt => accOf_elem _ _ hlt⟩

end Sys2Proof.Machine
end
